-- ==== Sys2Proof/Word.lean ====
section
/-! DEFINITION. The word types of the device and the index types of its like units (spec/00_scope.md, Tables 7 and 8). -/

namespace Sys2Proof

/-- A 64-bit register or scalar (spec/00_scope.md; spec/04, R84). -/
abbrev Word := BitVec 64

/-- One byte; storage is little-endian (spec/00_scope.md, after Table 7). -/
abbrev Byte := BitVec 8

/-- A physical core, C00 to C67 (spec/00_scope.md, Table 7). -/
abbrev CoreId := Fin 68

/-- A compute region, CG0 to CG16 (spec/00_scope.md, Table 7; R12). -/
abbrev RegionId := Fin 17

/-- A memory region and its stack, MEM0 to MEM7 and STK0 to STK7 (spec/00_scope.md, Table 7). -/
abbrev StackId := Fin 8

/-- A Baswell link port, BP0 to BP9 (spec/00_scope.md, Table 7). -/
abbrev PortId := Fin 10

/-- The compute region of a physical core: CGk holds C(4k) to C(4k + 3) (R12). -/
def regionOf (c : CoreId) : RegionId := ⟨c.val / 4, by omega⟩

/-- Core `j` of a compute region (R12). -/
def coreOf (r : RegionId) (j : Fin 4) : CoreId := ⟨4 * r.val + j.val, by omega⟩

theorem regionOf_coreOf (r : RegionId) (j : Fin 4) : regionOf (coreOf r j) = r := by
  apply Fin.ext
  simp only [regionOf, coreOf]
  omega

end Sys2Proof
end

