-- ==== Sys2Proof/Syntax.lean ====
section
/-! DEFINITION. The commands of the block: one constructor of Instr per row of spec/opcode_table.json, with the row's operands.
Slot instructions name the core that issues them and hold the fields of their encoding tables; a field written "x - 1" in the
spec is held as encoded, under a name that ends in M1. Events name the unit in which they happen. Host commands hold the
fields of their packets or register writes. -/

namespace Sys2Proof

/-- A rail that a monitor watches (spec/18, Table 3; R352). -/
inductive Rail where
  | core
  | sram
  | dram
  | iod0
  | vdda0
  | iod1
  | vdda1
  deriving DecidableEq, Repr

/-- A ring direction: clockwise or counter-clockwise (spec/00_scope.md, Table 7). -/
inductive Dir where
  | cw
  | ccw
  deriving DecidableEq, Repr

/-- A scalar register number, S0 to S63. -/
abbrev SReg := Fin 64

/-- A tile register number, T0 to T31. -/
abbrev TReg := Fin 32

/-- A vector register number, V0 to V7. -/
abbrev VRegId := Fin 8

/-- A stream queue number, Q0 to Q15. -/
abbrev QId := Fin 16

/-- The fields of MMA (spec/05, Table 4). -/
structure MmaFields where
  mask : Fin 16
  base : TReg
  g : Fin 4
  first : Fin 128
  nM1 : Fin 128
  north : Bool
  bank : Bool
  clr : Bool
  acc : Fin 128
  deriving DecidableEq, Repr

/-- The fields of WLD (spec/05, Table 4). -/
structure WldFields where
  mask : Fin 16
  tile : TReg
  gw2 : Bool
  axisCols : Bool
  sparsity : Fin 4
  mtile : TReg
  src : Fin 4
  deriving DecidableEq, Repr

/-- The fields of MVM (spec/05, Table 4). -/
structure MvmFields where
  q : QId
  vecM1 : Fin 8
  linesM1 : Fin 256
  clr : Bool
  e0 : Fin 512
  lc : Fin 8
  useLc : Bool
  bank : Bool
  deriving DecidableEq, Repr

/-- The fields of WADD (spec/05, Table 4). -/
structure WaddFields where
  arr : Fin 4
  bank : Bool
  wide : Bool
  row : Fin 128
  rowsM1 : Fin 128
  deriving DecidableEq, Repr

/-- The fields of VDRN (spec/07, Table 10). -/
structure VdrnFields where
  mask : Fin 16
  bank : Bool
  mv : Bool
  acc : Fin 128
  nM1 : Fin 128
  vdst : Bool
  dst : Fin 32
  e : Fin 128
  func : Fin 16
  mode : Fin 4
  scl : Bool
  bias : Bool
  aux : TReg
  save : Bool
  stat : Bool
  rnd : Bool
  ctx : Fin 4
  deriving DecidableEq, Repr

/-- The fields of VLD (spec/07, Table 10). -/
structure VldFields where
  tile : TReg
  v : VRegId
  f : Fin 128
  r : Fin 64
  nM1 : Fin 64
  deriving DecidableEq, Repr

/-- The fields of VST (spec/07, Table 10). -/
structure VstFields where
  v : VRegId
  tile : TReg
  r : Fin 64
  f : Fin 128
  nM1 : Fin 64
  rnd : Bool
  ctx : Fin 4
  stat : Bool
  deriving DecidableEq, Repr

/-- The fields of VOP (spec/07, Table 10). -/
structure VopFields where
  op : Fin 16
  a : VRegId
  b : VRegId
  d : VRegId
  bmode : Fin 4
  r : Fin 64
  nM1 : Fin 64
  q : Fin 64
  deriving DecidableEq, Repr

/-- The fields of VFN (spec/07, Table 10). -/
structure VfnFields where
  func : Fin 16
  src : VRegId
  d : VRegId
  r : Fin 64
  nM1 : Fin 64
  deriving DecidableEq, Repr

/-- The fields of VRED (spec/07, Table 10). -/
structure VredFields where
  op : Fin 16
  src : VRegId
  d : VRegId
  r : Fin 64
  nM1 : Fin 64
  cM1 : Fin 128
  q : Fin 64
  deriving DecidableEq, Repr

/-- The fields of VSMX (spec/07, Table 10). -/
structure VsmxFields where
  scores : VRegId
  p : VRegId
  r : Fin 64
  nM1 : Fin 64
  ctx : Bool
  init : Bool
  mask : TReg
  maskEn : Bool
  len : SReg
  deriving DecidableEq, Repr

/-- The fields of VRESC (spec/07, Table 10). -/
structure VrescFields where
  arr : Fin 4
  bank : Bool
  mv : Bool
  acc : Fin 128
  nM1 : Fin 64
  o : VRegId
  r : Fin 64
  ctx : Bool
  deriving DecidableEq, Repr

/-- The fields of VSMXF (spec/07, Table 10). -/
structure VsmxfFields where
  o : VRegId
  vdst : Bool
  dst : Fin 32
  r : Fin 64
  nM1 : Fin 64
  dstRow : Fin 128
  ctx : Bool
  lse : VRegId
  q : Fin 64
  deriving DecidableEq, Repr

/-- The fields of VWCV (spec/07, Table 10). -/
structure VwcvFields where
  wide : Bool
  f : Fin 128
  nM1 : Fin 128
  vdst : Bool
  dst : Fin 32
  dstRow : Fin 128
  deriving DecidableEq, Repr

/-- The fields of VRNG (spec/07, Table 10). -/
structure VrngFields where
  d : VRegId
  r : Fin 64
  nM1 : Fin 64
  ctx : Fin 4
  bits : Bool
  thr : SReg
  deriving DecidableEq, Repr

/-- The fields of SPUT (spec/09, Table 5). -/
structure SputFields where
  q : QId
  tile : TReg
  f : Fin 128
  mM1 : Fin 128
  plane : Bool
  deriving DecidableEq, Repr

/-- The fields of FSEND (spec/06, Table 2). -/
structure FsendFields where
  dir : Dir
  queue : Bool
  src : Fin 32
  gM1 : Fin 4
  ttl : Fin 128
  flitsM1 : Fin 512
  tag : Byte
  deriving DecidableEq, Repr

/-- The fields of KOUT (spec/10, Table 5). -/
structure KoutFields where
  k : Fin 8
  q : QId
  f : Fin 128
  rowsM1 : Fin 128
  bf16 : Bool
  deriving DecidableEq, Repr


/-- The header of a command packet (spec/12, Table 3): FLAGS.ORDERED, FLAGS.IRQ, TAG, and whether a reserved field of the
packet is not zero or a mode or operation code in it is none that Table 5 lists (R252, R267). -/
structure PktHdr where
  tag : BitVec 16
  ordered : Bool
  irq : Bool
  rsv : Bool
  /-- Does the device's read of the packet from the ring succeed (R251). -/
  readOk : Bool := true
  deriving DecidableEq, Repr

/-- Which bytes of a 64-bit register a BAR 0 access covers (R248). -/
inductive Lanes where
  | all
  | low
  | high
  deriving DecidableEq, Repr

/-- A BAR 0 access: the bytes it covers, whether it arrived in a keyed selective stream, and whether its TLP is poisoned (R245, R248,
R366). -/
structure BarAcc where
  lanes : Lanes
  keyed : Bool
  poisoned : Bool := false
  deriving DecidableEq, Repr

/-- What the checks of a piece's access find (R237 to R240): nothing, a SECDED correction, two bits within one die, up
to three bond retries, a fourth bond failure, or an error that is detected and that nothing corrects. A correction names the die, its
bank and row; two bits within one die name the die. -/
inductive PieceCheck where
  | clean
  | corrected (die : Fin 17) (bank row : Nat)
  | parity (die : Fin 17)
  | retried (n : Fin 4)
  | bondFailed
  | uncorrected
  deriving DecidableEq, Repr

/-- A BAR 2 access: its slot and offset in the slot, its length, the data of a write, whether it arrived in a keyed selective stream,
whether it meets an error that a local store does not correct, what the checks of the DRAM pieces at some device addresses find, and
whether its TLP is poisoned (R237 to R239, R245, R249, R250, R366). -/
structure HostAcc where
  slot : Fin 16
  off : Nat
  len : Nat
  write : Bool
  data : List Byte
  keyed : Bool
  ecc : Bool
  chks : List (Nat × PieceCheck) := []
  poisoned : Bool := false
  deriving DecidableEq, Repr

/-- An access of a core's own stores whose check detects an error that it does not correct: in its local store, or in a tile register,
accumulator, wide tile, combining queue or crossing queue (R237; spec/11, Table 3). -/
structure StoreError where
  core : CoreId
  localStore : Bool
  deriving DecidableEq, Repr

/-- The findings of a core self-test (R324): failed rows and columns of each array, and a failure outside the arrays. -/
structure SelfTest where
  rows : Vector (List (Fin 130)) 4
  cols : Vector (List (Fin 130)) 4
  other : Bool
  deriving DecidableEq, Repr

/-- What a port's training finds (R289, R290, R384): the error count of each lane, the usable lanes, the peer's identifier where
it has one, and the credits the peer grants each class. -/
structure Training where
  errors : Vector Nat 9
  usable : BitVec 9
  peer : Option (BitVec 14)
  credits : Vector Nat 4
  deriving DecidableEq, Repr

/-- What a contribution packet says of its command beside the rows it carries (spec/14, Table 4; R312): the queue and core it
goes to, the rows' format, the tile's first row and row count, anchor and NaN flag, and whether it carries the last rows. -/
structure ContribInfo where
  rcore : Fin 64
  rk : Fin 8
  wide : Bool
  row0 : Fin 128
  nrowsM1 : Fin 128
  anchor : BitVec 10
  nan : Bool
  final : Bool
  deriving DecidableEq, Repr

/-- A link packet: the fields of its header (spec/14, Table 3) and its data, and for a contribution what it says of its command, for
which Table 3 has no place (DESIGN CHOICE, log entry 115). -/
structure LinkPkt where
  pk : BitVec 4
  dst : BitVec 14
  src : BitVec 14
  core : Fin 64
  cmd : BitVec 19
  addr : BitVec 48
  status : BitVec 16
  data : List Byte
  info : Option ContribInfo := none
  deriving DecidableEq, Repr

/-- A cable between two devices of a domain, as the manager's enumeration packets find it: each end's device, by a number of the
manager's own in which 0 is itself, and port (R301). -/
structure FabLink where
  a : Nat
  pa : Fin 10
  b : Nat
  pb : Fin 10
  deriving DecidableEq, Repr

/-- What an enumeration packet brings to a device (R300 to R303): a manager's own mark, the identifier, tree depth and parent
port it assigns, the device's tree children, the routes it writes (identifier, port; no port makes the entry invalid), and whether
it ends the enumeration; to the manager, the working cables that its packets have found by then. -/
structure EnumPkt where
  manager : BitVec 14
  fromOther : Bool
  assign : Option (BitVec 14 × BitVec 5 × BitVec 4)
  kids : Option (List (Fin 10))
  routes : List (BitVec 14 × Option (Fin 10))
  found : Option (List FabLink)
  done : Bool
  deriving DecidableEq, Repr

/-- A schedule tick of a region, with the errors that the checks of its cores' stores find in it (R20, R237). -/
structure TickOf where
  region : RegionId
  errs : List StoreError
  deriving DecidableEq, Repr

/-- A rail and the level, in mV, at which the monitor sees it (R352). -/
structure RailLevel where
  rail : Rail
  mv : BitVec 12
  deriving DecidableEq, Repr

/-- The core whose link command is taken, with what the checks of the pieces that it reads find (R238, R310). -/
structure LinkRead where
  core : CoreId
  chks : List (Nat × PieceCheck)
  deriving DecidableEq, Repr

/-- A packet that arrives for memory, with what the checks of the pieces that it touches find (R238, R311, R312). -/
structure LinkLanding where
  pkt : LinkPkt
  chks : List (Nat × PieceCheck)
  deriving DecidableEq, Repr

/-- A report that a device has prepared: the child it comes from (none: the device itself), and whether a snapshot is in progress there
(R308, R332). -/
structure PrepReport where
  child : Option PortId
  busy : Bool
  deriving DecidableEq, Repr

/-- The commands: one constructor per row of spec/opcode_table.json. -/
inductive Instr where
  /-- SADD (R85). -/
  | sadd (c : CoreId) (rd rs1 rs2 : SReg)
  /-- SSUB (R85). -/
  | ssub (c : CoreId) (rd rs1 rs2 : SReg)
  /-- SAND (R85). -/
  | sand (c : CoreId) (rd rs1 rs2 : SReg)
  /-- SOR (R85). -/
  | sor (c : CoreId) (rd rs1 rs2 : SReg)
  /-- SXOR (R85). -/
  | sxor (c : CoreId) (rd rs1 rs2 : SReg)
  /-- SSHL (R85). -/
  | sshl (c : CoreId) (rd rs1 rs2 : SReg)
  /-- SSHR (R85). -/
  | sshr (c : CoreId) (rd rs1 rs2 : SReg)
  /-- SSRA (R85). -/
  | ssra (c : CoreId) (rd rs1 rs2 : SReg)
  /-- SLT (R85). -/
  | slt (c : CoreId) (rd rs1 rs2 : SReg)
  /-- SLTU (R85). -/
  | sltu (c : CoreId) (rd rs1 rs2 : SReg)
  /-- SEQ (R85). -/
  | sseq (c : CoreId) (rd rs1 rs2 : SReg)
  /-- SMUL (R85). -/
  | smul (c : CoreId) (rd rs1 rs2 : SReg)
  /-- SADDI (R85). -/
  | saddi (c : CoreId) (rd rs1 : SReg) (imm : BitVec 12)
  /-- SANDI (R85). -/
  | sandi (c : CoreId) (rd rs1 : SReg) (imm : BitVec 12)
  /-- SORI (R85). -/
  | sori (c : CoreId) (rd rs1 : SReg) (imm : BitVec 12)
  /-- SSHLI (R85). -/
  | sshli (c : CoreId) (rd rs1 : SReg) (imm : BitVec 12)
  /-- SSHRI (R85). -/
  | sshri (c : CoreId) (rd rs1 : SReg) (imm : BitVec 12)
  /-- SLI (R85). -/
  | sli (c : CoreId) (rd : SReg) (imm : BitVec 18)
  /-- SLC (R85). -/
  | slc (c : CoreId) (rd : SReg) (lc : Fin 8)
  /-- REP (R86). -/
  | rep (c : CoreId) (lc : Fin 8) (bodyM1 : Fin 1024) (count : Fin 2048)
  /-- REPS (R86). -/
  | reps (c : CoreId) (lc : Fin 8) (bodyM1 : Fin 1024) (rs : SReg)
  /-- NEXT (R91). -/
  | nextLayer (c : CoreId)
  /-- JSEL (R88). -/
  | jsel (c : CoreId) (q : QId) (j : Fin 8)
  /-- JTRIP (R89). -/
  | jtrip (c : CoreId) (q : QId) (lc : Fin 8) (bodyM1 : Fin 1024) (h : Fin 32)
  /-- JOIN (R90). -/
  | join (c : CoreId) (j : Fin 8)
  /-- TCFG (R99). -/
  | tcfg (c : CoreId) (t : TReg) (rows : Byte) (rowb : BitVec 5) (fmt : BitVec 5) (axis : Bool)
  /-- TREL (R101). -/
  | trel (c : CoreId) (rs : SReg)
  /-- TRELI (R101). -/
  | treli (c : CoreId) (t : TReg)
  /-- WCLR (R173). -/
  | wclr (c : CoreId) (w : Bool)
  /-- XSEND (R309). -/
  | xsend (c : CoreId) (nM1 : Fin 32)
  /-- XWAIT (R314). -/
  | xwait (c : CoreId) (f : Fin 8) (k : SReg)
  /-- XSYNC (R314). -/
  | xsync (c : CoreId) (k : SReg)
  /-- MMA (R110). -/
  | mma (c : CoreId) (x : MmaFields)
  /-- WLD (R113). -/
  | wld (c : CoreId) (x : WldFields)
  /-- WSWAP (R114). -/
  | wswap (c : CoreId) (mask : Fin 16)
  /-- ABSW (R116). -/
  | absw (c : CoreId) (mask : Fin 16)
  /-- ACLR (R117). -/
  | aclr (c : CoreId) (mask : Fin 16) (bank int : Bool)
  /-- MVLD (R127). -/
  | mvld (c : CoreId) (t : TReg) (e : Fin 512)
  /-- MVM (R127). -/
  | mvm (c : CoreId) (x : MvmFields)
  /-- WADD (R174). -/
  | wadd (c : CoreId) (x : WaddFields)
  /-- VDRN (R150). -/
  | vdrn (c : CoreId) (x : VdrnFields)
  /-- VLD (R157). -/
  | vld (c : CoreId) (x : VldFields)
  /-- VST (R157). -/
  | vst (c : CoreId) (x : VstFields)
  /-- VOP (R154). -/
  | vop (c : CoreId) (x : VopFields)
  /-- VFN (R155). -/
  | vfn (c : CoreId) (x : VfnFields)
  /-- VRED (R156). -/
  | vred (c : CoreId) (x : VredFields)
  /-- VSMX (R162). -/
  | vsmx (c : CoreId) (x : VsmxFields)
  /-- VRESC (R163). -/
  | vresc (c : CoreId) (x : VrescFields)
  /-- VSMXF (R164). -/
  | vsmxf (c : CoreId) (x : VsmxfFields)
  /-- VWCV (R160). -/
  | vwcv (c : CoreId) (x : VwcvFields)
  /-- VRNG (R159). -/
  | vrng (c : CoreId) (x : VrngFields)
  /-- VSCLN (R165). -/
  | vscln (c : CoreId)
  /-- WAITQ (R183). -/
  | waitq (c : CoreId) (q : QId) (nM1 : Fin 64)
  /-- SDROP (R182). -/
  | sdrop (c : CoreId) (q : QId) (nM1 : Fin 64)
  /-- SDESC (R187). -/
  | sdesc (c : CoreId) (q : QId) (nM1 : Fin 1024)
  /-- SARM (R204). -/
  | sarm (c : CoreId) (q : QId)
  /-- SFENCE (R198). -/
  | sfence (c : CoreId) (q : QId)
  /-- SLD (R196). -/
  | sld (c : CoreId) (q : QId) (t : TReg) (f mM1 : Fin 128)
  /-- SPUT (R197). -/
  | sput (c : CoreId) (x : SputFields)
  /-- BPUSH (R199). -/
  | bpush (c : CoreId) (b : Fin 8) (k : SReg)
  /-- FSEND (R138). -/
  | fsend (c : CoreId) (x : FsendFields)
  /-- FRCV (R140). -/
  | frcv (c : CoreId) (d : Dir) (t : TReg)
  /-- FXIN (R135). -/
  | fxin (c : CoreId) (d : Dir) (flitsM1 : Fin 512)
  /-- OPEN (R207). -/
  | chOpen (c : CoreId) (ch : Fin 32) (k : SReg)
  /-- CLOSE (R216). -/
  | chClose (c : CoreId) (ch : Fin 32)
  /-- CSEND (R212). -/
  | csend (c : CoreId) (ch : Fin 32) (nM1 : Fin 64)
  /-- CACK (R208). -/
  | cack (c : CoreId) (ch : Fin 32) (nM1 : Fin 64)
  /-- CWAIT (R218). -/
  | cwait (c : CoreId) (ch : Fin 32) (k : SReg)
  /-- KWAIT (R223). -/
  | kwait (c : CoreId) (k : Fin 8) (rs : SReg)
  /-- KOUT (R223). -/
  | kout (c : CoreId) (x : KoutFields)
  /-- SCHEDULE_TICK, with the errors that the checks of its cores' stores find (R20, R237). -/
  | scheduleTick (r : TickOf)
  /-- HOLD_RELEASE (R34). -/
  | holdRelease (r : RegionId)
  /-- DROOP_STRETCH, with VDD_CORE at the region in mV (R25, R376). -/
  | droopStretch (r : RegionId) (mv : BitVec 12)
  /-- LOCKSTEP_ACTIVE (R26). -/
  | lockstepActive (r : RegionId)
  /-- HOLD_WATCHDOG (R36). -/
  | holdWatchdog (r : RegionId)
  /-- REGION_CLOCK_SWITCH (R43). -/
  | regionClockSwitch (r : RegionId)
  /-- CLOCK_SWITCH_DONE (R43). -/
  | clockSwitchDone (r : RegionId)
  /-- LAYER_START (R94). -/
  | layerStart (c : CoreId)
  /-- RECORD_PUSH (R95). -/
  | recordPush (c : CoreId)
  /-- CORE_COMPLETE (R96). -/
  | coreComplete (c : CoreId)
  /-- ACCUMULATOR_WRITE (R110). -/
  | accumulatorWrite (c : CoreId) (m : Fin 4)
  /-- CHECKSUM_COMPARE (R125). -/
  | checksumCompare (c : CoreId) (m : Fin 4)
  /-- SHADOW_WEIGHT_WRITE (R113). -/
  | shadowWeightWrite (c : CoreId)
  /-- MVM_LINE (R127). -/
  | mvmLine (c : CoreId)
  /-- VECTOR_RESULT_WRITE (R147). -/
  | vectorResultWrite (c : CoreId)
  /-- SCALER_RECORD_WRITE (R165). -/
  | scalerRecordWrite (c : CoreId)
  /-- WIDE_ROW_ADD (R174). -/
  | wideRowAdd (c : CoreId)
  /-- FLIT_EXIT_WRITE (R134). -/
  | flitExitWrite (r : RegionId) (d : Dir)
  /-- FXIN_READ (R135). -/
  | fxinRead (r : RegionId) (d : Dir)
  /-- FSEND_FLIT_INJECT (R138). -/
  | fsendFlitInject (c : CoreId) (d : Dir)
  /-- FLIT_CAPTURE (R140). -/
  | flitCapture (c : CoreId) (d : Dir)
  /-- AUTO_FORWARD (R136). -/
  | autoForward (r : RegionId) (d : Dir)
  /-- SLD_GROUP_LOAD (R196). -/
  | sldGroupLoad (c : CoreId)
  /-- SPUT_GROUP_WRITE (R197). -/
  | sputGroupWrite (c : CoreId)
  /-- DESCRIPTOR_START (R188). -/
  | descriptorStart (c : CoreId) (q : QId)
  /-- HANDLE_TAKE (R200). -/
  | handleTake (c : CoreId) (q : QId)
  /-- TRANSFER_ISSUE (R189). -/
  | transferIssue (c : CoreId)
  /-- RETURN_LAND (R181). -/
  | returnLand (c : CoreId) (q : QId) (id : Nat)
  /-- GATHER_INDEX_TAKE (R192). -/
  | gatherIndexTake (c : CoreId) (q : QId)
  /-- WRITE_ACCEPT (R198). -/
  | writeAccept (c : CoreId) (q : QId) (id : Nat)
  /-- BOUT_PUSH (R200). -/
  | boutPush (c : CoreId) (q : QId)
  /-- CREDIT_WATCHDOG (R201). -/
  | creditWatchdog (c : CoreId) (q : QId)
  /-- MESSAGE_LAND (R214). -/
  | messageLand (c : CoreId) (ch : Fin 32)
  /-- CREDIT_ARRIVE (R208). -/
  | creditArrive (c : CoreId) (ch : Fin 32)
  /-- CLOSE_NOTICE (R216). -/
  | closeNotice (c : CoreId) (ch : Fin 32)
  /-- DISCARD_NOTICE (R217). -/
  | discardNotice (c : CoreId) (ch : Fin 32)
  /-- COMBINE_NARROW (R221). -/
  | combineNarrow (c : CoreId) (k : Fin 8)
  /-- COMBINE_WIDE_ROW (R222). -/
  | combineWideRow (c : CoreId) (k : Fin 8)
  /-- STOP_AT_TICK_MATCH (R283). -/
  | stopAtTickMatch (r : RegionId)
  /-- JOB_STOPPED (R283). -/
  | jobStopped (j : Fin 65536)
  /-- JOB_START (R261). -/
  | jobStart (j : Fin 65536)
  /-- JOB_DONE (R264). -/
  | jobDone (j : Fin 65536)
  /-- JOB_FENCED (R265). -/
  | jobFenced (j : Fin 65536)
  /-- LOAD_CONFIG_LOAD (R258). -/
  | loadConfigLoad (h : PktHdr) (addr len : Word) (slot : BitVec 16) (wset : Word) (ecc : Bool)
  /-- LOAD_CONFIG_UNLOAD (R258). -/
  | loadConfigUnload (h : PktHdr) (slot : BitVec 16)
  /-- SUBMIT_GRAPH (R260). -/
  | submitGraph (h : PktHdr) (addr : Word) (count : BitVec 16)
  /-- START_RELEASE (R267). -/
  | startRelease (h : PktHdr) (j : Fin 65536)
  /-- START_RESUME (R285). -/
  | startResume (h : PktHdr) (j : Fin 65536)
  /-- COMMIT_OPEN (R268). -/
  | commitOpen (h : PktHdr) (g : Fin 16) (mask journal : Word) (jlen : BitVec 32)
  /-- COMMIT_STAGE (R269). -/
  | commitStage (h : PktHdr) (g : Fin 16) (addr : Word) (count : BitVec 16)
  /-- COMMIT_COMMIT (R270). -/
  | commitCommit (h : PktHdr) (g : Fin 16)
  /-- COMMIT_DISCARD (R268). -/
  | commitDiscard (h : PktHdr) (g : Fin 16)
  /-- STEP_ADVANCE (R76). -/
  | stepAdvance (h : PktHdr) (g : Fin 16) (mask : Word)
  /-- MEMBER_PREPARE (R270). -/
  | memberPrepare (g : Fin 16) (l : Fin 64)
  /-- COMMIT_DECISION (R270). -/
  | commitDecision (g : Fin 16)
  /-- PREP_TIMEOUT (R270). -/
  | prepTimeout (g : Fin 16)
  /-- COMMIT_APPLY (R271). -/
  | commitApply (g : Fin 16) (l : Fin 64)
  /-- COMMIT_COMPLETE (R272). -/
  | commitComplete (g : Fin 16) (chks : List (Nat × PieceCheck))
  /-- SNAPSHOT_PLAN (R336). -/
  | snapshotPlan (h : PktHdr) (addr : Word)
  /-- SNAPSHOT_WAIT_CAPTURED (R334). -/
  | snapshotWaitCaptured (h : PktHdr)
  /-- SNAPSHOT_WAIT_COMPLETE (R333). -/
  | snapshotWaitComplete (h : PktHdr)
  /-- RESTORE_LOCAL (R337). -/
  | restoreLocal (h : PktHdr) (slot : Fin 2)
  /-- RESTORE_VERIFY (R337). -/
  | restoreVerify (h : PktHdr) (slot : Fin 2) (partner : Bool)
  /-- RESTORE_FORWARD (R337). -/
  | restoreForward (h : PktHdr) (slot : Fin 2) (off len : Word) (dest : BitVec 14) (daddr : BitVec 48)
  /-- FENCE_CANCEL (R267). -/
  | fenceCancel (h : PktHdr) (j : Fin 65536)
  /-- FENCE_STOP (R267). -/
  | fenceStop (h : PktHdr) (j : Fin 65536)
  /-- WIPE_DRAM (R244). -/
  | wipeDram (h : PktHdr) (first : BitVec 32) (count : BitVec 16)
  /-- WIPE_ON_DIE (R255). -/
  | wipeOnDie (h : PktHdr) (mask : Word)
  /-- WIPE_DONE (R244). -/
  | wipeDone
  /-- SET_CLOCK (R43). -/
  | setClock (h : PktHdr) (mask : BitVec 17) (idx : Byte)
  /-- SET_WHEEL (R231). -/
  | setWheel (h : PktHdr) (mask : Byte) (addr : Word)
  /-- QUERY_REGISTER (R255). -/
  | queryRegister (h : PktHdr) (off : Word)
  /-- QUERY_JOB_ENTRY (R255). -/
  | queryJobEntry (h : PktHdr) (j : Fin 65536)
  /-- UNDEFINED_OPCODE_PACKET (R252). -/
  | undefinedOpcodePacket (h : PktHdr) (opcode : Byte)
  /-- REPLY_WRITE (R253). -/
  | replyWrite (ok : Bool)
  /-- JOB_EVENT_WRITE (R254). -/
  | jobEventWrite (ok : Bool)
  /-- ALERT_WRITE (R254). -/
  | alertWrite (ok : Bool)
  /-- CR_CTL_WRITE (R251). -/
  | crCtlWrite (b : BarAcc) (v : Word)
  /-- CR_TAIL_WRITE (R251). -/
  | crTailWrite (b : BarAcc) (v : Word) (readOk : Bool)
  /-- REGISTER_WRITE (R256). -/
  | registerWrite (b : BarAcc) (off : Nat) (v : Word)
  /-- RC_REGISTER_READ (R66). -/
  | rcRegisterRead (b : BarAcc) (off : Nat)
  /-- TALLY_CLEAR (R39). -/
  | tallyClear (b : BarAcc) (r : RegionId) (v : Word)
  /-- CG_CLKCTL_WRITE (R26). -/
  | cgClkctlWrite (b : BarAcc) (r : RegionId) (v : Word)
  /-- MEMC_DECODE_WRITE (R19). -/
  | memcDecodeWrite (b : BarAcc) (v : Word)
  /-- WHEEL_APPLY (R231). -/
  | wheelApply (b : BarAcc) (k : StackId) (v : Word)
  /-- WHEEL_TAKES_EFFECT (R231). -/
  | wheelTakesEffect (k : StackId)
  /-- HWIN_WRITE (R249). -/
  | hwinWrite (b : BarAcc) (i : Fin 16) (v : Word)
  /-- HOST_MEMORY_ACCESS (R250). -/
  | hostMemoryAccess (x : HostAcc)
  /-- JT_INDEX_WRITE (R266). -/
  | jtIndexWrite (b : BarAcc) (v : Word)
  /-- WAB_CLEARING_LOAD (R172). -/
  | wabClearingLoad (b : BarAcc) (c : CoreId) (w : Bool) (v : Word)
  /-- CH_CMD_OPEN (R224). -/
  | chCmdOpen (b : BarAcc) (c : CoreId) (ch : Fin 32)
  /-- CH_CMD_CLOSE (R224). -/
  | chCmdClose (b : BarAcc) (c : CoreId) (ch : Fin 32)
  /-- CH_CMD_POP (R224). -/
  | chCmdPop (b : BarAcc) (c : CoreId) (ch : Fin 32)
  /-- DIGEST_START (R286). -/
  | digestStart (b : BarAcc) (v : Word)
  /-- DIGEST_DONE (R286). -/
  | digestDone
  /-- SELF_TEST_REQUEST (R324). -/
  | selfTestRequest (b : BarAcc) (v : Word)
  /-- SELF_TEST_DONE (R324). -/
  | selfTestDone (c : CoreId) (x : SelfTest)
  /-- REPAIR_COMMIT (R326). -/
  | repairCommit
  /-- PIECE_ACCESS (R229). -/
  | pieceAccess (k : StackId) (e : Fin 128) (ch : Fin 32) (chk : PieceCheck)
  /-- PATROL_SCRUB (R238). -/
  | patrolScrub (k : StackId) (off : Nat) (chk : PieceCheck)
  /-- DIE_FAILURE (R240). -/
  | dieFailure (k : StackId) (die : Fin 17)
  /-- DIE_REBUILD_PIECE (R240). -/
  | dieRebuildPiece (k : StackId)
  /-- REBUILD_COMMIT (R328). -/
  | rebuildCommit (k : StackId)
  /-- ROW_REPAIR (R241). -/
  | rowRepair (k : StackId) (ch : Fin 32) (die : Fin 17) (bank row : Nat)
  /-- STACK_TEMP_UPDATE (R235). -/
  | stackTempUpdate (k : StackId) (t : Byte)
  /-- REFRESH_RATE_CHANGE (R235). -/
  | refreshRateChange (k : StackId)
  /-- MEM_TRIP_CLEAR (R236). -/
  | memTripClear (b : BarAcc) (k : StackId)
  /-- LOGIC_TEMP_UPDATE (R349). -/
  | logicTempUpdate (t : Byte) (hot : BitVec 5)
  /-- THERM_TRIP_CLEAR (R350). -/
  | thermTripClear (b : BarAcc)
  /-- SUPPLY_FAULT: a rail has been at a level, in mV, for 10 µs in succession (R352). -/
  | supplyFault (rail : RailLevel)
  /-- SUPPLY_STAT_CLEAR, with the levels of the rails in mV, in the order of `Rail` (R352). -/
  | supplyStatClear (b : BarAcc) (v : Word) (mv : Vector (BitVec 12) 7)
  /-- AVS_ACK (R379). -/
  | avsAck (mv : BitVec 12)
  /-- AVS_TIMEOUT (R379). -/
  | avsTimeout
  /-- REF_LOST (R347). -/
  | refLost
  /-- REF_PRESENT (R347). -/
  | refPresent
  /-- REF_RECOVER (R348). -/
  | refRecover (b : BarAcc)
  /-- CLK_REQ_GO (R346). -/
  | clkReqGo (b : BarAcc) (v : Word)
  /-- SLEEP_REQUEST (R339). -/
  | sleepRequest (b : BarAcc) (v : Word)
  /-- REGION_SLEEP (R339). -/
  | regionSleep (n : Fin 26) (quiet : Bool)
  /-- GOVERNOR_WINDOW (R343). -/
  | governorWindow
  /-- REGION_RUNNING (R343). -/
  | regionRunning (n : Fin 28)
  /-- RESET_N_RELEASE (R372). -/
  | resetNRelease (mgrSel : Bool) (wid : BitVec 4)
  /-- PWR_RESET_COLD (R354). -/
  | pwrResetCold (b : BarAcc) (v : Word)
  /-- PWR_RESET_WARM (R354). -/
  | pwrResetWarm (b : BarAcc) (v : Word)
  /-- FUNCTION_LEVEL_RESET (R247). -/
  | functionLevelReset
  /-- PERST_ASSERT (R354). -/
  | perstAssert
  /-- RESET_READY (R355). -/
  | resetReady
  /-- BOOT_IMAGE_CHECK (R359). -/
  | bootImageCheck
  /-- SVN_ADVANCE (R360). -/
  | svnAdvance (b : BarAcc)
  /-- IDE_ONLY_SET (R366). -/
  | ideOnlySet (b : BarAcc)
  /-- LIFECYCLE_REQUEST (R368). -/
  | lifecycleRequest (b : BarAcc) (v : Word)
  /-- AUX_CTL_WRITE (R375). -/
  | auxCtlWrite (b : BarAcc) (v : Word)
  /-- AUX_SYNC_EDGE (R374). -/
  | auxSyncEdge
  /-- WATON_WRITE (R299). -/
  | watonWrite (bytes : List Byte)
  /-- WATON_READ (R299). -/
  | watonRead (bytes : List Byte)
  /-- ENTDAA (R298). -/
  | entdaa (addr : BitVec 7)
  /-- RSTDAA (R298). -/
  | rstdaa
  /-- ENEC (R298). -/
  | enec (ev : Byte)
  /-- DISEC (R298). -/
  | disec (ev : Byte)
  /-- GETPID (R298). -/
  | getpid
  /-- GETBCR (R298). -/
  | getbcr
  /-- GETDCR (R298). -/
  | getdcr
  /-- GETSTATUS (R298). -/
  | getstatus
  /-- GETMXDS (R298). -/
  | getmxds
  /-- GET_VERSION (R363). -/
  | getVersion
  /-- GET_CAPABILITIES (R363). -/
  | getCapabilities
  /-- NEGOTIATE_ALGORITHMS (R363). -/
  | negotiateAlgorithms
  /-- GET_MEASUREMENTS (R364). -/
  | getMeasurements (index : Byte) (signed : Bool) (nonce : BitVec 256)
  /-- KEY_EXCHANGE (R364). -/
  | keyExchange (session : BitVec 16) (exchange : List Byte)
  /-- FINISH (R364). -/
  | spdmFinish (verify : List Byte)
  /-- HEARTBEAT (R363). -/
  | spdmHeartbeat
  /-- END_SESSION (R365). -/
  | endSession
  /-- IDE_KM_REQUEST (R365). -/
  | ideKmRequest (stream : Fin 4) (key : BitVec 256)
  /-- CONFIG_REQUEST (R247). -/
  | configRequest (write : Bool) (off : Nat) (v : BitVec 32)
  /-- PCIE_LINK_TRAIN (R246). -/
  | pcieLinkTrain (flitMode : Bool)
  /-- BYPASS (R383). -/
  | jtagBypass
  /-- IDCODE (R383). -/
  | jtagIdcode
  /-- SAMPLE_PRELOAD (R383). -/
  | samplePreload (pins shift : BitVec 17)
  /-- EXTEST (R383). -/
  | extest (pins shift : BitVec 17)
  /-- CLAMP (R383). -/
  | clamp
  /-- HIGHZ (R383). -/
  | highz
  /-- PORT_TRAIN (R290). -/
  | portTrain (p : PortId) (x : Training)
  /-- TRAIN_RETRY (R290). -/
  | trainRetry (p : PortId)
  /-- PORT_RETRAIN (R290). -/
  | portRetrain (b : BarAcc) (p : PortId)
  /-- LANE_FAILURE_WINDOW (R291). -/
  | laneFailureWindow (p : PortId) (counts : Vector Nat 9) (word : Nat)
  /-- LANE_SWITCH_REQUEST (R329). -/
  | laneSwitchRequest (p : PortId) (lane : Fin 9) (word : Nat)
  /-- LANE_SWITCH_ACCEPT (R329). -/
  | laneSwitchAccept (p : PortId) (word : Nat)
  /-- LINK_FLIT_RECEIVE (R293). -/
  | linkFlitReceive (p : PortId) (bytes : List Byte) (marked : Bool) (corrected : Nat)
  /-- NAK_REPLAY (R294). -/
  | nakReplay (p : PortId)
  /-- CREDIT_STOP_TIMEOUT (R295). -/
  | creditStopTimeout (p : PortId) (cls : Fin 4)
  /-- CONTROL_FLIT (R295). -/
  | controlFlit (p : PortId) (credits : Vector Nat 4) (mark : Bool)
  /-- TIME_EXCHANGE (R304). -/
  | timeExchange (p : PortId) (sent recv : Word) (peerSent peerRecv : Word)
  /-- PACKET_FORWARD (R297). -/
  | packetForward (p : PortId) (x : LinkPkt)
  /-- LINK_COMMAND_TAKE (R310). -/
  | linkCommandTake (c : LinkRead)
  /-- LINK_WRITE_PACKET (R311). -/
  | linkWritePacket (p : PortId) (x : LinkLanding) (final : Bool)
  /-- LINK_CONTRIBUTION_PACKET (R312). -/
  | linkContributionPacket (p : PortId) (x : LinkLanding) (i : ContribInfo)
  /-- CONTRIBUTION_ENTRY (R312). -/
  | contributionEntry (c : CoreId)
  /-- LINK_FLAG_PACKET (R313). -/
  | linkFlagPacket (p : PortId) (x : LinkPkt) (rcore : Fin 64) (f : Fin 8)
  /-- LINK_ACK_PACKET (R314). -/
  | linkAckPacket (x : LinkPkt)
  /-- PROGRESS_ACK_TIMER (R315). -/
  | progressAckTimer (c : CoreId)
  /-- ACK_TIMEOUT (R314). -/
  | ackTimeout (c : CoreId) (n : Nat)
  /-- HEARTBEAT_SEND (R319). -/
  | heartbeatSend
  /-- HEARTBEAT_PACKET (R319). -/
  | heartbeatPacket (src : BitVec 14)
  /-- HEARTBEAT_MISS (R319). -/
  | heartbeatMiss (peer : BitVec 14)
  /-- ENUMERATION_START (R300). -/
  | enumerationStart
  /-- ENUMERATION_PACKET (R301). -/
  | enumerationPacket (x : EnumPkt)
  /-- BARRIER_ARRIVE (R306). -/
  | barrierArrive (b : Fin 8) (child : Option PortId)
  /-- BARRIER_RELEASE (R306). -/
  | barrierRelease (b : Fin 8) (t : Word)
  /-- BARRIER_START_AT_T (R307). -/
  | barrierStartAtT (b : Fin 8)
  /-- FABRIC_PREPARED (R308). -/
  | fabricPrepared (g : Fin 16) (child : PrepReport)
  /-- FABRIC_ABORT (R308). -/
  | fabricAbort (g : Fin 16) (l : BitVec 16)
  /-- FABRIC_APPLY (R308). -/
  | fabricApply (g : Fin 16) (t : Word) (take : Bool)
  /-- CAPTURE_COMPLETE (R334). -/
  | captureComplete (chks : List (Nat × PieceCheck))
  /-- SNAPSHOT_SENT (R335). -/
  | snapshotSent (src : BitVec 14) (epoch : BitVec 32)
  /-- COMPLETE_EPOCH_ADVANCE (R333). -/
  | completeEpochAdvance (epoch : BitVec 32)
  /-- HALT (R337). -/
  | haltEpoch (epoch : BitVec 32) (lost : BitVec 14)
  /-- RESET_N_ASSERT (R372). -/
  | resetNAssert
  /-- POWER_REMOVED (R367). -/
  | powerRemoved
  /-- PCIE_LINK_DOWN (R246). -/
  | pcieLinkDown
  /-- SIGNAL_LOST (R291). -/
  | signalLost (p : PortId) (lanes : BitVec 9) (word : Nat)
  /-- LANE_SWITCH_RETRY (R329). -/
  | laneSwitchRetry (p : PortId) (word : Nat)
  /-- LANE_SWITCH_AT_COUNT (R329). -/
  | laneSwitchAtCount (p : PortId)
  deriving DecidableEq, Repr

end Sys2Proof
end

