-- ==== Sys2Proof/Decode.lean ====
section
/-! DEFINITION. The commands that the bits of a table word spell: no row of the command table gives bits. -/

namespace Sys2Proof

/-- The command that a word of `nbits` bits spells: none, since no row of the table gives its command bits. -/
def decodeTableWord (_nbits _w : Nat) : Option Instr := none

end Sys2Proof
end

