-- ==== Sys2Proof/Config.lean ====
section
/-! DEFINITION. What the spec leaves open: free values without a body, numbered by State.free where they are fresh at each use,
and what it names only by another standard. -/

namespace Sys2Proof

/-- A fresh half of the life-cycle nonce, drawn on the device (spec/17, Table 8; R368). Log entry 3. -/
opaque Config.nonce : Nat → BitVec 64

/-- A unique device seed drawn from the entropy source (R362). Log entry 3. -/
opaque Config.seed : Nat → BitVec 256

/-- A serial number fused at provisioning (R362). Log entry 3. -/
opaque Config.serial : Nat → BitVec 64

/-- The 64-byte digest fused in a vendor key slot, all zeros if the slot is unused (spec/17). Log entry 2. -/
opaque Config.keyDigest : Fin 4 → List (BitVec 8)

/-- The boot ROM contents, of which MEAS0 is the digest (R361). Log entry 4. -/
opaque Config.romBytes : List Byte

/-- The fuse map's bytes from the fields that spec/17, Table 2 names: their layout is not given (R361). Log entry 10. -/
opaque Config.fuseMap : List Byte → List Byte

/-- The levels of the monitored rails in mV at a draw, where the access that asks does not tell them (R352). Log entry 11. -/
opaque Config.railLevels : Nat → Vector (BitVec 12) 7

/-- Verification of an ML-DSA-87 signature of FIPS 204 with an empty context: key, message, signature (R358). Log entry 5. -/
opaque Config.mldsaVerify : List Byte → List Byte → List Byte → Bool

/-- The ML-DSA-87 public key of FIPS 204 that a 32-byte value gives (R362). Log entry 5. -/
opaque Config.mldsaPublic : List Byte → List Byte

/-- Which of several cores' faults of one tick reaches the Landing first, from the numbers of the faulting cores (R265, R277).
Log entry 21. -/
opaque Config.firstReported : List Nat → Nat

/-- Does a snapshot capture the old value of a byte that is written while it captures: draw and place (R334). Log entry 86. -/
opaque Config.captureOld : Nat → Nat → Bool

/-- A signature of the identity key that a 32-byte value gives, over a message, at a draw (R364). Log entry 5. -/
opaque Config.mldsaSign : List Byte → List Byte → Nat → List Byte

/-- The responder's ephemeral SECP_384_R1 value of a session, at a draw (R363). Log entry 5. -/
opaque Config.dheShare : Nat → List Byte

/-- Does the requester's verify data of FINISH hold for the exchange it sent (R363, R364). Log entry 5. -/
opaque Config.finishOk : List Byte → List Byte → Bool

/-- Ouvrad's 15-bit MIPI manufacturer identifier (R298). Log entry 6. -/
opaque Config.mipiId : BitVec 15

/-- Ouvrad's 11-bit JEDEC manufacturer code (R383). Log entry 6. -/
opaque Config.jedecId : BitVec 11

/-- The bytes that GETSTATUS returns; the spec names the request only (R298). Log entry 6. -/
opaque Config.wtnStatus : Nat → BitVec 16

/-- The bytes that GETMXDS returns; the spec names the request only (R298). Log entry 6. -/
opaque Config.wtnMaxSpeed : BitVec 16

/-- A configuration-space register as the device answers it (R245, R247). Log entry 6. -/
opaque Config.pcieConfig : Nat → Option (BitVec 32) → Bool → BitVec 32

end Sys2Proof
end

