-- ==== Sys2Proof/Machine/Bits.lean ====
section
/-! DEFINITION. Bit fields of registers, sign extension, saturating counts, byte order and the two CRCs of the spec. -/

namespace Sys2Proof.Machine

/-- Bits `[lo + w - 1 : lo]` of a number. -/
def fieldOf (x lo w : Nat) : Nat := x / 2 ^ lo % 2 ^ w

/-- One bit of a number. -/
def bitOf (x i : Nat) : Bool := x / 2 ^ i % 2 == 1

/-- A Bool as a one-bit field. -/
def bitNat (b : Bool) : Nat := if b then 1 else 0

/-- Pack a list of (low bit, value) fields into one register value. -/
def packFields (fs : List (Nat × Nat)) : Nat :=
  fs.foldl (fun acc f => acc + f.2 * 2 ^ f.1) 0

/-- The value a signed field of `w` bits holds. -/
def signedOf (x w : Nat) : Int :=
  let y := x % 2 ^ w
  if y < 2 ^ (w - 1) then (y : Int) else (y : Int) - (2 : Int) ^ w

/-- A counter of `w` bits that saturates at all ones. -/
def satAdd (w x n : Nat) : Nat := Nat.min (x + n) (2 ^ w - 1)

/-- The little-endian number a list of bytes holds (spec/00_scope.md: storage is little-endian). -/
def leNat : List Byte → Nat
  | [] => 0
  | b :: r => b.toNat + 256 * leNat r

/-- The `n` little-endian bytes of a number. -/
def leBytes : Nat → Nat → List Byte
  | 0, _ => []
  | n + 1, x => BitVec.ofNat 8 x :: leBytes n (x / 256)

/-- The parity of a number's low `n` bits: true when an odd number of them is set. -/
def parityOf : Nat → Nat → Bool
  | 0, _ => false
  | n + 1, x => xor (x % 2 == 1) (parityOf n (x / 2))

/-- How many of the low `n` bits are set. -/
def popCount : Nat → Nat → Nat
  | 0, _ => 0
  | n + 1, x => x % 2 + popCount n (x / 2)

/-- The set bits among the low `n`, as a list of bit numbers in increasing order. -/
def bitList (n x : Nat) : List Nat := (List.range n).filter (fun i => bitOf x i)

/-- Ceiling division. -/
def ceilDiv (a b : Nat) : Nat := (a + b - 1) / b

/-- Eight shift steps of a CRC register of `w` bits with the polynomial `poly`, most significant bit first. -/
def crcShift (w poly : Nat) : Nat → Nat → Nat
  | 0, c => c
  | n + 1, c =>
    let c' := c * 2 % 2 ^ w
    crcShift w poly n (if c / 2 ^ (w - 1) % 2 == 1 then Nat.xor c' poly else c')

/-- A CRC of `w` bits over bytes, each byte taken most significant bit first. -/
def crcBytes (w poly : Nat) (init : Nat) (bs : List Byte) : Nat :=
  bs.foldl (fun c b => crcShift w poly 8 (Nat.xor c (b.toNat * 2 ^ (w - 8)))) init

/-- The CRC-16 of a Flume flit: polynomial 0x1021, initial value 0xFFFF (R133). -/
def crc16 (bs : List Byte) : Nat := crcBytes 16 0x1021 0xFFFF bs

end Sys2Proof.Machine
end

