-- ==== Sys2Proof/Machine/Float.lean ====
section
/-! DEFINITION. The number formats of spec/03_number_formats.md: exact values, one rounding, conversion, block scaling and
WAF128 addition. -/

namespace Sys2Proof.Machine

/-- The element formats of Table 1 (R50). -/
inductive Elem where
  | fp32 | bf16 | fp16 | e4m3 | e5m2 | e3m2 | e2m3 | e2m1 | int8 | int4 | uint8 | waf128
  deriving DecidableEq, Repr

/-- A format: an element format and whether it is the block-scaled variant (R7). -/
structure Format where
  elem : Elem
  mx : Bool
  deriving DecidableEq, Repr

/-- The element format of a 4-bit code (R7, Table 6 of spec/00). -/
def elemOfCode : Nat → Option Elem
  | 0 => some .fp32 | 1 => some .bf16 | 2 => some .fp16 | 3 => some .e4m3 | 4 => some .e5m2
  | 5 => some .e3m2 | 6 => some .e2m3 | 7 => some .e2m1 | 8 => some .int8 | 9 => some .int4
  | 10 => some .uint8 | 13 => some .waf128 | _ => none

/-- The format of a 5-bit code; `none` is a reserved code (R7). -/
def formatOfCode (n : Nat) : Option Format :=
  match elemOfCode (n % 16) with
  | none => none
  | some e =>
    if n / 16 % 2 = 0 then some ⟨e, false⟩
    else if 3 ≤ n % 16 ∧ n % 16 ≤ 8 then some ⟨e, true⟩ else none

/-- The 4-bit code of an element format. -/
def elemCode : Elem → Nat
  | .fp32 => 0 | .bf16 => 1 | .fp16 => 2 | .e4m3 => 3 | .e5m2 => 4 | .e3m2 => 5 | .e2m3 => 6 | .e2m1 => 7
  | .int8 => 8 | .int4 => 9 | .uint8 => 10 | .waf128 => 13

/-- Bits of one element (Table 1). -/
def elemBits : Elem → Nat
  | .fp32 => 32 | .bf16 => 16 | .fp16 => 16 | .e4m3 => 8 | .e5m2 => 8 | .e3m2 => 6 | .e2m3 => 6 | .e2m1 => 4
  | .int8 => 8 | .int4 => 4 | .uint8 => 8 | .waf128 => 128

/-- Exponent bits, mantissa bits and bias of a float element (Table 1). -/
def floatShape : Elem → Option (Nat × Nat × Nat)
  | .fp32 => some (8, 23, 127) | .bf16 => some (8, 7, 127) | .fp16 => some (5, 10, 15) | .e4m3 => some (4, 3, 7)
  | .e5m2 => some (5, 2, 15) | .e3m2 => some (3, 2, 3) | .e2m3 => some (2, 3, 1) | .e2m1 => some (2, 1, 1)
  | _ => none

/-- The float class of array operands: codes 0x1 to 0x7 and 0x13 to 0x18 (R56). -/
def isFloatClass (f : Format) : Bool :=
  f.mx || (match f.elem with
    | .bf16 | .fp16 | .e4m3 | .e5m2 | .e3m2 | .e2m3 | .e2m1 => true
    | _ => false)

/-- The integer class of array operands: codes 0x8, 0x9 and 0xA (R56). -/
def isIntClass (f : Format) : Bool :=
  !f.mx && (match f.elem with
    | .int8 | .int4 | .uint8 => true
    | _ => false)

/-- An exact value: NaN, an infinity, or plus or minus `m * 2 ^ e`. -/
inductive Num where
  | nan
  | inf (neg : Bool)
  | fin (neg : Bool) (m : Nat) (e : Int)
  deriving DecidableEq, Repr

/-- How many bits a number takes: 0 for 0. -/
def bitLen (n : Nat) : Nat := if n = 0 then 0 else Nat.log2 n + 1

/-- `m * 2 ^ (e - q)` for `q ≤ e`. -/
def scaleUp (m : Nat) (d : Int) : Nat := m * 2 ^ d.toNat

/-- Round `m * 2 ^ e` to nearest even on the grid `2 ^ q`, as a count of grid steps. -/
def roundGrid (m : Nat) (e q : Int) : Nat :=
  if q ≤ e then scaleUp m (e - q)
  else
    let d := (q - e).toNat
    let n := m / 2 ^ d
    let r := m % 2 ^ d
    let half := 2 ^ (d - 1)
    if r > half ∨ (r = half ∧ n % 2 = 1) then n + 1 else n

/-- `m * 2 ^ e` rounded down on the grid `2 ^ q`, as a count of grid steps. -/
def floorGrid (m : Nat) (e q : Int) : Nat :=
  if q ≤ e then scaleUp m (e - q) else m / 2 ^ (q - e).toNat

/-- The grid of a float with `p` significant bits and smallest step `2 ^ qmin` at the value `m * 2 ^ e`. -/
def gridAt (p : Nat) (qmin : Int) (m : Nat) (e : Int) : Int :=
  max qmin (e + bitLen m - p)

/-- Compare `m1 * 2 ^ e1` with `m2 * 2 ^ e2`. -/
def magLt (m1 : Nat) (e1 : Int) (m2 : Nat) (e2 : Int) : Bool :=
  let e := min e1 e2
  decide (scaleUp m1 (e1 - e) < scaleUp m2 (e2 - e))

/-- The exact negation. -/
def numNeg : Num → Num
  | .nan => .nan
  | .inf s => .inf (!s)
  | .fin s m e => .fin (!s) m e

/-- The exact product; infinity times zero is NaN (R57, Table 3). -/
def numMul : Num → Num → Num
  | .nan, _ => .nan
  | _, .nan => .nan
  | .inf a, .inf b => .inf (xor a b)
  | .inf a, .fin b m _ => if m = 0 then .nan else .inf (xor a b)
  | .fin a m _, .inf b => if m = 0 then .nan else .inf (xor a b)
  | .fin a m e, .fin b n f => .fin (xor a b) (m * n) (e + f)

/-- The exact sum with the zero signs of round to nearest even: opposite signs that cancel give +0, and only -0 plus -0
gives -0 (Table 3 of spec/03). -/
def numAdd : Num → Num → Num
  | .nan, _ => .nan
  | _, .nan => .nan
  | .inf a, .inf b => if a = b then .inf a else .nan
  | .inf a, .fin _ _ _ => .inf a
  | .fin _ _ _, .inf b => .inf b
  | .fin a m e, .fin b n f =>
    let g := min e f
    let x : Nat := scaleUp m (e - g)
    let y : Nat := scaleUp n (f - g)
    if a = b then .fin a (x + y) g
    else if x = y then .fin false 0 g
    else if y < x then .fin a (x - y) g else .fin b (y - x) g

/-- Is this value zero. -/
def numIsZero : Num → Bool
  | .fin _ m _ => m == 0
  | _ => false

/-- Strictly less, on values that are not NaN. -/
def numLt : Num → Num → Bool
  | .nan, _ => false
  | _, .nan => false
  | .inf a, .inf b => a && !b
  | .inf a, .fin _ _ _ => a
  | .fin _ _ _, .inf b => !b
  | .fin a m e, .fin b n f =>
    match a, b with
    | false, false => magLt m e n f
    | true, true => magLt n f m e
    | true, false => !(m == 0 && n == 0)
    | false, true => false

/-- The exact value of an element's bits (R50, Table 2; integers as integers). -/
def elemValue (f : Elem) (bits : Nat) : Num :=
  match floatShape f with
  | some (eb, mb, bias) =>
    let s := bitOf bits (eb + mb)
    let ex := fieldOf bits mb eb
    let ma := fieldOf bits 0 mb
    let top := 2 ^ eb - 1
    let special : Option Num :=
      match f with
      | .fp32 | .bf16 | .fp16 | .e5m2 => if ex = top then some (if ma = 0 then .inf s else .nan) else none
      | .e4m3 => if ex = top ∧ ma = 2 ^ mb - 1 then some .nan else none
      | _ => none
    match special with
    | some v => v
    | none =>
      if ex = 0 then .fin s ma (1 - (bias : Int) - mb)
      else .fin s (2 ^ mb + ma) ((ex : Int) - bias - mb)
  | none =>
    let w := elemBits f
    let v : Int := if f = .uint8 then ((bits % 2 ^ w : Nat) : Int) else signedOf bits w
    .fin (decide (v < 0)) v.natAbs 0

/-- The value of an element of a format: the element's value, for MXINT8 times 2^-6 (R53, without the scale). -/
def formatValue (f : Format) (bits : Nat) : Num :=
  if f.mx && f.elem == .int8 then
    match elemValue .int8 bits with
    | .fin s m e => .fin s m (e - 6)
    | v => v
  else elemValue f.elem bits

/-- The E8M0 scale of a byte: 2^(X - 127), or NaN for 0xFF (R53). -/
def scaleValue (x : Nat) : Num := if x = 0xFF then .nan else .fin false 1 ((x : Int) - 127)

/-- A block-scaled element times its scale; a scale of 0xFF makes it NaN (R53). -/
def scaledValue (f : Format) (bits scale : Nat) : Num :=
  if f.mx then
    (if scale = 0xFF then .nan else numMul (formatValue f bits) (scaleValue scale))
  else formatValue f bits

/-- The generated NaN of a format (Table 2, R9); formats without a NaN have none. -/
def genNan : Elem → Nat
  | .fp32 => 0x7FC00000 | .bf16 => 0x7FC0 | .fp16 => 0x7E00 | .e4m3 => 0x7F | .e5m2 => 0x7E | _ => 0

/-- The largest finite magnitude of a float format, as `m * 2 ^ e` (Table 1). -/
def maxFinite : Elem → Nat × Int
  | .fp32 => (2 ^ 24 - 1, 104) | .bf16 => (2 ^ 8 - 1, 120) | .fp16 => (2047, 5) | .e4m3 => (14, 5)
  | .e5m2 => (7, 13) | .e3m2 => (7, 2) | .e2m3 => (15, -1) | .e2m1 => (3, 1)
  | _ => (0, 0)

/-- The significant bits and the smallest step of a float format. -/
def floatGrid (f : Elem) : Nat × Int :=
  match floatShape f with
  | some (_, mb, bias) => (mb + 1, 1 - (bias : Int) - mb)
  | none => (0, 0)

/-- The code of a finite magnitude `n * 2 ^ q` that the format holds exactly. -/
def encodeMag (f : Elem) (n : Nat) (q : Int) : Nat :=
  match floatShape f with
  | some (_, mb, bias) =>
    let qmin : Int := 1 - (bias : Int) - mb
    let lead : Int := q + bitLen n
    if n = 0 then 0
    else if lead - 1 < 1 - (bias : Int) then scaleUp n (q - qmin)
    else
      let sh := (lead - 1 - mb)
      let frac := if q ≥ sh then scaleUp n (q - sh) else n / 2 ^ (sh - q).toNat
      (lead - 1 + bias).toNat * 2 ^ mb + (frac - 2 ^ mb)
  | none => 0

/-- The sign bit of a float format. -/
def signBit (f : Elem) (s : Bool) : Nat := if s then 2 ^ (elemBits f - 1) else 0

/-- Where the conversion's rounding comes from: round to nearest even, or stochastic rounding by the draw
`u = Z[23:0]` (R77). -/
inductive Rounding where
  | rne
  | sr (u : Nat)
  deriving DecidableEq, Repr

/-- What a conversion adds to NUM_STAT. -/
structure CvtCount where
  sat : Nat
  nanZero : Nat
  deriving DecidableEq, Repr

/-- No count. -/
def cvtNone : CvtCount := ⟨0, 0⟩

/-- The sum of two counts. -/
def cvtPlus (a b : CvtCount) : CvtCount := ⟨a.sat + b.sat, a.nanZero + b.nanZero⟩

/-- The magnitude `m * 2 ^ e` in grid steps of a float with `p` bits and least step `qmin`, by the rounding asked for
(R61, R77): the steps and the grid. -/
def roundMag (p : Nat) (qmin : Int) (rd : Rounding) (m : Nat) (e : Int) : Nat × Int :=
  let q := gridAt p qmin m e
  match rd with
  | .rne => (roundGrid m e q, q)
  | .sr u =>
    let a := floorGrid m e q
    if q ≤ e then (a, q)
    else
      let d := (q - e).toNat
      let f := (m % 2 ^ d) * 2 ^ 24 / 2 ^ d
      (if f + u ≥ 2 ^ 24 then a + 1 else a, q)

/-- Overflow of a float conversion (R62): under round to nearest even by the rounded magnitude, under stochastic rounding
by the value itself. -/
def cvtOverflows (f : Elem) (rd : Rounding) (m : Nat) (e : Int) (n : Nat) (q : Int) : Bool :=
  let (mm, me) := maxFinite f
  match rd with
  | .rne => magLt mm me n q
  | .sr _ => magLt mm me m e

/-- Round to a float format and encode (R61, R62, Table 4); `ovf` is NUM_CTL.CVT_OVF. -/
def cvtFloat (f : Elem) (ovf : Bool) (rd : Rounding) (x : Num) : Nat × CvtCount :=
  let overflow (s : Bool) : Nat × CvtCount :=
    match f with
    | .fp32 => (signBit f s + 0x7F800000, cvtNone)
    | .bf16 => (signBit f s + 0x7F80, cvtNone)
    | .fp16 => (signBit f s + 0x7C00, cvtNone)
    | .e5m2 => (signBit f s + 0x7C, cvtNone)
    | .e4m3 => if ovf then (0x7F, cvtNone) else (signBit f s + 0x7E, ⟨1, 0⟩)
    | _ => (signBit f s + encodeMag f (maxFinite f).1 (maxFinite f).2, ⟨1, 0⟩)
  match x with
  | .nan =>
    match f with
    | .e3m2 | .e2m3 | .e2m1 => (0, ⟨0, 1⟩)
    | _ => (genNan f, cvtNone)
  | .inf s => overflow s
  | .fin s m e =>
    let (p, qmin) := floatGrid f
    let (n, q) := roundMag p qmin rd m e
    if cvtOverflows f rd m e n q then overflow s
    else (signBit f s + encodeMag f n q, cvtNone)

/-- Round to an integer format (Table 4): out of range gives the nearer bound, counted. -/
def cvtInt (f : Elem) (x : Num) : Nat × CvtCount :=
  let (lo, hi) : Int × Int :=
    match f with
    | .int8 => (-128, 127)
    | .int4 => (-8, 7)
    | _ => (0, 255)
  let w := elemBits f
  let enc (v : Int) : Nat := (v % (2 : Int) ^ w).toNat
  match x with
  | .nan => (0, ⟨0, 1⟩)
  | .inf s => (enc (if s then lo else hi), ⟨1, 0⟩)
  | .fin s m e =>
    let n : Int := roundGrid m e 0
    let v := if s then -n else n
    if v < lo then (enc lo, ⟨1, 0⟩) else if hi < v then (enc hi, ⟨1, 0⟩) else (enc v, cvtNone)

/-- Conversion of an exact FP32 value into an element format without block scales (R61, Table 4). WAF128 is no
destination of it. -/
def cvtElem (f : Elem) (ovf : Bool) (rd : Rounding) (x : Num) : Nat × CvtCount :=
  match f with
  | .int8 | .int4 | .uint8 => cvtInt f x
  | .waf128 => (0, cvtNone)
  | _ => cvtFloat f ovf rd x

/-- One rounding to FP32 by round to nearest even (R58). -/
def toFp32 (x : Num) : Nat := (cvtFloat .fp32 false .rne x).1

/-- The exact value of FP32 bits. -/
def fp32 (b : Nat) : Num := elemValue .fp32 b

/-- emax of a block-scaled element format (R64). -/
def mxEmax : Elem → Int
  | .e4m3 => 8 | .e5m2 => 15 | .e3m2 => 4 | .e2m3 => 2 | .e2m1 => 2 | _ => 0

/-- One element of a block-scaled quantisation: `x * 2 ^ -e` rounded as asked for and saturated (R64 step 4). -/
def mxElem (f : Elem) (rd : Rounding) (e : Int) (x : Num) : Nat × CvtCount :=
  match x with
  | .fin s m ex =>
    let ex' := ex - e
    if f = .int8 then
      let (n, q) :=
        match rd with
        | .rne => (roundGrid m ex' (-6), (-6 : Int))
        | .sr u =>
          let a := floorGrid m ex' (-6)
          if (-6 : Int) ≤ ex' then (a, -6)
          else
            let d := (-6 - ex').toNat
            (if (m % 2 ^ d) * 2 ^ 24 / 2 ^ d + u ≥ 2 ^ 24 then a + 1 else a, -6)
      let _ := q
      let lim := if s then 128 else 127
      if lim < n then ((if s then 256 - 128 else 127), ⟨1, 0⟩)
      else ((if s then (256 - n) % 256 else n), cvtNone)
    else
      let (p, qmin) := floatGrid f
      let (n, q) := roundMag p qmin rd m ex'
      let (mm, me) := maxFinite f
      if magLt mm me n q then (signBit f s + encodeMag f mm me, ⟨1, 0⟩)
      else if (match rd with | .rne => false | .sr _ => magLt mm me m ex') then
        (signBit f s + encodeMag f mm me, ⟨1, 0⟩)
      else (signBit f s + encodeMag f n q, cvtNone)
  | _ => (0, cvtNone)

/-- The exponent of the leading bit of `m * 2 ^ e`. -/
def leadExp (m : Nat) (e : Int) : Int := e + bitLen m - 1

/-- Block-scaled quantisation of the values of one block (R64): the scale byte, the elements and what it counts. -/
def mxQuantise (f : Elem) (rds : List Rounding) (xs : List Num) : Nat × List Nat × CvtCount :=
  let bad := xs.any (fun x => match x with | .fin _ _ _ => false | _ => true)
  if bad then (0xFF, xs.map (fun _ => 0), cvtNone)
  else if xs.all numIsZero then (0, xs.map (fun _ => 0), cvtNone)
  else
    let top : Int := xs.foldl (fun a x =>
      match x with
      | .fin _ m e => if m = 0 then a else max a (leadExp m e)
      | _ => a) (-1000)
    let e := max (-127) (min 127 (top - mxEmax f))
    let rs := (xs.zip rds).map (fun p => mxElem f p.2 e p.1)
    ((e + 127).toNat, rs.map (fun r => r.1), rs.foldl (fun c r => cvtPlus c r.2) cvtNone)

/-- A WAF128 addend of a float value under anchor `a` (R68): the integer, whether it saturated, whether it was NaN. -/
def wafAddend (a : Int) (x : Num) : Int × Bool × Bool :=
  match x with
  | .nan => (0, false, true)
  | .inf s => ((if s then -(2 ^ 95 : Int) else 2 ^ 95), true, false)
  | .fin s m e =>
    if magLt m e 1 a then
      let n : Int := roundGrid m e (a - 95)
      ((if s then -n else n), false, false)
    else ((if s then -(2 ^ 95 : Int) else 2 ^ 95), true, false)

/-- The exact value of a WAF128 element: N * 2^(A - 95) (R67). -/
def wafValue (a : Int) (n : BitVec 128) : Num :=
  .fin (decide (n.toInt < 0)) n.toInt.natAbs (a - 95)

/-- Conversion out of WAF128 into FP32 or BF16 (R72); `nan` is the tile's NaN flag. -/
def wafConvert (f : Elem) (a : Int) (nan : Bool) (n : BitVec 128) : Nat :=
  if nan then genNan f else if n = 0 then 0 else (cvtFloat f false .rne (wafValue a n)).1

/-- Bytes of a row of `n` elements packed as R52 says. -/
def rowBytes (f : Elem) (n : Nat) : Nat := n * elemBits f / 8

/-- The bits of element `i` of a row whose bytes are read by `get` (R52). -/
def rowElem (f : Elem) (get : Nat → Byte) (i : Nat) : Nat :=
  let w := elemBits f
  let b := i * w
  let n := (b % 8 + w + 7) / 8
  let x := (List.range n).foldr (fun k acc => (get (b / 8 + k)).toNat + 256 * acc) 0
  fieldOf x (b % 8) w

/-- The bytes of a row of packed elements (R52). -/
def packRow (f : Elem) (xs : List Nat) : List Byte :=
  let w := elemBits f
  let x := xs.foldr (fun e acc => e % 2 ^ w + 2 ^ w * acc) 0
  leBytes (rowBytes f xs.length) x

end Sys2Proof.Machine
end

