-- ==== Sys2Proof/Machine/Cells.lean ====
section
/-! DEFINITION. Sparse maps from an index to a value in one canonical form: indices strictly rising, no entry equal to the
value an unlisted index reads as. DRAM, local stores, tiles and every other byte memory are such maps of bytes. -/

namespace Sys2Proof.Machine

/-- The value at index `a`: `d` where the map lists none. -/
def cellGet {β : Type} (d : β) : List (Nat × β) → Nat → β
  | [], _ => d
  | (k, v) :: r, a => if a = k then v else cellGet d r a

/-- The map with index `a` set to `v`, in canonical form if the map was. -/
def cellSet {β : Type} [DecidableEq β] (d : β) : List (Nat × β) → Nat → β → List (Nat × β)
  | [], a, v => if v = d then [] else [(a, v)]
  | (k, w) :: r, a, v =>
    if a < k then (if v = d then (k, w) :: r else (a, v) :: (k, w) :: r)
    else if a = k then (if v = d then r else (k, v) :: r)
    else (k, w) :: cellSet d r a v

/-- Every listed index is above `lo` and the indices rise strictly. -/
def cellRising {β : Type} : Nat → List (Nat × β) → Bool
  | _, [] => true
  | lo, (k, _) :: r => decide (lo < k) && cellRising k r

/-- The canonical form: indices strictly rising, and no entry equal to the value `d` of an unlisted index. -/
def cellWf {β : Type} [DecidableEq β] (d : β) (m : List (Nat × β)) : Bool :=
  (match m with
    | [] => true
    | (k, _) :: r => cellRising k r) && m.all (fun e => decide (e.2 ≠ d))

/-- Bytes written one after another from address `a`. -/
def cellSetList {β : Type} [DecidableEq β] (d : β) : List (Nat × β) → Nat → List β → List (Nat × β)
  | m, _, [] => m
  | m, a, v :: r => cellSetList d (cellSet d m a v) (a + 1) r

/-- `n` values from address `a` on. -/
def cellGetList {β : Type} (d : β) (m : List (Nat × β)) (a n : Nat) : List β :=
  (List.range n).map (fun i => cellGet d m (a + i))

/-- The map with every index of `[a, a + n)` back at the default. -/
def cellClear {β : Type} (m : List (Nat × β)) (a n : Nat) : List (Nat × β) :=
  m.filter (fun e => decide (e.1 < a ∨ a + n ≤ e.1))

/-- A vector with every element changed. -/
def vmap {α β : Type} {n : Nat} (f : α → β) (v : Vector α n) : Vector β n := Vector.ofFn (fun i => f (v.get i))

/-- A byte memory. An unlisted byte reads 0: the spec zeroes DRAM in the wipe of a cold reset (R244) and every on-die
memory in cold reset step 5 (R355). -/
abbrev ByteMem := List Host.Cell

/-- One byte of a byte memory. -/
def memGet (m : ByteMem) (a : Nat) : Byte := cellGet 0#8 m a

/-- A byte memory with one byte written. -/
def memSet (m : ByteMem) (a : Nat) (v : Byte) : ByteMem := cellSet 0#8 m a v

/-- `n` bytes of a byte memory from address `a`. -/
def memRead (m : ByteMem) (a n : Nat) : List Byte := cellGetList 0#8 m a n

/-- A byte memory with the bytes `bs` written from address `a`. -/
def memWrite (m : ByteMem) (a : Nat) (bs : List Byte) : ByteMem := cellSetList 0#8 m a bs

/-- The canonical form of a byte memory. -/
def memWf (m : ByteMem) : Bool := cellWf 0#8 m

/-- A little-endian number of `n` bytes at address `a`. -/
def memNat (m : ByteMem) (a n : Nat) : Nat :=
  (List.range n).foldr (fun i acc => (memGet m (a + i)).toNat + 256 * acc) 0

/-- An array of like elements of which most hold one common value: `fill`, except where `cells` lists another. -/
structure Store (β : Type) where
  fill : β
  cells : List (Nat × β)
  deriving DecidableEq, Repr

/-- A store that holds `v` everywhere. -/
def storeOf {β : Type} (v : β) : Store β := ⟨v, []⟩

/-- One element of a store. -/
def storeGet {β : Type} (m : Store β) (i : Nat) : β := cellGet m.fill m.cells i

/-- A store with one element written. -/
def storeSet {β : Type} [DecidableEq β] (m : Store β) (i : Nat) (v : β) : Store β :=
  { m with cells := cellSet m.fill m.cells i v }

/-- The canonical form of a store. -/
def storeWf {β : Type} [DecidableEq β] (m : Store β) : Bool := cellWf m.fill m.cells

end Sys2Proof.Machine
end

