-- ==== Sys2Proof/Machine/CoreState.lean ====
section
/-! DEFINITION. The state of a compute region and of a core: sequencer, tile registers, arrays, matrix-vector unit, vector
engine, wide tiles, Skidder and stream queues, channel endpoints and combining queues, and the operations in flight
(spec/02, 04 to 10, 13, 14). -/

namespace Sys2Proof.Machine

/-- An entry of the job table (R259). -/
abbrev JobId := Fin 65536

/-- The status codes of Table 5 of spec/00 (R6). -/
inductive Status where
  | ok | engineAbsent | badOpcode | badParam | shapeMismatch | tileEmpty | tileConfig | queueOverrun | queueUnderrun
  | creditStall | flagTimeout | channelClosed | bounds | length | windowOverflow | latencyProfile | eccUncorrected
  | checksumMismatch | linkDown | peerLost | capacityReduced | refLost | thermalTrip | supplyFault | commitAborted
  | resourceConflict | signatureInvalid | lifecycleDenied | cancelled
  deriving DecidableEq, Repr

/-- A fault that fences a job, with what its fence record holds (R265; spec/12, Tables 10 and 11). -/
structure FaultInfo where
  status : Status
  pcore : Option CoreId
  region : Byte
  detail0 : BitVec 32
  detail1 : BitVec 32
  deriving DecidableEq, Repr

/-- A fault that reaches a core's sequencer in the current tick, with its rank under R281. -/
structure FaultRec where
  core : CoreId
  rank : Nat
  info : FaultInfo
  deriving DecidableEq, Repr

/-- An unmet condition under R32: its cause and queue index (spec/02, Table 8), the core whose bundle or operation waits,
and the details the watchdog records for it (R36, R219). -/
structure HoldCond where
  cause : BitVec 2
  queue : BitVec 6
  core : Option CoreId
  detail0 : BitVec 32
  detail1 : BitVec 32
  /-- The queue of a SARM that waits for its apply (R204). -/
  arm : Option (Fin 16)
  deriving DecidableEq, Repr

/-- A hold event in progress: the condition that started it, the periods held so far and the consecutive periods held with
a crossing cause unmet (R36 to R38). -/
structure HoldRun where
  cause : BitVec 2
  queue : BitVec 6
  core : BitVec 2
  tick : BitVec 32
  periods : Nat
  crossing : Nat
  deriving DecidableEq, Repr

/-- A flit: 2,048 bytes of payload with the sideband of spec/06, Table 1 (R133), and whether it has been written into the
region's outbound crossing in this tick (R134). -/
structure Flit where
  payload : List Byte
  ttl : BitVec 7
  tag : Byte
  crc : BitVec 16
  exited : Bool
  deriving DecidableEq, Repr

/-- TALLY_HOLD_LAST (spec/02, Table 8). -/
structure TallyLast where
  cause : BitVec 2
  queue : BitVec 6
  core : BitVec 2
  tick : BitVec 32
  periods : BitVec 16
  deriving DecidableEq, Repr

/-- A configuration record (R92): header fields and the writes of its groups in record order (offset, value). -/
structure CfgRecord where
  tag : BitVec 16
  entry : BitVec 12
  final : Bool
  writes : List (Nat × Word)
  deriving DecidableEq, Repr

/-- A message of a management crossing towards a region: a member core's first START, or a record for its run-ahead queue
(R13, R27, R95, R263). -/
inductive MgtMsg where
  | start (c : CoreId)
  | record (c : CoreId) (r : CfgRecord)
  deriving DecidableEq, Repr

/-- A message of a management crossing towards MGT: a core's report that its part of a job is complete (R96, R264). -/
structure Report where
  core : CoreId
  job : JobId
  deriving DecidableEq, Repr

/-- A message of a source lane: the endpoint it goes to, and the region whose outbound crossing buffer it stands in (R210). -/
structure LaneItem where
  core : CoreId
  ep : Fin 32
  at_ : RegionId
  deriving DecidableEq, Repr

/-- A compute region CGk (spec/02, 06 Table 11, 13 Table 6). -/
structure Region where
  lockstep : Bool
  guard : BitVec 3
  lsActive : Bool
  switching : Bool
  freqIdx : BitVec 4
  stretch : BitVec 32
  forced : BitVec 16
  tick : Word
  periods : Word
  tallyEvents : Word
  tallyTicks : Word
  tallyLast : TallyLast
  holdwd : BitVec 32
  hold : Option HoldRun
  waits : List HoldCond
  /-- Slot commands issued on their own that wait with the hold. -/
  heldOps : List Instr
  faults : List FaultRec
  stopEn : Bool
  stopFired : Bool
  stopJob : BitVec 16
  stopAt : Word
  flmxCrc : Bool
  /-- Flume crossing queues into this region (R134, R135): from the previous region in each direction. -/
  inCw : List Flit
  inCcw : List Flit
  /-- Messages in the crossing buffers of this region's source lanes, oldest first (R210). -/
  laneCw : List LaneItem
  laneCcw : List LaneItem
  /-- The management crossings into the region and out of it (R13, R27). -/
  mgtIn : List MgtMsg
  mgtOut : List Report
  deriving DecidableEq, Repr

/-- A tile's configuration, TCFGn (spec/04, Table 8). -/
structure TileCfg where
  rows : BitVec 8
  rowb : BitVec 5
  fmt : BitVec 5
  axis : Bool
  deriving DecidableEq, Repr

/-- A tile register: configuration, empty bit, element bytes, scale plane and start-row register (spec/04, Tables 8, 9). -/
structure Tile where
  cfg : TileCfg
  empty : Bool
  data : ByteMem
  scales : List (Nat × Byte)
  nextRow : BitVec 8
  pending : Bool
  deriving DecidableEq, Repr

/-- SEQ_LCn (spec/04, Table 7). -/
structure LoopCtr where
  iter : BitVec 24
  count : BitVec 24
  active : Bool
  deriving DecidableEq, Repr

/-- SEQ_JTABj and SEQ_JTABXj (spec/04, Table 5). -/
structure Junction where
  join : BitVec 12
  nvar : BitVec 4
  vars : Vector (BitVec 12) 8
  deriving DecidableEq, Repr

/-- A repeat in progress: its counter and the first and last bundle of its body (R86). -/
structure Repeat where
  lc : Fin 8
  first : BitVec 12
  last : BitVec 12
  deriving DecidableEq, Repr

/-- What follows a junction's shadow: a variant's entry (R88), or a repeat body of the length and count taken (R89). -/
inductive AfterShadow where
  | variant (entry : BitVec 12)
  | trip (lc : Fin 8) (bodyLen : Nat) (count : BitVec 24)
  deriving DecidableEq, Repr

/-- SEQ_STAT.STATE (spec/04, Table 7). -/
inductive CoreRun where
  | idle | running | stopped | fenced
  deriving DecidableEq, Repr

/-- The sequencer of a core (spec/04). -/
structure Seq where
  run : CoreRun
  job : Option JobId
  tag : BitVec 16
  /-- Records waiting in the run-ahead queue, oldest first (R95). -/
  runq : List CfgRecord
  lastBundle : BitVec 12
  ltick : BitVec 32
  starve : Word
  jtick : Word
  /-- The bundle due next, and whether a layer issues bundles. -/
  pc : BitVec 12
  layerOn : Bool
  /-- The entry bundle that issues at layer tick 8 (R91). -/
  entry : BitVec 12
  entryDue : Bool
  /-- Bundles still to issue after a NEXT (R91). -/
  trailing : Nat
  /-- A NEXT has issued and the next record's START is awaited; the tick from which it may take effect (R91, R95). -/
  awaiting : Bool
  startDue : Option Word
  afterNext : Bool
  /-- The next START is the job's first on the core (R261, R282). -/
  firstStart : Bool
  /-- A START has taken effect in the tick in progress, and whether it was the job's first; a control instruction has set
  the next bundle. -/
  fresh : Bool
  jfresh : Bool
  moved : Bool
  finalLayer : Bool
  finishing : Bool
  repeats : List Repeat
  shadow : Option (Nat × AfterShadow)
  /-- The tick at which a stop took effect on the core (R284). -/
  stoppedAt : Word
  loops : Vector LoopCtr 8
  juncs : Vector Junction 8
  latprof : BitVec 3
  scalars : Vector Word 64
  /-- The schedule store: bundle b at index b; a bundle not listed is all zero. -/
  store : List (Nat × BitVec 256)
  deriving DecidableEq, Repr

/-- ARR_CKCTL (spec/05, Table 8). -/
structure CkCtl where
  enW : Bool
  enN : Bool
  tol : BitVec 5
  deriving DecidableEq, Repr

/-- VEC_RNGCTXc (spec/07, Table 5). -/
structure RngCtx where
  stream : BitVec 24
  idx : Fin 64
  deriving DecidableEq, Repr

/-- The registers whose value in force is the one a layer's START found (R65, R76, R94; spec/05 and 07: take effect at
START). -/
structure LayerCfg where
  cvtOvf : Bool
  seed : BitVec 128
  step : BitVec 40
  ckctl : Vector CkCtl 4
  wfmt : BitVec 5
  rngctx : Vector RngCtx 4
  sclBase : BitVec 15
  sclCount : BitVec 11
  sclEmin : BitVec 8
  deriving DecidableEq, Repr

/-- What a weight storage holds: nothing, dense weights, or 2:4 or 2:8 sparse weights (spec/05, Table 7). -/
inductive WKind where
  | empty | dense | s24 | s28
  deriving DecidableEq, Repr

/-- The form of a weight load, which travels with what it writes into the shadow: kind, format, load axis, extents and the axis
of its block scales (R107, R114). -/
structure WForm where
  kind : WKind
  fmt : BitVec 5
  axisCols : Bool
  k : Nat
  n : Nat
  scaleAxis : Bool
  deriving DecidableEq, Repr

/-- Active or shadow weights of an array (R106, R107, R114, R119): the form of the load, the bits of the cells (cell row times
128 plus cell column, times two, plus the slot), block scales by their place in the scale plane of the stacked operand,
metadata bytes (group times 256 plus output line) and the checksum line of each edge by reduction index (R124). -/
structure Weights where
  kind : WKind
  fmt : BitVec 5
  axisCols : Bool
  k : Nat
  n : Nat
  cells : List (Nat × BitVec 16)
  scales : List (Nat × Byte)
  mbytes : List (Nat × Byte)
  scaleAxis : Bool
  ckWest : List (Nat × Int)
  ckNorth : List (Nat × Int)
  deriving DecidableEq, Repr

/-- An accumulator element and the class of the operation that last wrote it (R117). -/
structure AccElem where
  bits : BitVec 32
  int : Bool
  deriving DecidableEq, Repr

/-- A checksum entry of an accumulator row: FP32 bits or an exact integer, and whether an update of the row saturated
(R124, R125). -/
structure CkEntry where
  bits : BitVec 32
  val : Int
  sat : Bool
  deriving DecidableEq, Repr

/-- An accumulator bank: its class, its elements (row times 128 plus column; 512 lanes a row in MV0 and MV1) and its
checksum vector. -/
structure AccBank where
  int : Bool
  elems : Store AccElem
  ck : List (Nat × CkEntry)
  deriving DecidableEq, Repr

/-- A line map entry: the physical line of a logical line (R121); FEED and DRAIN follow from it. -/
structure LineMap where
  badA : Byte
  badB : Byte
  deriving DecidableEq, Repr

/-- An operand row inside an array: where its results go, its exact operand values, the weights it meets, and the next
output line to be read from the bank (R110, R114). -/
structure ArrRow where
  issued : Nat
  t : Nat
  bank : Bool
  row : Nat
  clr : Bool
  int : Bool
  north : Bool
  outs : Nat
  next : Nat
  x : List (Nat × Nat)
  xfmt : BitVec 5
  w : Weights
  chk : Option (BitVec 5)
  prof : BitVec 3
  deriving DecidableEq, Repr

/-- An array (spec/05). -/
structure Arr where
  fill : Bool
  active : Weights
  shadow : Weights
  acc0 : AccBank
  acc1 : AccBank
  feedUntil : Nat
  rowsIn : List ArrRow
  ckChecked : BitVec 32
  ckRow : BitVec 7
  ckBank : Bool
  ckMismatch : Bool
  rowMap : LineMap
  colMap : LineMap
  deriving DecidableEq, Repr

/-- The matrix-vector unit (R127 to R129). -/
structure Mvu where
  feedUntil : Nat
  bufFmt : BitVec 5
  buf : List (Nat × BitVec 32)
  bufScales : List (Nat × Byte)
  bank0 : AccBank
  bank1 : AccBank
  /-- The banks with the updates still on their way, from which the next line continues (R128, R129). -/
  work0 : AccBank
  work1 : AccBank
  /-- The scale line in use and the block-scaled weight lines taken since the last MVM that cleared (R127). -/
  scaleLine : List (Nat × Byte)
  scaleCount : Nat
  skip : Word
  deriving DecidableEq, Repr

/-- A row of a softmax context (R161). -/
structure SxRow where
  m : BitVec 32
  l : BitVec 32
  alpha : BitVec 32
  k : Nat
  nan : Bool
  deriving DecidableEq, Repr

/-- A Scaler record being formed (R165, R166). -/
structure SclRec where
  absmax : BitVec 32
  zeros : Nat
  nans : Nat
  infs : Nat
  elements : Nat
  /-- Counts by the exponent of the leading bit, plus 2048. -/
  exps : List (Nat × Nat)
  lastWrite : Nat
  deriving DecidableEq, Repr

/-- A closed Scaler record waiting to be written at its tick (R165). -/
structure SclClosed where
  body : SclRec
  tag : BitVec 16
  emin : BitVec 8
  due : Nat
  deriving DecidableEq, Repr

/-- The vector engine and the Scaler (spec/07). -/
structure Vec where
  regs : Vector (List (Nat × BitVec 32)) 8
  pipeUntil : Nat
  opcode : Byte
  sx0 : Store SxRow
  sx1 : Store SxRow
  sxflag0 : List (Nat × BitVec 2)
  sxflag1 : List (Nat × BitVec 2)
  sclCur : BitVec 11
  sclWraps : BitVec 32
  sclRec : SclRec
  sclClosed : List SclClosed
  deriving DecidableEq, Repr

/-- A wide tile (R171): mode, anchor, flags, additions and elements (row times 128 plus column). -/
structure WideTile where
  mode : Bool
  anchor : BitVec 10
  nan : Bool
  ovf : Bool
  adds : BitVec 32
  elems : List (Nat × BitVec 128)
  deriving DecidableEq, Repr

/-- A window of a window set (R257): base, size in bytes, access. -/
structure Window where
  base : Nat
  size : Nat
  read : Bool
  write : Bool
  deriving DecidableEq, Repr

/-- A descriptor as its 32 bytes give it (spec/09, Table 1). -/
structure Desc where
  word0 : Word
  word1 : Word
  word2 : Word
  word3 : Word
  deriving DecidableEq, Repr

/-- A released descriptor that has not started: its ring index, or the words a combining queue released it with, and the
base captured at release (R187, R222). -/
structure RelDesc where
  index : Nat
  words : Option Desc
  base : BitVec 48
  seqNo : Nat
  /-- The tick from which the Skidder may start it (R187). -/
  avail : Nat
  deriving DecidableEq, Repr

/-- A started descriptor: what it is, how far it has issued and landed, the handle it took, and the gather's index values
taken (R188 to R192, R200). -/
structure ActDesc where
  index : Nat
  desc : Desc
  base : BitVec 48
  seqNo : Nat
  startPeriod : Word
  handle : Option Word
  handleTaken : Bool
  /-- Bytes issued so far in the order in which the memory holds them, and bytes landed or accepted so far. -/
  issued : Nat
  landed : Nat
  /-- The count of a counted index list, once it has landed (R191). -/
  count : Option Nat
  /-- Index value taken for the current item of a gather, and items taken so far. -/
  item : Option (BitVec 32)
  itemsTaken : Nat
  /-- First entry of the queue that the descriptor fills, counted since the queue was reset. -/
  firstEntry : Nat
  boutDone : Bool
  /-- Period in which the last byte landed or was read, for the push into BOUT (R200). -/
  donePeriod : Option Word
  deriving DecidableEq, Repr

/-- A gather paired or waiting to be paired with an index list (R192, R193). -/
structure GatherPair where
  gather : Nat
  idxq : Fin 16
  list : Option Nat
  pairPeriod : Word
  deriving DecidableEq, Repr

/-- An index list whose count may be known (R191, R193). -/
structure ListCount where
  list : Nat
  paired : Bool
  count : Option (BitVec 32)
  knownPeriod : Word
  deriving DecidableEq, Repr

/-- An entry of a read queue: its bytes still to land, the period its last byte landed in, and its descriptor's tag. -/
structure QEntry where
  missing : Nat
  landPeriod : Word
  tag : BitVec 16
  deriving DecidableEq, Repr

/-- An outstanding transfer (R188, R189): its descriptor's number, whether it writes, whether it lies in the local store,
its ranges (address, length) in the order in which its bytes move, the place of each byte in the delivered stream, its bytes
by place, the pieces of memory it is made of and those served so far. -/
structure Xfer where
  id : Nat
  desc : Nat
  write : Bool
  inStore : Bool
  ranges : List (Nat × Nat)
  offs : List (Option Nat)
  len : Nat
  data : List (Nat × Byte)
  pieces : Nat
  served : Nat
  /-- The queue was reset while it was outstanding: its return is discarded on arrival (R203). -/
  dropped : Bool
  deriving DecidableEq, Repr

/-- A stream queue (spec/09): registers, released and started descriptors, entries, outstanding transfers. -/
structure StreamQ where
  esize : BitVec 9
  qbase : BitVec 18
  limit : BitVec 12
  write : Bool
  persist : Bool
  lbase : BitVec 18
  llen : BitVec 18
  base : BitVec 48
  next : BitVec 48
  staged : Bool
  released : BitVec 24
  started : BitVec 24
  rel : List RelDesc
  act : List ActDesc
  lastStart : Option Word
  /-- Descriptors released before the previous SARM that have not started: those with a number below this (R204). -/
  armMark : Nat
  /-- Entries of a read queue from the head, the slot of the head, and bytes of the head already taken (R182). -/
  entries : List QEntry
  headSlot : Nat
  headCount : Nat
  taken : Nat
  /-- A write queue: byte position of the first byte not yet issued and of the next byte to be written, since reset. -/
  wHead : Nat
  wTail : Nat
  /-- Bytes written by SPUT and bytes accepted by the memory side, since reset (R198). -/
  accepted : Nat
  xfers : List Xfer
  xferId : Nat
  cblocked : Bool
  cperiods : Nat
  pairs : List GatherPair
  lists : List ListCount
  /-- Gathers released to the queue and not yet taken by a JTRIP (R193). -/
  tripsTaken : Nat
  deriving DecidableEq, Repr

/-- SKD_STALL (spec/09, Table 10). -/
structure SkdStall where
  queue : BitVec 4
  waited : BitVec 4
  kind : BitVec 3
  period : BitVec 32
  deriving DecidableEq, Repr

/-- A queued piece of a memory access (R227, R229): its client (spec/11, Table 1), channel, stack offset and length, whether
it writes and what, and the transfer it belongs to with its place in it. -/
structure Piece where
  client : Byte
  channel : Fin 32
  off : Nat
  len : Nat
  write : Bool
  data : List Byte
  core : CoreId
  queue : Fin 16
  xfer : Nat
  pos : Nat
  deriving DecidableEq, Repr

/-- The Skidder of a core (spec/09). -/
structure Skidder where
  queues : Vector StreamQ 16
  wheel0 : Word
  wheel1 : Word
  /-- The wheels in force: a record's write takes effect in the period after its START. -/
  wheelLive0 : Word
  wheelLive1 : Word
  wheelSince : Option Word
  lastIssue : Option Word
  /-- Stream requests in the memory request crossing, each with its pieces and their stacks, oldest first (R13, R27). -/
  requests : List (List (Fin 8 × Piece))
  credwd : BitVec 32
  stall : SkdStall
  boom : Vector (List Word) 8
  /-- Windows of the job on the core, or of the last one (R257). -/
  windows : List Window
  /-- Descriptors released on the core so far: the number of the next release (R192). -/
  relCount : Nat
  deriving DecidableEq, Repr

/-- A message, credit, close notice or discard notice on its way between two endpoints (R208, R209, R214, R216, R217). -/
inductive ChMsgKind where
  | message (words : Desc)
  | credit (n depth : Nat)
  | close
  | discard (landed : Bool)
  deriving DecidableEq, Repr

/-- An item in transit to an endpoint: the endpoint it comes from, the generation it carries, the tick at which an exact
path delivers it, and whether it has passed the last crossing of its source lane (R209, R210). -/
structure ChMsg where
  kind : ChMsgKind
  srcCore : CoreId
  srcEp : Fin 32
  gen : BitVec 4
  due : Option Nat
  dir : Dir
  passed : Bool
  deriving DecidableEq, Repr

/-- A channel endpoint (spec/10, Tables 1, 7 and 8). -/
structure Endpoint where
  word : BitVec 29
  rbase : BitVec 18
  rlen : BitVec 10
  isOpen : Bool
  credits : BitVec 7
  occ : BitVec 7
  gen : BitVec 4
  /-- Generation of the last credit the send end received (R208). -/
  creditGen : BitVec 4
  peerClosed : Bool
  pos : BitVec 10
  flag : BitVec 32
  /-- Messages held (register mode) or waiting to land, oldest first. -/
  held : List Desc
  /-- Items in transit towards this endpoint, oldest first. -/
  transit : List ChMsg
  /-- Messages sent that have neither landed nor been discarded with a notice (R217). -/
  unsettled : Nat
  deriving DecidableEq, Repr

/-- An entry of a combining queue: the contribution's words, when it entered, its fetch descriptor's number and the rows
added so far (R220 to R222). -/
structure CombEntry where
  words : Desc
  entered : Nat
  rowsDone : Nat
  deriving DecidableEq, Repr

/-- A combining queue (spec/10, Table 10). -/
structure CombQ where
  mode : Bool
  wt : Bool
  sq : Fin 16
  abase : BitVec 18
  awords : BitVec 16
  entries : List CombEntry
  busy : Bool
  done : BitVec 32
  deriving DecidableEq, Repr

/-- An outstanding link command of a core (R309, R314): its words, whether the I/O region has taken it, its
acknowledgement, and its index in the link ring. -/
structure LinkCmd where
  words : Desc
  seqNo : Nat
  index : Nat
  taken : Bool
  sent : Bool
  acked : Bool
  deriving DecidableEq, Repr

/-- A contribution from a link on its way to a combining queue: its queue, its core's logical number, the words it enters with,
the command it acknowledges, and the port it came through (R312). -/
structure LinkEntry where
  k : Fin 8
  rcore : Fin 64
  words : Desc
  src : BitVec 14
  core : Fin 64
  cmd : BitVec 19
  port : PortId
  deriving DecidableEq, Repr

/-- A use of a tile register, vector register or accumulator bank by an operation in flight: ticks first, first + step, …,
count times (R99, R103, R148, R149). -/
structure PortUse where
  unit : Nat
  isWrite : Bool
  first : Nat
  step : Nat
  count : Nat
  issued : Nat
  deriving DecidableEq, Repr

/-- A result on its way: what becomes visible at its tick (R45, R46). -/
inductive Eff where
  | scalar (rd : SReg) (v : Word)
  | tcfg (t : TReg) (cfg : TileCfg)
  | release (mask : BitVec 32)
  | wclr (w : Bool)
  | swap (mask : Fin 16)
  | absw (mask : Fin 16)
  | aclr (m : Fin 4) (bank int : Bool)
  | acc (m : Fin 4) (bank : Bool) (row col : Nat) (v : AccElem) (sat : Nat)
  | ck (m : Fin 4) (bank : Bool) (row : Nat) (v : CkEntry)
  | ckClear (m : Fin 4) (bank : Bool) (row : Nat)
  | rowSum (m : Fin 4) (bank : Bool) (row : Nat) (tol : BitVec 5) (int : Bool) (cols due issued : Nat)
  | compare (m : Fin 4) (bank : Bool) (row : Nat) (made bad : Bool)
  | shadow (mask : Fin 16) (form : WForm) (cells : List (Nat × BitVec 16)) (scales mbytes : List (Nat × Byte))
      (bad : Bool) (ckWest ckNorth : List (Nat × Int))
  | mvbuf (fmt : BitVec 5) (vals : List (Nat × BitVec 32)) (scales : List (Nat × Byte))
  | mvline (bank : Bool) (vals : List (Nat × AccElem)) (sat : Nat)
  | tile (t : TReg) (bytes : List (Nat × Byte)) (scales : List (Nat × Byte)) (nextRow : Option (BitVec 8 × Bool))
  | vec (v : VRegId) (elems : List (Nat × BitVec 32))
  | sx (ctx : Bool) (row : Nat) (v : SxRow)
  | sxflag (ctx : Bool) (row : Nat) (v : BitVec 2)
  | counts (sat nanZero : Nat)
  | wide (w : Bool) (row : Nat) (adds : List Int) (ovf nans : Nat) (nan : Bool)
  | combWide (w : Bool) (row : Nat) (adds : List Int) (ovf nans : Nat) (nan : Bool)
  | comb (k : Fin 8) (words : List (Nat × Word))
  | bpush (b : Fin 8) (v : Word)
  | inject (d : Dir) (f : Flit)
  | qput (q : QId) (bytes : List Byte)
  | chOpen (ch : Fin 32) (word : BitVec 29)
  | chClose (ch : Fin 32)
  | sclClose (at_ : Nat) (tag : BitVec 16) (emin : BitVec 8)
  deriving DecidableEq, Repr

/-- A result with the tick at which it becomes visible and the issue it comes from (tick times 8 plus slot), by which
results of one tick are ranked (R46). -/
structure Pend where
  due : Nat
  issued : Nat
  eff : Eff
  deriving DecidableEq, Repr

/-- An operation that reads or writes in later ticks: the slot instruction, its issue (tick times 8 plus slot), the tick of
its first step, the ticks between steps, its step count and the next step, and what it captured at issue: the layer
configuration, the latency profile, the tile configurations, the contents of tiles that its own bundle changes or releases,
two scalar values, the physical banks its bank field selected and vector rows; and what the step in progress read from banks
(`vals`) or has gathered so far (`bytes`). -/
structure Strm where
  instr : Instr
  issued : Nat
  t0 : Nat
  step : Nat
  count : Nat
  next : Nat
  cfg : LayerCfg
  prof : BitVec 3
  cfgs : Vector TileCfg 32
  kept : List (Nat × Tile)
  s0 : Word
  s1 : Word
  banks : BitVec 4
  bytes : List Byte
  rows : List (BitVec 32)
  vals : List (BitVec 32)
  deriving DecidableEq, Repr

/-- A physical core (R80). -/
structure Core where
  seq : Seq
  reg : LayerCfg
  live : LayerCfg
  satCount : BitVec 32
  nanZero : BitVec 32
  wafOvf : BitVec 32
  wafNan : BitVec 32
  tiles : Vector Tile 32
  arrs : Vector Arr 4
  weightFeedUntil : Nat
  mvu : Mvu
  vec : Vec
  wide : Vector WideTile 2
  skd : Skidder
  store : ByteMem
  /-- The local store as the last four ticks left it, the latest first: CSEND and XSEND read bytes at least 4 ticks old (R212, R309). -/
  past : List ByteMem
  eps : Vector Endpoint 32
  chDiscards : BitVec 32
  combs : Vector CombQ 8
  spanCw : BitVec 7
  spanCcw : BitVec 7
  ringCw : Option Flit
  ringCcw : Option Flit
  flmSent : BitVec 32
  flmCaptured : BitVec 32
  flmCrcErr : Bool
  flmCollision : Bool
  flmDir : Bool
  flmTick : BitVec 32
  xrBase : BitVec 18
  xrLen : BitVec 10
  xrPos : BitVec 10
  xcomp : BitVec 32
  xflags : Vector (BitVec 32) 8
  links : List LinkCmd
  /-- Commands of fenced jobs whose acknowledgements have not returned: destination and ring index, oldest first (R317). -/
  lateAcks : List (BitVec 14 × Nat)
  linkSeq : Nat
  /-- Contributions from links waiting in the per-core buffer (R312). -/
  linkBuf : List LinkEntry
  ops : List Strm
  pend : List Pend
  tileUse : List PortUse
  vecUse : List PortUse
  bankUse : List PortUse
  wideUse : List PortUse
  /-- An addition on behalf of the core's job saturated or met a NaN (R71). -/
  overflow : Bool
  deriving DecidableEq, Repr

end Sys2Proof.Machine
end

