-- ==== Sys2Proof/Machine/DeviceState.lean ====
section
/-! DEFINITION. The state of the device outside the cores: jobs, images, commit groups, host interface, memory, links,
power, reset, identity and test logic (spec/01, 11 to 18). -/

namespace Sys2Proof.Machine

/-- The states of a job table entry (R259; spec/12, Table 8). -/
inductive JobState where
  | free | held | waiting | ready | running | stopped | fencing | done | fenced | cancelled
  deriving DecidableEq, Repr

/-- A fence record: words 5 to 7 of a job table entry (spec/12, Table 10). -/
structure FenceRec where
  pcore : Byte
  region : Byte
  ltag : BitVec 16
  bundle : BitVec 12
  ltick : BitVec 32
  detail0 : BitVec 32
  detail1 : BitVec 32
  deriving DecidableEq, Repr

/-- A job table entry (R259; spec/12, Table 10), with the successors' links, the records not yet pushed, the member cores
(R95, R260). -/
structure Job where
  state : JobState
  evt : Bool
  status : Status
  pred : BitVec 16
  tag : BitVec 16
  cores : Word
  slot : BitVec 10
  startPeriod : BitVec 32
  endPeriod : BitVec 32
  holdEvents : BitVec 32
  holdTicks : BitVec 32
  fence : FenceRec
  notify : Bool
  /-- The AON period of the device-wide event that fences the job (R353). -/
  wideAt : Option Nat
  preds : List JobId
  toPush : List (CoreId × List CfgRecord)
  /-- The Landing has taken the job, which waits for its regions to wake (R342). -/
  taken : Bool
  deriving DecidableEq, Repr

/-- A core's section of a loaded image: its schedule bundles and its configuration records (spec/12). -/
structure ImageSection where
  logical : Nat
  bundles : List (Nat × BitVec 256)
  /-- The 16 words for SEQ_JTAB0-7 and SEQ_JTABX0-7. -/
  jtab : List Word
  records : List CfgRecord
  deriving DecidableEq, Repr

/-- An image slot that holds an image (R257, R258). -/
structure Image where
  addr : Nat
  len : Nat
  profile : Nat
  cores : Word
  engines : Byte
  /-- The CAP_CORES map recorded at compilation (R16). -/
  coreMap : List Byte
  windows : List Window
  sections : List ImageSection
  deriving DecidableEq, Repr

/-- A row of a stack: channel, die, bank and row (R241). -/
structure RowId where
  ch : Fin 32
  die : Fin 17
  bank : Nat
  row : Nat
  deriving DecidableEq, Repr

/-- A memory region MEMk with its stack's temperature and checks (spec/11, Tables 4 to 6). -/
structure MemRegion where
  rate2x : Bool
  trip : Bool
  dieState : BitVec 2
  temp : Byte
  badDie : BitVec 5
  rebuilt : BitVec 32
  corrected : BitVec 32
  parityCorr : BitVec 16
  bondRetry : BitVec 16
  errOffset : BitVec 48
  errKind : BitVec 3
  wheel : Vector Byte 128
  wheelN : Vector Byte 128
  /-- The accepted wheel that awaits E0 (R231). -/
  wheelNext : Option (Vector Byte 128)
  wheelErr : Bool
  /-- Rotations run at 2x from the next that begins, or 1x; the updates at or below 92 degrees so far (R235). -/
  rateNext : Bool
  coolUpdates : Nat
  /-- Corrected errors of rows (R241), and parity corrections of dies with their MGT periods (R240). -/
  rowErrs : List (RowId × Nat)
  dieLog : List (Fin 17 × Nat)
  /-- Stack offsets of pieces found uncorrected and not written whole since (R238). -/
  badPieces : List Nat
  /-- Spare rows used, by (channel times 17 plus die) times 65,536 plus bank (R241). -/
  sparesUsed : List (Nat × Nat)
  /-- Queued pieces in the order of their arrival (R229, R233). -/
  queue : List Piece
  deriving DecidableEq, Repr

/-! ### The host interface -/

/-- What a packet that has begun and not yet replied waits for (R253; spec/12, Table 5). -/
inductive Awaits where
  | resume (j : JobId)
  | commit (g : Fin 16)
  | fence (j : JobId)
  | wipe
  | clock
  | captured
  | complete
  | forward
  | restore (n : Nat)
  deriving DecidableEq, Repr

/-- A packet that has begun and not yet replied. -/
structure OpenCmd where
  opcode : Byte
  tag : BitVec 16
  irq : Bool
  awaits : Awaits
  deriving DecidableEq, Repr

/-- A reply (spec/12, Table 4): `result` holds bytes 8 to 31, byte 8 lowest; `irq` is FLAGS.IRQ of its packet. -/
structure Reply where
  status : Status
  opcode : Byte
  kind : Byte
  tag : BitVec 16
  merged : BitVec 16
  result : BitVec 192
  irq : Bool
  deriving DecidableEq, Repr

/-- A waiting alert: status, detail bytes 8 to 15, and the alerts merged into it (R254). -/
structure Alert where
  status : Status
  detail : Word
  merged : BitVec 16
  deriving DecidableEq, Repr

/-- A reply as the device last wrote it into host memory (R253). -/
structure HostWrite where
  addr : Word
  reply : Reply
  deriving DecidableEq, Repr

/-- The command and reply rings and what waits inside the device (R251 to R255; spec/12, Table 6). -/
structure Rings where
  enable : Bool
  size : BitVec 4
  rvec : BitVec 4
  avec : BitVec 4
  base : Word
  tail : BitVec 16
  head : BitVec 16
  rrBase : Word
  rrHead : BitVec 16
  rrTail : BitVec 16
  dmaErr : Bool
  overflow : Bool
  /-- Packet taking has stopped until ENABLE is cleared and set again (R251). -/
  stopped : Bool
  evtMerged : BitVec 32
  waiting : List OpenCmd
  store : List Reply
  alerts : List Alert
  lastWrite : Option HostWrite
  lastVector : Option (BitVec 4)
  deriving DecidableEq, Repr

/-- HWINi (spec/12, Table 2). -/
structure HostWin where
  base : BitVec 36
  en : Bool
  wr : Bool
  size : BitVec 6
  deriving DecidableEq, Repr

/-- What the last access from the host was answered with (R248 to R250). -/
inductive Completion where
  | idle
  | done
  | data (v : Word)
  | bytes (bs : List Byte)
  | unsupported
  | aborted
  | retry
  /-- The access waits in the memory network for its stacks (R340). -/
  | waits
  deriving DecidableEq, Repr

/-- A BAR 2 access of DRAM with the device address its window maps it to (R249, R340). -/
structure HostWait where
  acc : HostAcc
  addr : Nat
  deriving DecidableEq, Repr

/-- The host interface beside the rings: PCIe link, BAR 2 windows, HWIN_STAT, JT_INDEX and its copy (R246 to R250, R266). -/
structure HostIf where
  linkUp : Bool
  wins : Vector HostWin 16
  winErr : Bool
  lastWin : BitVec 4
  lastStatus : BitVec 16
  fails : BitVec 32
  jtIndex : BitVec 16
  jtData : Vector Word 8
  out : Completion
  /-- Accesses that wait in the memory network for their stacks, oldest first (R340). -/
  waiting : List HostWait
  /-- Values that configuration writes have left, and whether AER has reported a poisoned TLP (R245). -/
  config : List (Nat × BitVec 32)
  aerPoisoned : Bool
  deriving DecidableEq, Repr

/-! ### Commit groups, snapshots, digests -/

/-- GRP_STAT.STATE (spec/12, Table 14). -/
inductive GroupState where
  | closed | isOpen | preparing | applying | committed | aborted
  deriving DecidableEq, Repr

/-- A staged register write: the logical core, or none for the MGT block; the value, or an increment of RNG_STEP (R268). -/
structure StagedReg where
  core : Option Nat
  off : Nat
  value : Word
  step : Bool
  deriving DecidableEq, Repr

/-- A staged memory write: the core it is attributed to, its destination, and its bytes' place in the journal (R268, R269). -/
structure StagedMem where
  core : Nat
  dst : Nat
  src : Nat
  len : Nat
  deriving DecidableEq, Repr

/-- A commit group (R268 to R272, R308). -/
structure Group where
  state : GroupState
  status : Status
  mask : Word
  detail : BitVec 16
  journal : Nat
  journalLen : Nat
  journalUsed : Nat
  regs : List StagedReg
  mems : List StagedMem
  prepared : List Nat
  applied : List Nat
  /-- Tree children that have reported prepared, whether one of their devices has a snapshot in progress, and whether this device has
  reported (R308, R332). -/
  kids : List PortId
  busy : Bool
  reported : Bool
  /-- The time at or after which members apply (R308). -/
  applyAt : Option Word
  deriving DecidableEq, Repr

/-- A snapshot plan (R336). -/
structure SnapPlan where
  slot0 : Nat
  slot1 : Nat
  far0 : Nat
  far1 : Nat
  partner : BitVec 16
  ranges : List (Nat × Nat)
  deriving DecidableEq, Repr

/-- SNAP_STAT.STATE (spec/15, Table 7). -/
inductive SnapState where
  | idle | capturing | sending | failed
  deriving DecidableEq, Repr

/-- What a RESTORE packet asks (spec/15, Table 4). -/
inductive RestoreOp where
  | bringBack (slot : Fin 2)
  | verify (slot : Fin 2) (partner : Bool)
  | forward (slot : Fin 2) (off len : Nat) (dest : BitVec 14) (daddr : Nat)
  deriving DecidableEq, Repr

/-- The snapshot engine (spec/15). -/
structure Snap where
  epoch : BitVec 32
  take : Bool
  period : BitVec 16
  share : BitVec 7
  en : Bool
  state : SnapState
  halted : Bool
  slot : Bool
  status : Status
  captured : BitVec 32
  complete : BitVec 32
  haltEpoch : BitVec 32
  lost : BitVec 14
  skips : BitVec 32
  plan : Option SnapPlan
  /-- MGT period and epoch of the last take, the group that took it, and the register records gathered so far (R332, R334). -/
  lastTake : Option Word
  takeEpoch : BitVec 32
  takeGroup : Option (Fin 16)
  /-- The slot that holds the complete epoch (R333). -/
  completeSlot : Option Bool
  records : List (Nat × List Byte)
  /-- DRAM as the decision found it: a byte that changes during the capture is captured old or new (R334). -/
  before : ByteMem
  /-- RESTORE packets that wait for their stacks, by the number of their replies (R229, R342). -/
  restores : List (Nat × RestoreOp)
  restoreSeq : Nat
  /-- Writes of the send or of a forward that await their acknowledgement, and the manager's reports of a sent epoch. -/
  sendLeft : Nat
  forwardLeft : Nat
  forwardTo : BitVec 14
  reports : List (BitVec 14)
  deriving DecidableEq, Repr

/-- A digest that runs: its items, its logical cores and its ranges as the start found them (R286). -/
structure DigestRun where
  items : BitVec 9
  cores : Word
  ranges : List (Nat × Nat)
  deriving DecidableEq, Repr

/-- The digest engine (spec/13, Table 8); `state` is DIG_STAT.STATE. -/
structure Digest where
  items : BitVec 9
  cores : Word
  rbase : Vector (BitVec 48) 4
  rlen : Vector (BitVec 40) 4
  state : BitVec 2
  status : Status
  out : Vector Word 8
  active : Option DigestRun
  deriving DecidableEq, Repr

/-! ### Sparing -/

/-- A repair group that has not committed (R323 to R328). -/
inductive Repair where
  | array (c : CoreId) (m : Fin 4) (rows cols : LineMap)
  | replace (failed spare : CoreId)
  | shed (failed : CoreId)
  | rebuild (k : Fin 8)
  | row (k : Fin 8) (x : RowId) (copied : Bool)
  deriving DecidableEq, Repr

/-- The repair engine (spec/15, Table 3): cores under self-test, spares being filled with the core each is to replace, failed
cores that stay in the map, and repair groups in the order in which their faults were declared. -/
structure Spare where
  auto : Bool
  shedEn : Bool
  lastKind : Byte
  lastUnit : Byte
  draining : Bool
  testing : List CoreId
  fills : List (CoreId × CoreId)
  failed : List CoreId
  unshed : List CoreId
  repairs : List Repair
  deriving DecidableEq, Repr

/-! ### Power, clocks and reset -/

/-- PWR_REGSTAT (spec/16, Table 9). -/
inductive RegPower where
  | asleep | queued | waking | running
  deriving DecidableEq, Repr

/-- A request in the governor's queue: the wake of region n (R338), of MGT (26) or of IO0 (27), or the clock raise of a compute
region by a number of table entries (R343, R344). -/
inductive GovReq where
  | wake (n : Fin 28)
  | raise (r : RegionId) (entries : Nat)
  deriving DecidableEq, Repr

/-- Who asked for a clock request: a packet, CLK_REQ, the device on a trip or loss of the reference, or the recovery of R348,
which returns each region to its entry from before the loss. -/
inductive ClockBy where
  | packet
  | register
  | device
  | recover
  deriving DecidableEq, Repr

/-- A clock request in progress (R43, R346): regions still to resume from their switch, the entry, whether it waits for the regulator, the region
admitted by the governor and the status it ends with once the region being switched has resumed. -/
structure ClockReq where
  mask : BitVec 17
  idx : BitVec 4
  waitsVolt : Bool
  admitted : List RegionId
  by_ : ClockBy
  ends : Option Status
  /-- The region being switched, until it has resumed (R43). -/
  busy : Option RegionId
  deriving DecidableEq, Repr

/-- A DRAM or on-die wipe in progress (R244, R255): first granule and count, logical cores, or the wipe of a reset. -/
inductive Wipe where
  | dram (first count : Nat)
  | onDie (mask : Word)
  | reset
  deriving DecidableEq, Repr

/-- The always-on region (spec/16, Table 9; spec/18, Tables 4 to 6). -/
structure Power where
  /-- RESET_N is driven low; the supplies of AON are present (R372, R373). -/
  resetLow : Bool
  aon : Bool
  ready : Bool
  cause : BitVec 3
  step : BitVec 4
  warm : Bool
  /-- The reference was lost in the reset in progress (R354). -/
  refStop : Bool
  /-- DRAM has been wiped, and the firmware runs, in the reset in progress. -/
  wiped : Bool
  /-- Regions that have run since the reset in progress began. -/
  woken : BitVec 28
  /-- The retained ranges that the warm reset in progress keeps, as its beginning found them (R243). -/
  keep : List (Nat × Nat)
  regs : Vector RegPower 28
  sleepReq : BitVec 26
  budget : BitVec 12
  queue : List GovReq
  /-- Regions whose queued wake a sleep request does not withdraw: the Landing, the host path or firmware asked for it (R341). -/
  kept : BitVec 28
  lost : Bool
  refOk : Bool
  recErr : Bool
  /-- A recovery has been asked for and has not ended (R348). -/
  recover : Bool
  entryBefore : Vector (BitVec 4) 17
  warnAt : Byte
  temp : Byte
  hot : BitVec 5
  warned : Bool
  /-- A warning has been raised and TEMP has not fallen below WARN - 5 since (R349). -/
  warnSent : Bool
  trip : Bool
  hard : Bool
  /-- THERMTRIP_N is driven low (R351, R373). -/
  thermtrip : Bool
  supply : BitVec 5
  clkMask : BitVec 17
  clkIdx : BitVec 4
  clkErr : Bool
  clkStatus : BitVec 16
  clk : Option ClockReq
  avsReq : BitVec 12
  avsRead : BitVec 12
  avsBusy : Bool
  avsErr : Bool
  avsLower : Bool
  /-- The requests between which a change of VDD_CORE runs, whether the last one has been acknowledged, and the MGT periods left of
  the 10 µs after that (R376). -/
  avsLo : BitVec 12
  avsHi : BitVec 12
  avsAcked : Bool
  avsTail : Nat
  auxBar : Bool
  auxDbg : Bool
  auxBarrier : BitVec 3
  auxLevel : Bool
  auxErr : Bool
  auxStatus : BitVec 16
  /-- MGT periods left of the debug pulse on AUX_SYNC (R374). -/
  auxPulse : Nat
  wipes : List Wipe
  deriving DecidableEq, Repr

/-! ### Identity, management and test -/

/-- The identity block and the boot ROM (spec/17, Table 8), with the fused secrets. -/
structure Ident where
  bootState : BitVec 2
  bootStatus : BitVec 16
  bootReason : Byte
  bootLen : BitVec 19
  serial : Word
  lcState : BitVec 3
  returns : BitVec 2
  /-- A transition blown and not confirmed (R367). -/
  blown : Option (BitVec 3)
  idKey : Bool
  debugFw : Bool
  lcBusy : Bool
  lcStatus : BitVec 16
  svnFused : BitVec 32
  svnImage : BitVec 32
  nonce0 : Word
  nonce1 : Word
  ideOnly : Bool
  meas : Vector (List Byte) 4
  pubkey : List Byte
  token : ByteMem
  staging : ByteMem
  uds : BitVec 256
  deriving DecidableEq, Repr

/-- What the SPDM responder last answered (R363 to R365). -/
inductive SpdmRsp where
  | idle
  | version (v : Byte)
  | capabilities (meas keyEx encrypt mac hbeat pubKeyId sig : Bool)
  | algorithms
  | measurements (bs : List Byte) (sig : List Byte)
  | keyExchange (exchange sig : List Byte)
  | finish
  | heartbeat
  | ended
  | keyed (stream : Fin 4)
  | busy
  | unsupported
  | unexpected
  | decryptError
  deriving DecidableEq, Repr

/-- The SPDM responder and IDE (R363 to R366). -/
structure Spdm where
  versioned : Bool
  capable : Bool
  negotiated : Bool
  session : Option (BitVec 16)
  established : Bool
  /-- The exchange data of the session's KEY_EXCHANGE. -/
  exchange : List Byte
  ide : Vector (Option (BitVec 256)) 4
  out : SpdmRsp
  deriving DecidableEq, Repr

/-- What the Waton target last answered on its segment (R298, R299). -/
inductive WtnOut where
  | idle
  | ack
  | nack
  | bytes (bs : List Byte)
  deriving DecidableEq, Repr

/-- The Waton target (spec/14, Table 9; R298): dynamic address, straps, enabled events, the register that the next read
returns, and the last In-Band Interrupt's bytes. -/
structure Waton where
  addr : BitVec 7
  valid : Bool
  inst : BitVec 4
  events : Byte
  hotJoin : Bool
  out : WtnOut
  ibi : List Byte
  deriving DecidableEq, Repr

/-- The TAP's instruction (R383). -/
inductive TapInstr where
  | bypass | idcode | samplePreload | extest | clamp | highz
  deriving DecidableEq, Repr

/-- The JTAG port: instruction, boundary register, last identity word, and whether EXTEST, CLAMP or HIGHZ is in effect. -/
structure Jtag where
  ir : TapInstr
  boundary : BitVec 17
  captured : BitVec 17
  out : BitVec 32
  effective : Bool
  deriving DecidableEq, Repr

/-! ### Links and the fabric -/

/-- A packet queued for a port: its class, the link command it belongs to, the bytes it still has to send, whether it is its
command's last, and the port a forwarded one came in through (R293 to R297, R314). -/
structure OutPkt where
  pkt : LinkPkt
  cls : Fin 4
  owner : Option (CoreId × Nat)
  left : Nat
  final : Bool
  came : Option PortId
  deriving DecidableEq, Repr

/-- A data flit in the replay buffer, with the commands whose packets it carries (R294, R318). -/
structure SentFlit where
  num : BitVec 12
  cls : Fin 4
  owners : List (CoreId × Nat)
  bytes : List Byte
  deriving DecidableEq, Repr

/-- A Baswell port (spec/14, Table 7; R290 to R295, R329). `state` is BP_STAT.STATE. -/
structure Port where
  en : Bool
  chClass : Bool
  laneThr : Byte
  state : BitVec 2
  lanes : BitVec 9
  spareUsed : Bool
  failedLane : BitVec 4
  reason : BitVec 3
  peer : BitVec 14
  peerValid : Bool
  tries : BitVec 16
  fecCorr : BitVec 32
  crcFail : BitVec 16
  replayCnt : BitVec 16
  queue : List OutPkt
  /-- Flits sent of the current hundred, and those among them with bytes of a snapshot's send (R335). -/
  hundred : Nat
  snapFlits : Nat
  turn : Fin 4
  replay : List SentFlit
  txNum : BitVec 12
  rxNum : BitVec 12
  /-- The receiver awaits the flit after `rxNum`; a NAK is to be sent; a NAK has been received. -/
  rxGap : Bool
  nakDue : Bool
  nakGot : Bool
  lastAck : BitVec 12
  replays : Nat
  credits : Vector Nat 4
  /-- Credits of the peer's flits not yet returned, and what the last control flit sent returned and marked (R295). -/
  owed : Vector Nat 4
  returned : Vector Nat 4
  sentMark : Bool
  /-- When the peer's congestion mark last came (R295). -/
  markAt : Option Word
  /-- The idle spare lane has lost its signal (R291). -/
  spareLost : Bool
  /-- The port is up or has spent 25 ms in training (R300). -/
  settled : Bool
  /-- A lane switch asked of the peer, with its codeword count, and one agreed (R329). -/
  asked : Option (Fin 9 × Nat)
  agreed : Option (Fin 9 × Nat)
  deriving DecidableEq, Repr

/-- A barrier (R306; spec/14, Table 8), with the arrivals so far and the time of a release that has come. -/
structure Barrier where
  mode : BitVec 2
  job : BitVec 16
  state : BitVec 2
  late : Bool
  kids : List PortId
  selfIn : Bool
  release : Option Word
  deriving DecidableEq, Repr

/-- A link packet that writes DRAM or stands behind one, as its command brings it, with the port it came through (R311 to R313). -/
inductive LinkIn where
  | write (p : PortId) (x : LinkPkt) (final : Bool)
  | contribution (p : PortId) (x : LinkPkt) (i : ContribInfo)
  | flag (p : PortId) (x : LinkPkt) (rcore : Fin 64) (f : Fin 8)
  deriving DecidableEq, Repr

/-- A command whose packets are arriving: its source, core and command number, the receive window that its first packet lay in, and
the first address that it writes (R311). -/
structure Landing where
  key : Nat × Nat × Nat
  win : Option (Fin 8)
  base : Nat
  deriving DecidableEq, Repr

/-- LRX_WINi (spec/14, Table 8). -/
structure LrxWin where
  base : BitVec 36
  en : Bool
  size : BitVec 6
  deriving DecidableEq, Repr

/-- A flag that waits behind the contributions `behind` of its sender (R313, R315). -/
structure FlagWait where
  src : BitVec 14
  core : Fin 64
  cmd : BitVec 19
  rcore : Fin 64
  flag : Fin 8
  port : PortId
  behind : List (BitVec 19)
  deriving DecidableEq, Repr

/-- Fabric registers and the link engines (spec/14, Table 8; R297 to R308, R312). -/
structure Fabric where
  mgr : Bool
  idValid : Bool
  id : BitVec 14
  depth : BitVec 5
  parent : BitVec 4
  enumSt : BitVec 2
  tsync : Bool
  unassigned : BitVec 14
  dropped : BitVec 22
  time : Word
  rtIndex : BitVec 14
  /-- Valid route entries: identifier and port (R297). -/
  routes : List (Nat × Option PortId)
  hbPeriod : BitVec 16
  hbMiss : BitVec 4
  ackTmo : BitVec 16
  lead : BitVec 16
  barm : Vector Barrier 8
  grp : BitVec 16
  lrx : Vector LrxWin 8
  kids : List PortId
  /-- Contributions whose rows are in memory and that have not entered a queue, in order of arrival (R312). -/
  arrived : List LinkEntry
  store : List LinkEntry
  flags : List FlagWait
  /-- Link packets that wait for their stacks, in order of arrival, by I/O region (R311, R340). -/
  inbound : Vector (List LinkIn) 2
  /-- Commands whose packets are arriving: the receive window that took the first, or none, and its address (R311). -/
  landing : List Landing
  /-- Commands of which an arriving write lay outside the receive windows: source, core, command (R311). -/
  refused : List (Nat × Nat × Nat)
  /-- Commands of which a piece could not be written (R238). -/
  landBad : List (Nat × Nat × Nat)
  /-- Devices declared lost since their last heartbeat (R319). -/
  lostPeers : List Nat
  /-- A port has changed state since the last enumeration began (R300). -/
  moved : Bool
  /-- The manager's identifiers: device and identifier (R302). -/
  known : List (Nat × Nat)
  deriving DecidableEq, Repr

/-! ### Fuses -/

/-- What the fuses of a part hold beside the identity block: the core map at manufacture, unused spares and line maps
(R1, R5, R15, R121). -/
structure Fuses where
  part : Byte
  stepping : BitVec 4
  active : Byte
  capCores : Vector Byte 68
  spares : List CoreId
  maps : List (Nat × LineMap × LineMap)
  deriving DecidableEq, Repr

end Sys2Proof.Machine
end

