-- ==== Sys2Proof/Machine/State.lean ====
section
/-! DEFINITION. The state of the block, its faults and refusals, and the state after reset: the release of RESET_N, at the
start of a cold reset (R354, R355). -/

namespace Sys2Proof.Machine

/-- Why a step stops with a fault. No rule of the spec stops the device: a fault of the spec is a next state. -/
inductive Fault where
  deriving DecidableEq, Repr

/-- Why a command is refused. -/
inductive Refusal where
  /-- The command has no meaning in the model yet. Raised by exec's arms only. Safe. -/
  | notModelled (mnemonic : String)
  /-- A slot instruction holds a reserved encoding, which no slot can hold (R83). Raised by the slot commands. Safe. -/
  | reservedEncoding (mnemonic : String)
  deriving DecidableEq, Repr

/-- The whole block. -/
structure State where
  /-- CG0 to CG16 and C00 to C67. -/
  regions : Vector Region 17
  cores : Vector Core 68
  /-- CAP_CORES, CAP_GRADE.ACTIVE_CORES, the unused spares (CAP_GRADE.SPARE_CORES), PART and the fuses behind them (R5, R15). -/
  capCores : Vector Byte 68
  activeCores : Byte
  spareCores : List CoreId
  part : Byte
  fuses : Fuses
  /-- DRAM by stack times 72 GiB plus stack offset (R18, R227). -/
  dram : ByteMem
  mems : Vector MemRegion 8
  /-- MEMC_DECODE: stack-local decode (R19). -/
  stackLocal : Bool
  /-- MEMC_CTL, MEMC_RETAIN0, MEMC_RETAIN1 as (base, count), MEMC_STAT (spec/11, Table 7). -/
  force2x : Bool
  scrub : Bool
  retain0 : BitVec 10 × BitVec 10
  retain1 : BitVec 10 × BitVec 10
  memcFailed : Byte
  wiping : Bool
  /-- The Landing: job table, image slots, TALLY_ORDER_CHOICES, commit groups and GRP_CTL (spec/12). -/
  jobs : List (Nat × Job)
  images : List (Nat × Image)
  orderChoices : Word
  groups : Vector Group 16
  prepTmo : BitVec 32
  rings : Rings
  host : HostIf
  digest : Digest
  spare : Spare
  snap : Snap
  power : Power
  ident : Ident
  spdm : Spdm
  wtn : Waton
  jtag : Jtag
  ports : Vector Port 10
  fabric : Fabric
  /-- MGT_PERIODS (R389). -/
  mgtPeriods : Word
  /-- The model's own: numbers the free values it has taken; no register of the device. -/
  free : Nat
  /-- The commands that wait, first in, first out. -/
  pending : List Instr
  deriving DecidableEq, Repr

/-! ### The values after reset -/

/-- A compute region at reset (spec/02 Tables 2 to 8, spec/06 Table 11, spec/13 Table 6). -/
def resetRegion : Region :=
  { lockstep := false, guard := 0b100, lsActive := false, switching := false, freqIdx := 0, stretch := 0, forced := 0, tick := 0
    periods := 0, tallyEvents := 0, tallyTicks := 0
    tallyLast := { cause := 0, queue := 0, core := 0, tick := 0, periods := 0 }
    holdwd := 0x00100000, hold := none, waits := [], heldOps := [], faults := [], stopEn := false, stopFired := false
    stopJob := 0, stopAt := 0, flmxCrc := false, inCw := [], inCcw := [], laneCw := [], laneCcw := [], mgtIn := []
    mgtOut := [] }

/-- The sequencer of a core at reset (spec/04, Tables 5 and 7). -/
def resetSeq : Seq :=
  { run := .idle, job := none, tag := 0, runq := [], lastBundle := 0, ltick := 0, starve := 0, jtick := 0, pc := 0
    layerOn := false, entry := 0, entryDue := false, trailing := 0, awaiting := false, startDue := none, afterNext := false
    firstStart := false, fresh := false, jfresh := false, moved := false, finalLayer := false, finishing := false, repeats := []
    shadow := none, stoppedAt := 0, loops := Vector.replicate 8 { iter := 0, count := 0, active := false }
    juncs := Vector.replicate 8 { join := 0, nvar := 1, vars := Vector.replicate 8 0 }
    latprof := 0, scalars := Vector.replicate 64 0, store := [] }

/-- The layer configuration registers at reset (spec/03 Tables 6 and 11, spec/05 Tables 8 and 12, spec/07 Tables 5 and 7). -/
def resetLayerCfg : LayerCfg :=
  { cvtOvf := false, seed := 0, step := 0, ckctl := Vector.replicate 4 { enW := false, enN := false, tol := 0b01010 }
    wfmt := 0b00011, rngctx := Vector.replicate 4 { stream := 0, idx := 0 }, sclBase := 0, sclCount := 0, sclEmin := 0xEC }

/-- A tile register at reset: empty, its bytes zero (spec/04, Tables 8 and 9). -/
def resetTile : Tile :=
  { cfg := { rows := 0x80, rowb := 0b10000, fmt := 0b00011, axis := false }
    empty := true, data := [], scales := [], nextRow := 0, pending := false }

/-- Weights at reset: empty (spec/05, Table 7). -/
def resetWeights : Weights :=
  { kind := .empty, fmt := 0, axisCols := false, k := 0, n := 0, cells := [], scales := [], mbytes := [], scaleAxis := false
    ckWest := [], ckNorth := [] }

/-- An accumulator bank at reset: zeros (R339, R355). -/
def resetBank : AccBank := { int := false, elems := { fill := { bits := 0, int := false }, cells := [] }, ck := [] }

/-- A line map without failed lines. -/
def resetLines : LineMap := { badA := 0xFF, badB := 0xFF }

/-- An array at reset (spec/05, Tables 7 to 11); its line maps come from fuses. -/
def resetArr : Arr :=
  { fill := false, active := resetWeights, shadow := resetWeights, acc0 := resetBank, acc1 := resetBank, feedUntil := 0
    rowsIn := [], ckChecked := 0, ckRow := 0, ckBank := false, ckMismatch := false, rowMap := resetLines, colMap := resetLines }

/-- The matrix-vector unit at reset (spec/05, Table 12). -/
def resetMvu : Mvu :=
  { feedUntil := 0, bufFmt := 0, buf := [], bufScales := [], bank0 := resetBank, bank1 := resetBank, work0 := resetBank
    work1 := resetBank, scaleLine := [], scaleCount := 0, skip := 0 }

/-- A softmax row at reset: zeros. -/
def resetSxRow : SxRow := { m := 0, l := 0, alpha := 0, k := 0, nan := false }

/-- The vector engine at reset (spec/07, Tables 5 to 9). -/
def resetVec : Vec :=
  { regs := Vector.replicate 8 [], pipeUntil := 0, opcode := 0, sx0 := { fill := resetSxRow, cells := [] }
    sx1 := { fill := resetSxRow, cells := [] }, sxflag0 := [], sxflag1 := [], sclCur := 0, sclWraps := 0
    sclRec := { absmax := 0, zeros := 0, nans := 0, infs := 0, elements := 0, exps := [], lastWrite := 0 }, sclClosed := [] }

/-- A wide tile at reset (spec/08, Tables 3 and 4). -/
def resetWide : WideTile := { mode := false, anchor := 0, nan := false, ovf := false, adds := 0, elems := [] }

/-- A stream queue at reset (spec/09, Tables 7 to 9). -/
def resetQueue : StreamQ :=
  { esize := 0x3F, qbase := 0, limit := 0, write := false, persist := false, lbase := 0, llen := 0, base := 0, next := 0
    staged := false, released := 0, started := 0, rel := [], act := [], lastStart := none, armMark := 0, entries := []
    headSlot := 0, headCount := 0, taken := 0, wHead := 0, wTail := 0, accepted := 0, xfers := [], xferId := 0
    cblocked := false, cperiods := 0, pairs := [], lists := [], tripsTaken := 0 }

/-- The Skidder at reset (spec/09, Table 10). -/
def resetSkidder : Skidder :=
  { queues := Vector.replicate 16 resetQueue, wheel0 := 0xFEDCBA9876543210, wheel1 := 0xFEDCBA9876543210
    wheelLive0 := 0xFEDCBA9876543210, wheelLive1 := 0xFEDCBA9876543210, wheelSince := none, lastIssue := none, requests := []
    credwd := 0x000C0000, stall := { queue := 0, waited := 0, kind := 0, period := 0 }, boom := Vector.replicate 8 []
    windows := [], relCount := 0 }

/-- An endpoint at reset (spec/10, Tables 7 and 8). -/
def resetEp : Endpoint :=
  { word := 0, rbase := 0, rlen := 0, isOpen := false, credits := 0, occ := 0, gen := 0, creditGen := 0, peerClosed := false
    pos := 0, flag := 0, held := [], transit := [], unsettled := 0 }

/-- A combining queue at reset (spec/10, Table 10). -/
def resetComb : CombQ := { mode := false, wt := false, sq := 0, abase := 0, awords := 0, entries := [], busy := false, done := 0 }

/-- A core at reset; every on-die memory reads zero (R339, R355). -/
def resetCore : Core :=
  { seq := resetSeq, reg := resetLayerCfg, live := resetLayerCfg, satCount := 0, nanZero := 0, wafOvf := 0, wafNan := 0
    tiles := Vector.replicate 32 resetTile, arrs := Vector.replicate 4 resetArr, weightFeedUntil := 0, mvu := resetMvu
    vec := resetVec, wide := Vector.replicate 2 resetWide, skd := resetSkidder, store := [], past := [], eps := Vector.replicate 32 resetEp
    chDiscards := 0, combs := Vector.replicate 8 resetComb, spanCw := 0, spanCcw := 0, ringCw := none, ringCcw := none
    flmSent := 0, flmCaptured := 0, flmCrcErr := false, flmCollision := false, flmDir := false, flmTick := 0, xrBase := 0
    xrLen := 0, xrPos := 0, xcomp := 0, xflags := Vector.replicate 8 0, links := [], lateAcks := [], linkSeq := 0, linkBuf := [], ops := []
    pend := [], tileUse := [], vecUse := [], bankUse := [], wideUse := [], overflow := false }

/-- The reset wheel of R230. -/
def resetWheel : Vector Byte 128 :=
  Vector.ofFn (fun e =>
    if e.val = 0 ∨ e.val = 43 ∨ e.val = 86 then 0x42#8 else if e.val = 21 ∨ e.val = 64 ∨ e.val = 107 then 0xC0#8 else 0x40#8)

/-- A memory region at reset (spec/11, Tables 4 to 6). -/
def resetMem : MemRegion :=
  { rate2x := false, trip := false, dieState := 0, temp := 0, badDie := 0x1F, rebuilt := 0, corrected := 0, parityCorr := 0
    bondRetry := 0, errOffset := 0, errKind := 0, wheel := resetWheel, wheelN := resetWheel, wheelNext := none, wheelErr := false
    rateNext := false, coolUpdates := 0, rowErrs := [], dieLog := [], badPieces := [], sparesUsed := [], queue := [] }

/-- A commit group at reset (spec/12, Table 14). -/
def resetGroup : Group :=
  { state := .closed, status := .ok, mask := 0, detail := 0xFFFF, journal := 0, journalLen := 0, journalUsed := 0, regs := []
    mems := [], prepared := [], applied := [], kids := [], busy := false, reported := false, applyAt := none }

/-- The rings at reset (spec/12, Table 6). -/
def resetRings : Rings :=
  { enable := false, size := 0xC, rvec := 0, avec := 1, base := 0, tail := 0, head := 0, rrBase := 0, rrHead := 0, rrTail := 0
    dmaErr := false, overflow := false, stopped := false, evtMerged := 0, waiting := [], store := [], alerts := []
    lastWrite := none, lastVector := none }

/-- The host interface at reset (spec/12, Tables 2 and 12). -/
def resetHost : HostIf :=
  { linkUp := false, wins := Vector.replicate 16 { base := 0, en := false, wr := false, size := 0x20 }, winErr := false
    lastWin := 0, lastStatus := 0, fails := 0, jtIndex := 0, jtData := Vector.replicate 8 0, out := .idle
    waiting := [], config := [], aerPoisoned := false }

/-- The digest engine at reset (spec/13, Table 8). -/
def resetDigest : Digest :=
  { items := 0, cores := 0, rbase := Vector.replicate 4 0, rlen := Vector.replicate 4 0, state := 0, status := .ok
    out := Vector.replicate 8 0, active := none }

/-- The repair engine at reset (spec/15, Table 3). -/
def resetSpare : Spare :=
  { auto := true, shedEn := true, lastKind := 0, lastUnit := 0xFF, draining := false, testing := [], fills := [], failed := []
    unshed := [], repairs := [] }

/-- The snapshot engine at reset (spec/15, Table 7). -/
def resetSnap : Snap :=
  { epoch := 0, take := false, period := 0x00F0, share := 0x19, en := false, state := .idle, halted := false, slot := false
    status := .ok, captured := 0, complete := 0, haltEpoch := 0, lost := 0, skips := 0, plan := none, lastTake := none
    takeEpoch := 0, takeGroup := none, completeSlot := none, records := [], before := [], restores := [], restoreSeq := 0, sendLeft := 0, forwardLeft := 0
    forwardTo := 0, reports := [] }

/-- AON at the start of a cold reset: every other region is unpowered (spec/16, Tables 6 and 9; spec/18, Tables 4 to 6). -/
def resetPower : Power :=
  { resetLow := false, aon := true, ready := false, cause := 0, step := 1, warm := false, refStop := false, wiped := false, woken := 0, keep := []
    regs := Vector.replicate 28 .asleep, sleepReq := 0, budget := 0x0C8, queue := [], kept := 0, lost := false, refOk := false
    recErr := false, recover := false, entryBefore := Vector.replicate 17 0, warnAt := 0x64, temp := 0, hot := 0, warned := false
    warnSent := false, trip := false, hard := false, thermtrip := false, supply := 0, clkMask := 0, clkIdx := 0, clkErr := false, clkStatus := 0
    clk := none, avsReq := 0x2D0, avsRead := 0, avsBusy := false, avsErr := false, avsLower := false, avsLo := 0x2D0, avsHi := 0x2D0, avsAcked := true, avsTail := 0, auxBar := false
    auxDbg := false, auxBarrier := 0, auxLevel := false, auxErr := false, auxStatus := 0, auxPulse := 0, wipes := [] }

/-- The identity block of a part that has not been provisioned, state BLANK with serial number 0: the fuses of a part are not
given (DESIGN CHOICE, log entry 2); the nonces are fresh values of a cold reset (R368). -/
def resetIdent : Ident :=
  { bootState := 0, bootStatus := 0, bootReason := 0, bootLen := 0, serial := 0, lcState := 0, returns := 0, blown := none
    idKey := false, debugFw := false, lcBusy := false, lcStatus := 0, svnFused := 0, svnImage := 0, nonce0 := Config.nonce 0
    nonce1 := Config.nonce 1, ideOnly := false, meas := Vector.replicate 4 [], pubkey := [], token := [], staging := []
    uds := 0 }

/-- The SPDM responder at reset. -/
def resetSpdm : Spdm :=
  { versioned := false, capable := false, negotiated := false, session := none, established := false, exchange := []
    ide := Vector.replicate 4 none, out := .idle }

/-- The Waton target at reset (spec/14, Table 9). -/
def resetWaton : Waton :=
  { addr := 0, valid := false, inst := 0, events := 0, hotJoin := false, out := .idle, ibi := [] }

/-- The JTAG port at reset. -/
def resetJtag : Jtag := { ir := .idcode, boundary := 0, captured := 0, out := 0, effective := false }

/-- A port at reset (spec/14, Table 7). -/
def resetPort : Port :=
  { en := true, chClass := false, laneThr := 0x40, state := 0, lanes := 0, spareUsed := false, failedLane := 0xF, reason := 0
    peer := 0, peerValid := false, tries := 0, fecCorr := 0, crcFail := 0, replayCnt := 0, queue := [], hundred := 0, snapFlits := 0, turn := 0, replay := []
    txNum := 0, rxNum := 0xFFF, rxGap := false, nakDue := false, nakGot := false, lastAck := 0xFFF, replays := 0
    credits := Vector.replicate 4 0, owed := Vector.replicate 4 0, returned := Vector.replicate 4 0, sentMark := false
    markAt := none, spareLost := false, settled := false, asked := none, agreed := none }

/-- The fabric registers at reset (spec/14, Table 8). -/
def resetFabric : Fabric :=
  { mgr := false, idValid := false, id := 0, depth := 0, parent := 0xF, enumSt := 0, tsync := false, unassigned := 0
    dropped := 0, time := 0, rtIndex := 0, routes := [], hbPeriod := 0x03E8, hbMiss := 3, ackTmo := 0x0064, lead := 0x0020
    barm := Vector.replicate 8 { mode := 0, job := 0, state := 0, late := false, kids := [], selfIn := false, release := none }
    grp := 0, lrx := Vector.replicate 8 { base := 0, en := false, size := 0x0C }, kids := [], arrived := [], store := []
    flags := [], inbound := Vector.replicate 2 [], landing := [], refused := [], landBad := [], lostPeers := [], moved := false, known := [] }

/-- The fuses of the part that the model takes: an XKN-8864 of stepping B0 with spares C17, C34, C51 and C66 and no failed line
(DESIGN CHOICE, log entry 1). -/
def resetFuses : Fuses :=
  { part := 0x40, stepping := 1, active := 64
    capCores := Vector.ofFn (fun i =>
      if i.val < 17 then BitVec.ofNat 8 i.val
      else if i.val < 33 then BitVec.ofNat 8 (i.val + 1)
      else if i.val < 49 then BitVec.ofNat 8 (i.val + 2)
      else if i.val < 63 then BitVec.ofNat 8 (i.val + 3)
      else if i.val < 64 then 67#8
      else 0xFF#8)
    spares := [17, 34, 51, 66], maps := [] }

/-- The device right after the release of RESET_N: step 1 of a cold reset (R354, R355, R372). -/
def State.reset : State :=
  { regions := Vector.replicate 17 resetRegion, cores := Vector.replicate 68 resetCore, capCores := resetFuses.capCores
    activeCores := resetFuses.active, spareCores := resetFuses.spares, part := resetFuses.part, fuses := resetFuses
    dram := [], mems := Vector.replicate 8 resetMem, stackLocal := false, force2x := false, scrub := true, retain0 := (0, 0)
    retain1 := (0, 0), memcFailed := 0, wiping := false, jobs := [], images := [], orderChoices := 0
    groups := Vector.replicate 16 resetGroup, prepTmo := 0x3E8, rings := resetRings, host := resetHost, digest := resetDigest
    spare := resetSpare, snap := resetSnap, power := resetPower, ident := resetIdent, spdm := resetSpdm, wtn := resetWaton
    jtag := resetJtag, ports := Vector.replicate 10 resetPort, fabric := resetFabric, mgtPeriods := 0, free := 2, pending := [] }

end Sys2Proof.Machine
end

