-- ==== Sys2Proof/Machine/Ops.lean ====
section
/-! DEFINITION. The named operations on the state that the meanings share: units, scalar registers, results on their way,
ports, holds, faults and fences, and the issue of a slot instruction. -/

namespace Sys2Proof.Machine

/-- A physical core. -/
def coreAt (s : State) (c : CoreId) : Core := s.cores.get c

/-- The state with one core replaced. -/
def setCore (s : State) (c : CoreId) (x : Core) : State := { s with cores := s.cores.set c.val x c.isLt }

/-- The state with one core changed. -/
def modCore (s : State) (c : CoreId) (f : Core → Core) : State := setCore s c (f (coreAt s c))

/-- A compute region. -/
def regionAt (s : State) (r : RegionId) : Region := s.regions.get r

/-- The state with one compute region changed. -/
def modRegion (s : State) (r : RegionId) (f : Region → Region) : State :=
  { s with regions := s.regions.set r.val (f (regionAt s r)) r.isLt }

/-- The state with a core's sequencer changed. -/
def modSeq (s : State) (c : CoreId) (f : Seq → Seq) : State := modCore s c (fun k => { k with seq := f k.seq })

/-- The schedule tick of a region. -/
def tickOf (s : State) (r : RegionId) : Nat := (regionAt s r).tick.toNat

/-- The schedule tick of a core's region. -/
def nowAt (s : State) (c : CoreId) : Nat := tickOf s (regionOf c)

/-- A scalar register; S0 reads 0 (R84). -/
def sreg (k : Core) (n : SReg) : Word := if n.val = 0 then 0#64 else k.seq.scalars.get n

/-- A scalar register written; a write to S0 is discarded (R84). -/
def setSreg (k : Core) (n : SReg) (v : Word) : Core :=
  if n.val = 0 then k else { k with seq := { k.seq with scalars := k.seq.scalars.set n.val v n.isLt } }

/-- A position whose core CAP_CORES does not name (R132). -/
def isBypass (s : State) (c : CoreId) : Bool := !(s.capCores.toList.any (fun b => b.toNat == c.val))

/-- The logical number of a physical core (R15). -/
def logicalOf (s : State) (c : CoreId) : Option Nat :=
  (List.range s.activeCores.toNat).find? (fun i => decide (i < 68) && (s.capCores.toList.getD i 0xFF#8).toNat == c.val)

/-- The physical core of a logical number (R15). -/
def physicalOf (s : State) (l : Nat) : Option CoreId :=
  if l < s.activeCores.toNat then
    let b := (s.capCores.toList.getD l 0xFF#8).toNat
    if h : b < 68 then some ⟨b, h⟩ else none
  else none

/-- A job table entry never used. -/
def freeJob : Job :=
  { state := .free, evt := false, status := .ok, pred := 0, tag := 0, cores := 0, slot := 0, startPeriod := 0, endPeriod := 0,
    holdEvents := 0, holdTicks := 0,
    fence := { pcore := 0xFF, region := 0xFF, ltag := 0, bundle := 0, ltick := 0, detail0 := 0, detail1 := 0 },
    notify := false, wideAt := none, preds := [], toPush := [], taken := false }

/-- A job table entry (R259). -/
def jobAt (s : State) (j : JobId) : Job := cellGet freeJob s.jobs j.val

/-- The state with a job table entry replaced. -/
def setJob (s : State) (j : JobId) (x : Job) : State := { s with jobs := cellSet freeJob s.jobs j.val x }

/-- The state with a job table entry changed. -/
def modJob (s : State) (j : JobId) (f : Job → Job) : State := setJob s j (f (jobAt s j))

/-- All physical cores. -/
def allCores : List CoreId := List.finRange 68

/-- All compute regions. -/
def allRegions : List RegionId := List.finRange 17

/-- The cores that run (or stop, or fence) job `j`. -/
def membersOf (s : State) (j : JobId) : List CoreId :=
  allCores.filter (fun c => decide ((coreAt s c).seq.job = some j))

/-- The cores of a region. -/
def coresOf (r : RegionId) : List CoreId := (List.finRange 4).map (coreOf r)

/-- Job table entries that satisfy `p`, in increasing index (R261). -/
def jobsWhere (s : State) (p : Job → Bool) : List JobId :=
  s.jobs.filterMap (fun e => if h : e.1 < 65536 then (if p e.2 then some ⟨e.1, h⟩ else none) else none)

/-- A job that RUNS, is STOPPED or FENCING (R261). -/
def jobActive (b : Job) : Bool :=
  match b.state with
  | .running | .stopped | .fencing => true
  | _ => false

/-- The member cores of a job, by its logical mask (R261). -/
def jobCores (s : State) (b : Job) : List CoreId := (bitList 64 b.cores.toNat).filterMap (physicalOf s)

/-- The job whose core this is: the one the core runs, or, once its part has ended, the job not yet retired that it is a member of
(R96, R261). -/
def jobOf (s : State) (c : CoreId) : Option JobId :=
  match (coreAt s c).seq.job with
  | some j => some j
  | none => (jobsWhere s jobActive).find? (fun j => (jobCores s (jobAt s j)).contains c)

/-- Is a core of a fenced job standing still until the job retires (R265). -/
def coreFencing (k : Core) : Bool := k.seq.run == .fenced && k.seq.job.isSome

/-- The fence record a fault writes: the core's tag, bundle and layer tick where a core faulted (spec/12, Table 10). -/
def fenceRecOf (s : State) (i : FaultInfo) : FenceRec :=
  match i.pcore with
  | some c =>
    let q := (coreAt s c).seq
    { pcore := BitVec.ofNat 8 c.val, region := i.region, ltag := q.tag, bundle := q.lastBundle, ltick := q.ltick,
      detail0 := i.detail0, detail1 := i.detail1 }
  | none =>
    { pcore := 0xFF#8, region := i.region, ltag := 0, bundle := 0, ltick := 0, detail0 := i.detail0, detail1 := i.detail1 }

/-- Does fencing apply to a job in this state. -/
def canFence (j : Job) : Bool :=
  match j.state with
  | .running | .stopped => true
  | _ => false

/-- Fence a job: it becomes FENCING with the record of its first fault, and its member cores stop (R265). -/
def fenceJob (j : JobId) (i : FaultInfo) (s : State) : State :=
  if canFence (jobAt s j) then
    let s1 := modJob s j (fun b => { b with state := .fencing, status := i.status, fence := fenceRecOf s i })
    { s1 with cores := Vector.ofFn (fun c : CoreId =>
        let k := coreAt s1 c
        if k.seq.job = some j then { k with seq := { k.seq with run := .fenced } } else k) }
  else s

/-- Fence the job of a core; a core without one has nothing to fence. -/
def fenceCore (c : CoreId) (i : FaultInfo) (s : State) : State :=
  match jobOf s c with
  | some j => fenceJob j i s
  | none => s

/-- A fault of a core with no details. -/
def flt (st : Status) (c : CoreId) : FaultInfo :=
  { status := st, pcore := some c, region := BitVec.ofNat 8 (regionOf c).val, detail0 := 0, detail1 := 0 }

/-- A fault of a core with its two details. -/
def fltD (st : Status) (c : CoreId) (d0 d1 : Nat) : FaultInfo :=
  { status := st, pcore := some c, region := BitVec.ofNat 8 (regionOf c).val,
    detail0 := BitVec.ofNat 32 d0, detail1 := BitVec.ofNat 32 d1 }

/-- The peer field of a fence record that names none (spec/12, Table 11). -/
def noPeer : Nat := 0xFFFFFFFF

/-- Record a fault that reaches a core's sequencer in this tick (R280, R281). -/
def raiseFault (c : CoreId) (rank : Nat) (i : FaultInfo) (s : State) : State :=
  modRegion s (regionOf c) (fun g => { g with faults := g.faults ++ [{ core := c, rank := rank, info := i }] })

/-- The fault that is acted on first: the lowest rank, then the lowest core (R281). -/
def firstRanked : List FaultRec → Option FaultRec
  | [] => none
  | f :: r =>
    match firstRanked r with
    | none => some f
    | some g => if g.rank < f.rank ∨ (g.rank = f.rank ∧ g.core.val < f.core.val) then some g else some f

/-- The first fault of each core among faults of one job (R281). -/
def firstOfCores (fs : List FaultRec) : List FaultRec :=
  ((fs.map (fun f => f.core)).eraseDups).filterMap (fun c => firstRanked (fs.filter (fun f => decide (f.core = c))))

/-- A job is fenced by the fault that is reported first: of one core, that of R281; of several, one of theirs. R265 leaves open
whose, and R277 makes it the same on every run: it depends on the faulting cores alone (log entry 21). -/
def fenceReported (j : JobId) (fs : List FaultRec) (s : State) : State :=
  match firstOfCores fs with
  | [] => s
  | f :: r =>
    let n := Config.firstReported (fs.map (fun g => g.core.val)).eraseDups
    fenceJob j ((f :: r).getD (if r.isEmpty then 0 else n % (r.length + 1)) f).info s

/-- The faults that a region's tick has met fence their jobs (R265, R281). -/
def settleFaults (r : RegionId) (s : State) : State :=
  let fs := (regionAt s r).faults
  let s0 := modRegion s r (fun g => { g with faults := [] })
  (coresOf r).foldl (fun u c =>
    match jobOf u c with
    | none => u
    | some j => fenceReported j (fs.filter (fun f => decide (jobOf s f.core = some j))) u) s0

/-- Ranks of R281: ECC_UNCORRECTED first. Each command is a step of its own: a unit's, a watchdog's and an outside fence that comes
with its own command reaches the sequencer ahead of the next tick's faults (log entry 98). -/
def rankEcc : Nat := 0
/-- Then operations in progress, by issue and slot. -/
def rankOp (issued : Nat) : Nat := 1 + issued
/-- Then issue faults by slot; a START failure, slot 0, ahead of slots K to C, 1 to 5 (R390). -/
def rankIssue (slot : Nat) : Nat := 2 ^ 80 + slot
/-- Then unit faults: Q0 to Q15 are 0 to 15, K0 to K7 16 to 23, CH0 to CH31 24 to 55. -/
def rankUnit (n : Nat) : Nat := 2 ^ 81 + n
/-- Then watchdogs. -/
def rankWatchdog : Nat := 2 ^ 82
/-- Then fences from outside the core. -/
def rankOutside : Nat := 2 ^ 83

/-- The rank of a step that fails at tick `t`: an operation of the bundle of that tick ranks with its issue faults, by slot; an
earlier one is in progress (R281). -/
def opRank (t issued : Nat) : Nat := if issued / 8 = t then rankIssue (issued % 8 + 1) else rankOp issued

/-- Insert a result by its tick and, within a tick, by its issue (R46). -/
def pendInsert (p : Pend) : List Pend → List Pend
  | [] => [p]
  | q :: r =>
    if p.due < q.due ∨ (p.due = q.due ∧ p.issued < q.issued) then p :: q :: r else q :: pendInsert p r

/-- A core with a result on its way. -/
def pushPend (k : Core) (p : Pend) : Core := { k with pend := pendInsert p k.pend }

/-- A core with several results on their way. -/
def pushPends (k : Core) (ps : List Pend) : Core := ps.foldl pushPend k

/-- The rank of an issue in a core: its tick and its slot, K = 0, A = 1, V = 2, S = 3, C = 4 (R46). -/
def issueKey (t slot : Nat) : Nat := t * 8 + slot

/-- A second of latency profile 2 is in force (R48, R49): profile numbers other than 2 take the figures of profile 1. -/
def isProf2 (p : BitVec 3) : Bool := p == 1#3

/-- How often a use touches its unit at tick `t`. -/
def usesAt (u : PortUse) (t : Nat) : Nat :=
  if u.first ≤ t ∧ (if u.step = 0 then t = u.first else (t - u.first) % u.step = 0 ∧ (t - u.first) / u.step < u.count)
  then 1 else 0

/-- The last tick of a use. -/
def lastUse (u : PortUse) : Nat := u.first + u.step * (u.count - 1)

/-- Accesses of a kind to a unit at a tick. -/
def portLoad (us : List PortUse) (unit : Nat) (w : Bool) (t : Nat) : Nat :=
  (us.filter (fun u => u.unit == unit && u.isWrite == w)).foldl (fun a u => a + usesAt u t) 0

/-- Would one more use keep every tick within the limit of the port (R103, R148, R149). -/
def portFits (us : List PortUse) (n : PortUse) (limit : Nat) : Bool :=
  (List.range n.count).all (fun i => decide (portLoad us n.unit n.isWrite (n.first + i * n.step) < limit))

/-- Would several more uses fit, taken in order: two reads and one write per unit and tick. -/
def portsFit : List PortUse → List PortUse → Bool
  | _, [] => true
  | us, n :: r => portFits us n (if n.isWrite then 1 else 2) && portsFit (us ++ [n]) r

/-- As `portsFit` with one access of any kind per tick: bank reads (R149). -/
def bankFit : List PortUse → List PortUse → Bool
  | _, [] => true
  | us, n :: r => portFits us n 1 && bankFit (us ++ [n]) r

/-- Does an earlier operation still use a unit at a tick after `t` (R99). -/
def stillUsed (us : List PortUse) (unit t : Nat) : Bool :=
  us.any (fun u => u.unit == unit && decide (0 < u.count) && decide (t < lastUse u))

/-- Uses that still matter at tick `t`. -/
def pruneUses (us : List PortUse) (t : Nat) : List PortUse := us.filter (fun u => decide (t ≤ lastUse u))

/-- A hold condition of a core (R32; spec/02, Table 8). -/
def holdOn (c : CoreId) (cause : BitVec 2) (q d0 d1 : Nat) : HoldCond :=
  { cause := cause, queue := BitVec.ofNat 6 q, core := some c, detail0 := BitVec.ofNat 32 d0, detail1 := BitVec.ofNat 32 d1
    arm := none }

/-- A waiting read of stream queue `q` that finds too few entries. -/
def holdQueue (c : CoreId) (q : QId) : HoldCond := holdOn c 0b01#2 (0x10 + q.val) (0x10 + q.val) noPeer

/-- The order of R38: the lowest core within the region, and within it the lowest queue index. -/
def holdFirst (a b : HoldCond) : HoldCond :=
  let k (h : HoldCond) : Nat := (match h.core with | some c => c.val % 4 | none => 0) * 64 + h.queue.toNat
  if k b < k a then b else a

/-- The condition recorded for an event that these conditions start (R38). -/
def holdChoice : List HoldCond → HoldCond
  | [] => { cause := 0b11#2, queue := 0x3F#6, core := none, detail0 := 0, detail1 := 0, arm := none }
  | h :: r => r.foldl holdFirst h

/-- The jobs that have started in a region and have not ended there, each once: the first START has taken effect, and no fence has
stopped the core (R41). -/
def jobsIn (s : State) (r : RegionId) : List JobId :=
  ((coresOf r).filterMap (fun c =>
    let q := (coreAt s c).seq
    if q.firstStart || q.run == .fenced then none else q.job)).eraseDups

/-- Count hold events and held periods of a region towards its jobs (R41). An event that began before a job's start in the region
counts no event for that job; its later periods count (DEDUCED, log entry 97). -/
def countHolds (r : RegionId) (events ticks : Nat) (s : State) : State :=
  (jobsIn s r).foldl (fun u j => modJob u j (fun b =>
    { b with holdEvents := BitVec.ofNat 32 (satAdd 32 b.holdEvents.toNat events),
             holdTicks := BitVec.ofNat 32 (satAdd 32 b.holdTicks.toNat ticks) })) s

/-- The region enters, or stays in, a hold with these unmet conditions; the first period of an event counts it (R37, R41). -/
def holdBegin (r : RegionId) (ws : List HoldCond) (s0 : State) : State :=
  let s := if (regionAt s0 r).hold.isNone then countHolds r 1 0 s0 else s0
  modRegion s r (fun g =>
    match g.hold with
    | some _ => { g with waits := g.waits ++ ws }
    | none =>
      let h := holdChoice ws
      let core2 : BitVec 2 :=
        if 0x10 ≤ h.queue.toNat ∧ h.queue.toNat ≤ 0x1F ∨ 4 ≤ h.queue.toNat ∧ h.queue.toNat < 0x10 then
          (match h.core with | some c => BitVec.ofNat 2 (c.val % 4) | none => 0)
        else 0
      { g with
        hold := some { cause := h.cause, queue := h.queue, core := core2, tick := BitVec.ofNat 32 g.tick.toNat,
                       periods := 0, crossing := 0 }
        waits := ws
        tallyEvents := BitVec.ofNat 64 (satAdd 64 g.tallyEvents.toNat 1) })

/-- The hold ends: TALLY_HOLD_LAST takes the event (R37, R38). -/
def holdEnd (r : RegionId) (s : State) : State :=
  modRegion s r (fun g =>
    match g.hold with
    | none => g
    | some h =>
      { g with
        hold := none, waits := [], heldOps := []
        tallyLast := { cause := h.cause, queue := h.queue, core := h.core, tick := h.tick,
                       periods := BitVec.ofNat 16 (Nat.min h.periods 0xFFFF) } })

/-- The meaning of a slot instruction: the core that issues it, the condition it waits on, the fault it meets at issue, and
its effect (R30, R32, R280). -/
structure Issue where
  core : CoreId
  wait : State → Option HoldCond
  fault : State → Option FaultInfo
  effect : State → State

/-- The tick of a core's units: a stopped core's stands still, as its units do (R284). -/
def unitNow (s : State) (c : CoreId) : Nat :=
  let q := (coreAt s c).seq
  if q.run = .stopped then q.stoppedAt.toNat else nowAt s c

/-- Has a core's part of its job ended: the trailing bundles of its last layer have issued (R96). -/
def partOver (q : Seq) : Bool := q.finishing && decide (q.trailing = 0)

/-- A core may issue: it runs a job, and its region is neither held nor switching its clock (R20, R33). -/
def canIssue (s : State) (c : CoreId) : Bool :=
  (coreAt s c).seq.run == .running && (regionAt s (regionOf c)).hold.isNone &&
    !(regionAt s (regionOf c)).switching

/-- The issue of one slot instruction on its own: an unmet wait holds the region with the instruction, a fault fences the
job, and otherwise the effect takes place. A core that may not issue does nothing. -/
def runIssue (x : Issue) (i : Instr) (s : State) : State :=
  if canIssue s x.core then
    match x.wait s with
    | some h =>
      modRegion (holdBegin (regionOf x.core) [h] s) (regionOf x.core) (fun g => { g with heldOps := g.heldOps ++ [i] })
    | none =>
      match x.fault s with
      | some f => fenceCore x.core f s
      | none => x.effect s
  else s

/-- Does a compute region run: it is neither asleep nor on its way to wake (R338, R339). -/
def regionRuns (s : State) (r : RegionId) : Bool := s.power.regs.get ⟨r.val, by omega⟩ == .running

/-- No wait. -/
def noWait : State → Option HoldCond := fun _ => none

/-- No fault. -/
def noFault : State → Option FaultInfo := fun _ => none

/-- The first of several checks that applies. -/
def firstFault (c : CoreId) : List (Bool × Status) → Option FaultInfo
  | [] => none
  | (b, st) :: r => if b then some (flt st c) else firstFault c r

end Sys2Proof.Machine
end

