-- ==== Sys2Proof/Machine/Tiles.lean ====
section
/-! DEFINITION. Tile registers: configuration, reading, writing and releasing (R98 to R104). -/

namespace Sys2Proof.Machine

/-- A tile register of a core. -/
def tileOf (k : Core) (t : TReg) : Tile := k.tiles.get t

/-- Tile register number `n`, as far as it exists. -/
def tileNo (k : Core) (n : Nat) : Option Tile := if h : n < 32 then some (k.tiles.get ⟨n, h⟩) else none

/-- A core with a tile register changed. -/
def modTile (k : Core) (t : TReg) (f : Tile → Tile) : Core :=
  { k with tiles := k.tiles.set t.val (f (tileOf k t)) t.isLt }

/-- Row bytes of a configuration (spec/04, Table 8). -/
def cfgRowBytes (c : TileCfg) : Nat := c.rowb.toNat * 16

/-- The format of a configuration; a reserved code has none (R7). -/
def cfgFormat (c : TileCfg) : Option Format := formatOfCode c.fmt.toNat

/-- Elements per row. -/
def cfgElems (c : TileCfg) : Nat :=
  match cfgFormat c with
  | some f => cfgRowBytes c * 8 / elemBits f.elem
  | none => 0

/-- Is this a configuration that R98 accepts. -/
def cfgValid (c : TileCfg) : Bool :=
  decide (1 ≤ c.rows.toNat ∧ c.rows.toNat ≤ 128) && decide (1 ≤ c.rowb.toNat ∧ c.rowb.toNat ≤ 16) &&
    (match cfgFormat c with
      | none => false
      | some f =>
        (decide (elemBits f.elem ≠ 6) || decide (cfgRowBytes c % 48 = 0)) &&
          decide (cfgRowBytes c * 8 % elemBits f.elem = 0) &&
          (!f.mx || (if c.axis then decide (c.rows.toNat % 32 = 0) else decide (cfgElems c % 32 = 0))))

/-- A byte of a row of a tile; an empty tile's rows hold nothing (R100). -/
def tileByte (t : Tile) (r b : Nat) : Byte := memGet t.data (r * cfgRowBytes t.cfg + b)

/-- The bits of element (r, c) (R52). -/
def tileBits (t : Tile) (f : Elem) (r c : Nat) : Nat := rowElem f (tileByte t r) c

/-- The place of element (r, c)'s scale in the scale plane (R54). -/
def scaleAt (axis : Bool) (r c : Nat) : Nat := if axis then r / 32 * 512 + c else r * 16 + c / 32

/-- A scale byte; a byte not written reads 0x7F (R100). -/
def tileScale (t : Tile) (i : Nat) : Byte := cellGet 0x7F#8 t.scales i

/-- The exact value of element (r, c) with its block scale (R53, R54). -/
def tileValue (t : Tile) (r c : Nat) : Num :=
  match cfgFormat t.cfg with
  | none => .nan
  | some f => scaledValue f (tileBits t f.elem r c) (tileScale t (scaleAt t.cfg.axis r c)).toNat

/-- A tile register with bytes and scale bytes written: the first write to an empty tile makes it non-empty, with every
other row 0 and every other scale 0x7F (R100). -/
def tileWrite (t : Tile) (bytes scales : List (Nat × Byte)) : Tile :=
  let d0 := if t.empty then [] else t.data
  let s0 := if t.empty then [] else t.scales
  { t with
    empty := false
    data := bytes.foldl (fun m e => memSet m e.1 e.2) d0
    scales := scales.foldl (fun m e => cellSet 0x7F#8 m e.1 e.2) s0 }

/-- A tile register made empty (R100, R101). -/
def tileEmpty (t : Tile) : Tile := { t with empty := true, data := [], scales := [] }

/-- A new configuration: one that differs empties the tile, an identical one changes nothing (R99). -/
def tileConfigure (t : Tile) (c : TileCfg) : Tile := if c = t.cfg then t else { tileEmpty t with cfg := c }

/-- The bytes of row `r`, keyed by their place in the tile's element storage. -/
def rowCells (t : TileCfg) (r : Nat) (bs : List Byte) : List (Nat × Byte) :=
  (List.range bs.length).map (fun i => (r * cfgRowBytes t + i, bs.getD i 0#8))

/-- A result on its way that gives a tile another configuration; an identical one changes nothing (R99). -/
def changesTile (k : Core) (t : TReg) : Eff → Bool
  | .tcfg u cfg => u == t && decide (cfg ≠ (tileOf k t).cfg)
  | _ => false

/-- A result on its way that releases a tile; a release of an empty tile has no effect (R101). -/
def releasesTile (k : Core) (t : TReg) : Eff → Bool
  | .release m => m.getLsbD t.val && !(tileOf k t).empty
  | _ => false

/-- Does the bundle in issue change, under these uses that run on after `now`, one of their tiles (R99; "tile being changed"). -/
def tileChanging (k : Core) (now : Nat) (uses : List PortUse) : Bool :=
  k.pend.any (fun p => uses.any (fun u =>
    decide (now < lastUse u) && (if h : u.unit < 32 then changesTile k ⟨u.unit, h⟩ p.eff else false)))

/-- Does the bundle in issue release a tile under these uses (spec/06, Table 3: "changed or released"). -/
def tileReleasing (k : Core) (now : Nat) (uses : List PortUse) : Bool :=
  k.pend.any (fun p => uses.any (fun u =>
    decide (now < lastUse u) && (if h : u.unit < 32 then releasesTile k ⟨u.unit, h⟩ p.eff else false)))

/-- The tiles that the bundle in issue changes or releases, as they stand: an operation of the same bundle reads these (R101). -/
def tilesKept (k : Core) : List (Nat × Tile) :=
  ((List.finRange 32).filter (fun t => k.pend.any (fun p => changesTile k t p.eff || releasesTile k t p.eff))).map
    (fun t => (t.val, tileOf k t))

/-- A core as the tick-`t` step of an operation sees its tiles: the configurations of its issue (R94, R102); a tile that its own
bundle changed or released as it was (R101); and, for an operation issued before `t`, the rows as the tick found them, since a
read in the tick of a write returns the old row (R103). -/
def opView (o : Strm) (t : Nat) (found : Vector Tile 32) (k : Core) : Core :=
  { k with tiles := Vector.ofFn (fun i =>
      match o.kept.find? (fun e => e.1 == i.val) with
      | some e => e.2
      | none => { (if o.issued / 8 < t then found.get i else tileOf k i) with cfg := o.cfgs.get i }) }

/-- One access to a tile in each of `count` ticks. -/
def tileUse (t first step count : Nat) (w : Bool) (issued : Nat) : PortUse :=
  { unit := t, isWrite := w, first := first, step := step, count := count, issued := issued }

/-- Do these uses of tile ports exceed the ports, or meet a change of a tile (R99, R103). -/
def tileConflict (k : Core) (now : Nat) (uses : List PortUse) : Bool :=
  !(portsFit k.tileUse uses) || tileChanging k now uses

/-- Do these uses exceed the ports alone: the A slot knows no other conflict of tiles (R103; spec/05, Table 5). -/
def tilePorts (k : Core) (uses : List PortUse) : Bool := !(portsFit k.tileUse uses)

/-- A core that has taken these uses of tile ports. -/
def takeTiles (k : Core) (uses : List PortUse) : Core := { k with tileUse := k.tileUse ++ uses }

/-- The configuration a TCFG instruction carries (spec/04, Table 8). -/
def tcfgOf (rows : Byte) (rowb fmt : BitVec 5) (axis : Bool) : TileCfg :=
  { rows := rows, rowb := rowb, fmt := fmt, axis := axis }

/-- TCFG: a new configuration from the next tick; a configuration outside R98, or a change under an operation still using the
tile, faults (R98, R99). -/
def tcfgIssue (c : CoreId) (t : TReg) (cfg : TileCfg) : Issue :=
  { core := c
    wait := noWait
    fault := fun s =>
      let k := coreAt s c
      firstFault c
        [(!cfgValid cfg, .tileConfig),
         (decide (cfg ≠ (tileOf k t).cfg) && stillUsed k.tileUse t.val (nowAt s c), .tileConfig)]
    effect := fun s =>
      let now := nowAt s c
      modCore s c (fun k => pushPend k { due := now + 1, issued := issueKey now 0, eff := .tcfg t cfg }) }

/-- A release of the tiles of a mask from the next tick; releasing an empty tile has no effect, and emptying a tile that an
operation still uses faults (R99, R101). -/
def relIssue (c : CoreId) (mask : Core → BitVec 32) : Issue :=
  { core := c
    wait := noWait
    fault := fun s =>
      let k := coreAt s c
      firstFault c
        [((List.finRange 32).any (fun t =>
            (mask k).getLsbD t.val && !(tileOf k t).empty && stillUsed k.tileUse t.val (nowAt s c)), .tileConfig)]
    effect := fun s =>
      let now := nowAt s c
      modCore s c (fun k => pushPend k { due := now + 1, issued := issueKey now 0, eff := .release (mask k) }) }

/-- TREL: the mask is bits [31:0] of a scalar. -/
def trelIssue (c : CoreId) (rs : SReg) : Issue := relIssue c (fun k => (sreg k rs).setWidth 32)

/-- TRELI: one tile. -/
def treliIssue (c : CoreId) (t : TReg) : Issue := relIssue c (fun _ => 1#32 <<< t.val)

/-- TCFG (R98, R99). -/
def execTcfg (c : CoreId) (t : TReg) (rows : Byte) (rowb fmt : BitVec 5) (axis : Bool) (s : State) :
    Host.Outcome State Fault Refusal :=
  .next (runIssue (tcfgIssue c t (tcfgOf rows rowb fmt axis)) (.tcfg c t rows rowb fmt axis) s)

/-- TREL (R101). -/
def execTrel (c : CoreId) (rs : SReg) (s : State) : Host.Outcome State Fault Refusal :=
  .next (runIssue (trelIssue c rs) (.trel c rs) s)

/-- TRELI (R101). -/
def execTreli (c : CoreId) (t : TReg) (s : State) : Host.Outcome State Fault Refusal :=
  .next (runIssue (treliIssue c t) (.treli c t) s)

end Sys2Proof.Machine
end

