-- ==== Sys2Proof/WellFormed.lean ====
section
/-! DEFINITION. The commands whose fields hold no reserved encoding: what the loader lets a slot hold (R83, R130, R144, R151,
R168). -/

namespace Sys2Proof

/-- The FUNC codes of the vector engine that Table 4 of spec/07 gives a derivative: ReLU, GELU, SiLU, sigmoid, tanh. -/
def hasDerivative (f : Nat) : Bool := decide (1 ≤ f ∧ f ≤ 5)

/-- MMA: encoding 0b11 of G is reserved (R130). -/
def wfMma (x : MmaFields) : Bool := decide (x.g.val ≠ 3)

/-- WLD: encoding 0b11 of the sparsity and source fields is reserved (R130). -/
def wfWld (x : WldFields) : Bool := decide (x.sparsity.val ≠ 3) && decide (x.src.val ≠ 3)

/-- VDRN: reserved function and mode codes, SAVE outside plain mode, and a derivative that Table 4 does not list (R151,
R168). -/
def wfVdrn (x : VdrnFields) : Bool :=
  decide (x.func.val < 12) && decide (x.mode.val ≠ 3) && (!x.save || decide (x.mode.val = 0)) &&
    (decide (x.mode.val ≠ 2) || hasDerivative x.func.val)

/-- VOP: sub-operations above 0x6 are reserved (R154). -/
def wfVop (x : VopFields) : Bool := decide (x.op.val ≤ 6)

/-- VFN: FUNC codes 0xC to 0xF are reserved (R152). -/
def wfVfn (x : VfnFields) : Bool := decide (x.func.val < 12)

/-- VRED: operations above 0x4 are reserved (R156). -/
def wfVred (x : VredFields) : Bool := decide (x.op.val ≤ 4)

/-- FSEND: TTL 0 or above 67, a tile source past T31 or with a flit count, a queue source with bit 14 or a tile count set
(R144). -/
def wfFsend (x : FsendFields) : Bool :=
  decide (1 ≤ x.ttl.val ∧ x.ttl.val ≤ 67) &&
    (if x.queue then decide (x.src.val < 16) && decide (x.gM1.val = 0)
     else decide (x.src.val + x.gM1.val ≤ 31) && decide (x.flitsM1.val = 0))

/-- The command holds no reserved encoding. Commands whose fields have none are well formed. -/
def Instr.wf : Instr → Bool
  | .mma _ x => wfMma x
  | .wld _ x => wfWld x
  | .vdrn _ x => wfVdrn x
  | .vop _ x => wfVop x
  | .vfn _ x => wfVfn x
  | .vred _ x => wfVred x
  | .fsend _ x => wfFsend x
  | _ => true

end Sys2Proof
end

