-- ==== Sys2Proof/Machine/Arrays.lean ====
section
/-! DEFINITION. The matrix arrays: weights, passes, accumulator banks and checksums (R106 to R126). -/

namespace Sys2Proof.Machine

/-- An array of a core. -/
def arrOf (k : Core) (m : Fin 4) : Arr := k.arrs.get m

/-- A core with an array changed. -/
def modArr (k : Core) (m : Fin 4) (f : Arr → Arr) : Core := { k with arrs := k.arrs.set m.val (f (arrOf k m)) m.isLt }

/-- The arrays of a mask. -/
def maskList (mask : Fin 16) : List (Fin 4) := (List.finRange 4).filter (fun m => bitOf mask.val m.val)

/-- The mask that names array `m` alone. -/
def oneMask (m : Fin 4) : Fin 16 := ⟨2 ^ m.val, Nat.pow_lt_pow_right (by decide) m.isLt⟩

/-- A core with every array of a mask changed. -/
def modArrs (k : Core) (mask : Fin 16) (f : Arr → Arr) : Core := (maskList mask).foldl (fun k m => modArr k m f) k

/-- The physical bank a relative bank field selects (R116). -/
def physBank (a : Arr) (b : Bool) : Bool := xor b a.fill

/-- A bank of an array. -/
def bankOf (a : Arr) (b : Bool) : AccBank := if b then a.acc1 else a.acc0

/-- An array with a bank changed. -/
def modBank (a : Arr) (b : Bool) (f : AccBank → AccBank) : Arr :=
  if b then { a with acc1 := f a.acc1 } else { a with acc0 := f a.acc0 }

/-- The cleared element of a class: -0 in float class, 0 in integer class (R59). -/
def clearElem (int : Bool) : AccElem := if int then { bits := 0, int := true } else { bits := 0x80000000#32, int := false }

/-- A checksum entry as a clearing pass leaves it. -/
def clearCk : CkEntry := { bits := 0x80000000#32, val := 0, sat := false }

/-- Weights that hold nothing, with all-zero bits (R115). -/
def emptyWeights : Weights :=
  { kind := .empty, fmt := 0, axisCols := false, k := 0, n := 0, cells := [], scales := [], mbytes := [], scaleAxis := false,
    ckWest := [], ckNorth := [] }

/-- Weight slots per cell: 2 for FP4, FP6 and INT4 with or without block scales, else 1 (R106). -/
def slotsPerCell (f : Format) : Nat := if elemBits f.elem ≤ 6 then 2 else 1

/-- Is a format an operand of the arrays (R56). -/
def isOperand (f : Format) : Bool := isFloatClass f || isIntClass f

/-- The rate class of a format: 0 for 4- and 6-bit, 1 for 8-bit, 2 for 16-bit (R109). -/
def rateClass (f : Format) : Nat := if elemBits f.elem ≤ 6 then 0 else if elemBits f.elem = 8 then 1 else 2

/-- Ticks per operand row (spec/05, Table 2). -/
def passInterval (w x : Format) : Nat :=
  match rateClass w, rateClass x with
  | 0, 0 => 1
  | 0, 1 => 2
  | 0, _ => 4
  | 1, 2 => 2
  | 1, _ => 1
  | _, _ => 2

/-- The array latency W: 262 ticks in profile 1 and 258 in profile 2 (R110). -/
def arrayW (p : BitVec 3) : Nat := if isProf2 p then 258 else 262

/-- The bank read latency Rb = W - 132 (R110). -/
def arrayRb (p : BitVec 3) : Nat := arrayW p - 132

/-- How many dense indices a stored slot stands for: 1, 2 for 2:4 and 4 for 2:8. -/
def sparseFactor : WKind → Nat
  | .s24 => 2
  | .s28 => 4
  | _ => 1

/-- Is the weights' load axis the reduction axis of the edge (R107). -/
def servesEdge (w : Weights) (north : Bool) : Bool := w.axisCols == north

/-- The reduction extent of a pass from an edge. -/
def passK (w : Weights) (north : Bool) : Nat := if servesEdge w north then w.k else w.n

/-- The output extent of a pass from an edge. -/
def passN (w : Weights) (north : Bool) : Nat := if servesEdge w north then w.n else w.k

/-- The cell of tile element (r, c): slots lie along the load axis (R107). Each slot of a cell is 16 bits of its own: a cell written under
one slot count and read under another gives its slot 0 as it stands (DESIGN CHOICE, log entry 112). -/
def cellKey (d : Nat) (axisCols : Bool) (r c : Nat) : Nat :=
  if d = 1 then (r * 128 + c) * 2
  else if axisCols then (r * 128 + c / 2) * 2 + c % 2
  else (r / 2 * 128 + c) * 2 + r % 2

/-- The exact value of the stored weight (r, c) with its block scale. -/
def weightValue (w : Weights) (f : Format) (r c : Nat) : Num :=
  let bits := (cellGet 0#16 w.cells (cellKey (slotsPerCell f) w.axisCols r c)).toNat
  scaledValue f (bits % 2 ^ elemBits f.elem) (cellGet 0x7F#8 w.scales (scaleAt w.scaleAxis r c)).toNat

/-- The stored weight at reduction slot `i` and output line `j` of an edge. -/
def weightAt (w : Weights) (f : Format) (north : Bool) (i j : Nat) : Num :=
  if north then weightValue w f j i else weightValue w f i j

/-- The two kept positions of a group's metadata byte (R119). -/
def keptPair (w : Weights) (g j : Nat) : Nat × Nat :=
  let b := (cellGet 0#8 w.mbytes (g * 256 + j)).toNat
  (b % 8, b / 8 % 8)

/-- The updates of output line `j` in order, each the list of products it adds with one rounding (R57, R58, R120). -/
def passUpdates (w : Weights) (wf : Format) (north : Bool) (x : List Num) (j : Nat) : List (List Num) :=
  let d := slotsPerCell wf
  let prod (slot idx : Nat) : Num := numMul (x.getD idx .nan) (weightAt w wf north slot j)
  match w.kind with
  | .empty => []
  | .dense =>
    let n := x.length
    if d = 1 then (List.range n).map (fun k => [prod k k])
    else (List.range ((n + 1) / 2)).map (fun m =>
      if 2 * m + 1 < n then [prod (2 * m) (2 * m), prod (2 * m + 1) (2 * m + 1)] else [prod (2 * m) (2 * m)])
  | k =>
    let span := 2 * sparseFactor k
    (List.range (x.length / span)).flatMap (fun g =>
      let (i0, i1) := keptPair w g j
      let a := prod (2 * g) (g * span + i0)
      let b := prod (2 * g + 1) (g * span + i1)
      if d = 1 then [[a], [b]] else [[a, b]])

/-- The exact integer of a value of the integer class. -/
def numInt : Num → Int
  | .fin s m e => (if s then -1 else 1) * ((m * 2 ^ e.toNat : Nat) : Int)
  | _ => 0

/-- The exact sum of an update's products. -/
def sumProducts : List Num → Num
  | [] => .fin false 0 0
  | p :: r => r.foldl numAdd p

/-- An integer update, exact or saturated (R60): the value and whether it saturated. -/
def satInt32 (v : Int) : Int × Bool :=
  if v < -2147483648 then (-2147483648, true) else if 2147483647 < v then (2147483647, true) else (v, false)

/-- The accumulator after a sequence of updates, with the count of saturated ones (R58, R60). -/
def accumulate (int : Bool) (acc : BitVec 32) (ups : List (List Num)) : BitVec 32 × Nat :=
  if int then
    let r := ups.foldl (fun (a : Int × Nat) u =>
      let x := satInt32 (a.1 + numInt (sumProducts u))
      (x.1, a.2 + (if x.2 then 1 else 0))) (acc.toInt, 0)
    (BitVec.ofInt 32 r.1, r.2)
  else (ups.foldl (fun (a : BitVec 32) u => BitVec.ofNat 32 (toFp32 (numAdd (fp32 a.toNat) (sumProducts u)))) acc, 0)

/-- The tile registers array `m` of a pass reads (R108). -/
def mmaTiles (x : MmaFields) (m : Fin 4) : List Nat :=
  let g := 2 ^ x.g.val
  (List.range g).map (fun i => x.base.val + m.val * g + i)

/-- The pass's interval on array `m`, from the active weights' and the operand's formats. -/
def mmaInterval (k : Core) (x : MmaFields) (m : Fin 4) : Nat :=
  match formatOfCode (arrOf k m).active.fmt.toNat, (tileNo k (x.base.val + m.val * 2 ^ x.g.val)).bind (fun t => cfgFormat t.cfg) with
  | some wf, some xf => passInterval wf xf
  | _, _ => 1

/-- The tile uses of a pass: one read per operand row and register (R103). -/
def mmaUses (k : Core) (x : MmaFields) (now : Nat) : List PortUse :=
  (maskList x.mask).flatMap (fun m =>
    (mmaTiles x m).map (fun t => tileUse t now (mmaInterval k x m) (x.nM1.val + 1) false (issueKey now 1)))

/-- Do the shapes, formats, classes and edge of a pass on array `m` fit (R106 to R108, R117). -/
def mmaShapeOk (k : Core) (x : MmaFields) (m : Fin 4) : Bool :=
  let a := arrOf k m
  let w := a.active
  let ts := mmaTiles x m
  let n := x.nM1.val + 1
  match tileNo k (ts.getD 0 32), formatOfCode w.fmt.toNat with
  | some t, some wf =>
    match cfgFormat t.cfg with
    | some xf =>
      ts.all (fun i => decide (i < 32)) &&
      ts.all (fun i => match tileNo k i with | some u => decide (u.cfg = t.cfg) | none => false) &&
      isOperand xf && (isFloatClass xf == isFloatClass wf) &&
      decide (2 ^ x.g.val * cfgElems t.cfg = passK w x.north) &&
      decide (x.first.val + n ≤ t.cfg.rows.toNat) && decide (x.acc.val + n ≤ 128) &&
      (!xf.mx || !t.cfg.axis) &&
      (!wf.mx || (w.scaleAxis == !x.north)) &&
      ((decide (slotsPerCell wf = 1) && decide (w.kind = .dense)) || servesEdge w x.north) &&
      (x.clr || ((bankOf a (physBank a x.bank)).int == isIntClass wf))
    | none => false
  | _, _ => false

/-- Does array `m` meet an empty operand or empty weights. -/
def mmaEmpty (k : Core) (x : MmaFields) (m : Fin 4) : Bool :=
  decide ((arrOf k m).active.kind = .empty) ||
    (mmaTiles x m).any (fun i => match tileNo k i with | some t => t.empty | none => false)

/-- The arrays with a pass's registers taken: the class of a cleared bank, the held feed and the row stream (R112, R117). -/
def mmaStart (k : Core) (x : MmaFields) (now : Nat) (m : Fin 4) : Core :=
  let p := mmaInterval k x m
  let int := match formatOfCode (arrOf k m).active.fmt.toNat with | some f => isIntClass f | none => false
  let b := physBank (arrOf k m) x.bank
  modArr k m (fun a =>
    let a1 := if x.clr then modBank a b (fun z => { z with int := int }) else a
    { a1 with feedUntil := now + (x.nM1.val + 1) * p })

/-- A stream of an operation on one core with nothing captured but the layer configuration, the profile and the tiles'
configurations. -/
def strmOf (k : Core) (i : Instr) (issued t0 step count : Nat) : Strm :=
  { instr := i, issued := issued, t0 := t0, step := step, count := count, next := 0, cfg := k.live, prof := k.seq.latprof,
    cfgs := vmap (fun u => u.cfg) k.tiles, kept := tilesKept k, s0 := 0, s1 := 0, banks := 0, bytes := [], rows := [], vals := [] }

/-- The physical banks a bank field selects, one bit per array (R116). -/
def banksOf (k : Core) (b : Bool) : BitVec 4 :=
  BitVec.ofNat 4 ((List.finRange 4).foldl (fun a m => a + bitNat (physBank (arrOf k m) b) * 2 ^ m.val) 0)

/-- MMA (R106 to R112, R117). One row stream per array of the mask; its array is the one bit of the stream's mask. -/
def mmaIssue (c : CoreId) (x : MmaFields) : Issue :=
  { core := c
    wait := noWait
    fault := fun s =>
      let k := coreAt s c
      let now := nowAt s c
      firstFault c
        [((maskList x.mask).any (mmaEmpty k x), .tileEmpty),
         (!(maskList x.mask).all (mmaShapeOk k x), .shapeMismatch),
         ((maskList x.mask).any (fun m => decide (now < (arrOf k m).feedUntil)) || tilePorts k (mmaUses k x now),
          .resourceConflict)]
    effect := fun s =>
      let now := nowAt s c
      modCore s c (fun k =>
        let banks := banksOf k x.bank
        let strms := (maskList x.mask).map (fun m =>
          let one : MmaFields := { x with mask := oneMask m }
          let o := strmOf k (.mma c one) (issueKey now 1) now (mmaInterval k x m) (x.nM1.val + 1)
          { o with banks := banks })
        let k1 := takeTiles k (mmaUses k x now)
        let k2 := (maskList x.mask).foldl (fun k m => mmaStart k x now m) k1
        { k2 with ops := k2.ops ++ strms }) }

/-- Operand row `i` of a pass enters array `m`: its values are read and the active weights of this tick are the ones it meets
(R110, R114). -/
def mmaRow (k : Core) (o : Strm) (x : MmaFields) (m : Fin 4) (t : Nat) : Core :=
  let r := x.first.val + o.next
  let a := arrOf k m
  let w := a.active
  let vals := (mmaTiles x m).flatMap (fun i =>
    match tileNo k i with
    | some u =>
      let f := (cfgFormat u.cfg).getD ⟨.int8, false⟩
      (List.range (cfgElems u.cfg)).map (fun c =>
        (tileBits u f.elem r c, (tileScale u (scaleAt u.cfg.axis r c)).toNat))
    | none => [])
  let xfmt := match tileNo k ((mmaTiles x m).getD 0 0) with | some u => u.cfg.fmt | none => 0
  let int := match formatOfCode w.fmt.toNat with | some f => isIntClass f | none => false
  let ctl := o.cfg.ckctl.get m
  let chk := if (if x.north then ctl.enN else ctl.enW) then some ctl.tol else none
  let row : ArrRow :=
    { issued := o.issued, t := t, bank := o.banks.getLsbD m.val, row := x.acc.val + o.next, clr := x.clr, int := int,
      north := x.north, outs := passN w x.north, next := 0, x := vals, xfmt := xfmt, w := w, chk := chk, prof := o.prof }
  modArr k m (fun a => { a with rowsIn := a.rowsIn ++ [row] })

/-- The operand values of a row inside an array. -/
def rowValues (r : ArrRow) : List Num :=
  match formatOfCode r.xfmt.toNat with
  | some f => r.x.map (fun e => scaledValue f e.1 e.2)
  | none => []

/-- The checksum entry of a row after its updates (R124). -/
def ckAfter (r : ArrRow) (xs : List Num) (old : CkEntry) : CkEntry :=
  let line := if r.north then r.w.ckNorth else r.w.ckWest
  let d := match formatOfCode r.w.fmt.toNat with | some f => slotsPerCell f | none => 1
  let s (k : Nat) : Num :=
    if r.int then (let v := cellGet 0 line k; .fin (decide (v < 0)) v.natAbs 0)
    else fp32 (cellGet 0 line k).toNat
  let prod (k : Nat) : Num := numMul (xs.getD k .nan) (s k)
  let n := xs.length
  let ups : List (List Num) :=
    if d = 1 then (List.range n).map (fun k => [prod k])
    else (List.range ((n + 1) / 2)).map (fun m =>
      if 2 * m + 1 < n then [prod (2 * m), prod (2 * m + 1)] else [prod (2 * m)])
  let base := if r.clr then clearCk else old
  if r.int then (let v := ups.foldl (fun (a : Int) u => a + numInt (sumProducts u)) base.val; { base with val := v })
  else (let b := (accumulate false base.bits ups).1; { base with bits := b })

/-- Output line `j` of a row is read from its bank at its tick; its result is on its way to the write tick, and the checksum
with the last line (R110, R117, R124, R125). -/
def arrLine (k : Core) (m : Fin 4) (r : ArrRow) (j : Nat) : List Pend :=
  let b := bankOf (arrOf k m) r.bank
  let due := r.t + arrayW r.prof + j
  let mk (e : Eff) : Pend := { due := due, issued := r.issued, eff := e }
  let clears := if r.clr ∧ j = 0 then [mk (.ckClear m r.bank r.row)] else []
  let elem :=
    if j < r.outs then
      let xs := rowValues r
      let wf := (formatOfCode r.w.fmt.toNat).getD ⟨.int8, false⟩
      let old := if r.clr then (clearElem r.int).bits else (storeGet b.elems (r.row * 128 + j)).bits
      let z := accumulate r.int old (passUpdates r.w wf r.north xs j)
      [mk (.acc m r.bank r.row j { bits := z.1, int := r.int } z.2)]
    else if r.clr then [mk (.acc m r.bank r.row j (clearElem r.int) 0)]
    else []
  let cks :=
    match r.chk with
    | some tol =>
      if j + 1 = r.outs then
        [mk (.ck m r.bank r.row (ckAfter r (rowValues r) (cellGet clearCk b.ck r.row))),
         mk (.rowSum m r.bank r.row tol r.int (if r.clr then r.outs else 128) (due + 6) r.issued)]
      else []
    | none => []
  clears ++ elem ++ cks

/-- The bank reads of an array's rows in tick `t` (R110). -/
def arrReads (k : Core) (m : Fin 4) (t : Nat) : Core :=
  let due (r : ArrRow) : Bool := decide (r.next < 128) && decide (r.t + arrayRb r.prof + r.next = t)
  let ps := (arrOf k m).rowsIn.flatMap (fun r => if due r then arrLine k m r r.next else [])
  let k1 := modArr k m (fun a =>
    let moved := a.rowsIn.map (fun r => if due r then { r with next := r.next + 1 } else r)
    { a with rowsIn := moved.filter (fun r => decide (r.next < 128)) })
  pushPends k1 ps

/-- The sum and the sum of magnitudes of a float row's first `n` columns, formed in FP32 in increasing column order (R125). -/
def rowSums (b : AccBank) (row n : Nat) : Num × Num :=
  (List.range n).foldl (fun (a : Num × Num) j =>
    let v := fp32 (storeGet b.elems (row * 128 + j)).bits.toNat
    (fp32 (toFp32 (numAdd a.1 v)), numAdd a.2 (match v with | .fin _ m e => .fin false m e | .inf _ => .inf false | .nan => .nan)))
    (.fin true 0 0, .fin false 0 0)

/-- Is a value finite. -/
def numFinite : Num → Bool
  | .fin _ _ _ => true
  | _ => false

/-- The magnitude of a value. -/
def numAbs : Num → Num
  | .fin _ m e => .fin false m e
  | .inf _ => .inf false
  | .nan => .nan

/-- The comparison of R125: whether one is made and whether the row mismatches. -/
def ckMismatch (b : AccBank) (row n : Nat) (int : Bool) (tol : BitVec 5) : Bool × Bool :=
  let e := cellGet clearCk b.ck row
  if int then
    let d := (List.range n).foldl (fun (a : Int) j => a + (storeGet b.elems (row * 128 + j)).bits.toInt) 0
    (!e.sat, !e.sat && decide ((BitVec.ofInt 64 e.val) ≠ BitVec.ofInt 64 d))
  else
    let cv := fp32 e.bits.toNat
    let (d, mags) := rowSums b row n
    let made := numFinite cv && numFinite d && numFinite mags
    let diff := numAbs (numAdd cv (numNeg d))
    let lim := numAdd (numMul (.fin false 1 (-(tol.toNat : Int))) (numAdd (numAbs cv) mags)) (.fin false 1 (-126))
    (made, made && numLt lim diff)

/-- The row's last write has landed: the comparison is made on the row as it stands, ahead of the writes of a later pass, and is
recorded 6 ticks later (R111, R125). -/
def ckSum (k : Core) (m : Fin 4) (bank : Bool) (row : Nat) (tol : BitVec 5) (int : Bool) (n due issued : Nat) : Core :=
  let r := ckMismatch (bankOf (arrOf k m) bank) row n int tol
  pushPend k { due := due, issued := issued, eff := .compare m bank row r.1 r.2 }

/-- CHECKSUM_COMPARE's effect: ARR_CKSTAT counts the row, and a mismatch is recorded (R125). -/
def ckCompare (k : Core) (m : Fin 4) (bank : Bool) (row : Nat) (made bad : Bool) : Core :=
  modArr k m (fun a =>
    let a1 := if made then { a with ckChecked := BitVec.ofNat 32 (satAdd 32 a.ckChecked.toNat 1) } else a
    if bad then { a1 with ckRow := BitVec.ofNat 7 row, ckBank := bank, ckMismatch := true } else a1)

/-- WSWAP: shadow and active weights of the mask's arrays are exchanged at the end of the tick (R114). -/
def wswapIssue (c : CoreId) (mask : Fin 16) : Issue :=
  { core := c, wait := noWait, fault := noFault,
    effect := fun s =>
      let now := nowAt s c
      modCore s c (fun k => pushPend k { due := now + 1, issued := issueKey now 1, eff := .swap mask }) }

/-- ABSW: the fill bit of the mask's arrays is inverted from the next tick (R116). -/
def abswIssue (c : CoreId) (mask : Fin 16) : Issue :=
  { core := c, wait := noWait, fault := noFault,
    effect := fun s =>
      let now := nowAt s c
      modCore s c (fun k => pushPend k { due := now + 1, issued := issueKey now 1, eff := .absw mask }) }

/-- ACLR: the bank's class changes now, and every element is cleared one tick later (R117). -/
def aclrIssue (c : CoreId) (mask : Fin 16) (bank int : Bool) : Issue :=
  { core := c, wait := noWait, fault := noFault,
    effect := fun s =>
      let now := nowAt s c
      modCore s c (fun k => (maskList mask).foldl (fun k m =>
        let b := physBank (arrOf k m) bank
        let k1 := modArr k m (fun a => modBank a b (fun z => { z with int := int }))
        pushPend k1 { due := now + 1, issued := issueKey now 1, eff := .aclr m b int }) k) }

/-- Exchange of an array's weights (R114). -/
def swapWeights (a : Arr) : Arr := { a with active := a.shadow, shadow := a.active }

/-- A bank with every element cleared (R117). -/
def clearBank (z : AccBank) (int : Bool) : AccBank := { z with elems := storeOf (clearElem int), ck := [] }

/-- The metadata tile is used by a sparse load. -/
def wldSparse (x : WldFields) : Bool := x.sparsity.val == 1 || x.sparsity.val == 2

/-- The kind of weights a load makes. -/
def wldKind (x : WldFields) : WKind := if x.sparsity.val = 0 then .dense else if x.sparsity.val = 1 then .s24 else .s28

/-- Stacked registers of a load (R107). -/
def wldG (x : WldFields) : Nat := if x.gw2 then 2 else 1

/-- The stored extent along the load axis (R107). -/
def wldStored (x : WldFields) (cfg : TileCfg) : Nat :=
  if x.axisCols then cfgElems cfg else cfg.rows.toNat * wldG x

/-- The output extent of a load. -/
def wldN (x : WldFields) (cfg : TileCfg) : Nat := if x.axisCols then cfg.rows.toNat else cfgElems cfg

/-- Element bytes of one register of the weight operand. -/
def cfgBytes (cfg : TileCfg) : Nat := cfg.rows.toNat * cfgRowBytes cfg

/-- Do a load's extents and formats fit (R107, R119, R124). -/
def wldShapeOk (k : Core) (x : WldFields) : Bool :=
  let cfg := (tileOf k x.tile).cfg
  let stored := wldStored x cfg
  let groups := stored / 2
  match cfgFormat cfg with
  | none => false
  | some f =>
    isOperand f && !(x.gw2 && x.axisCols) &&
    (!x.gw2 || (match tileNo k (x.tile.val + 1) with | some u => decide (u.cfg = cfg) | none => false)) &&
    decide (stored ≤ 128 * slotsPerCell f) && decide (wldN x cfg ≤ 128) &&
    (!wldSparse x ||
      ((match f.elem with
          | .e4m3 | .e5m2 | .e3m2 | .e2m3 | .e2m1 | .int8 | .int4 => true
          | _ => false) &&
        (maskList x.mask).all (fun m =>
          let ctl := k.live.ckctl.get m
          !(if x.axisCols then ctl.enN else ctl.enW)) &&
        (let mc := (tileOf k x.mtile).cfg
         decide (cfgFormat mc = some ⟨.uint8, false⟩) &&
          (if x.axisCols then decide (mc.rows.toNat = wldN x cfg) && decide (cfgRowBytes mc = groups)
           else decide (mc.rows.toNat = groups) && decide (cfgRowBytes mc = wldN x cfg)))))

/-- The chunks of a load in feed order: which part (0 and 1 the stacked registers, 2 the metadata) and its byte range. From
tile registers the bytes of all parts follow one another, 2,048 per tick; from the Flume each part is its own train, with a
scale flit (part 3 or 4) after the element flits of a block-scaled register (R113, R139, R140). -/
def wldChunks (k : Core) (x : WldFields) : List (List (Nat × Nat × Nat)) :=
  let cfg := (tileOf k x.tile).cfg
  let wb := cfgBytes cfg
  let mb := if wldSparse x then cfgBytes (tileOf k x.mtile).cfg else 0
  let parts : List (Nat × Nat) := [(0, wb)] ++ (if x.gw2 then [(1, wb)] else []) ++ (if wldSparse x then [(2, mb)] else [])
  if x.src.val = 0 then
    let total := parts.foldl (fun a p => a + p.2) 0
    (List.range (ceilDiv total 2048)).map (fun i =>
      let lo := 2048 * i
      let hi := Nat.min total (lo + 2048)
      (parts.foldl (fun (a : Nat × List (Nat × Nat × Nat)) p =>
        let b0 := Nat.max lo a.1
        let b1 := Nat.min hi (a.1 + p.2)
        (a.1 + p.2, if b0 < b1 then a.2 ++ [(p.1, b0 - a.1, b1 - a.1)] else a.2)) (0, [])).2)
  else
    let mx := match cfgFormat cfg with | some f => f.mx | none => false
    parts.flatMap (fun p =>
      (List.range (ceilDiv p.2 2048)).map (fun i => [(p.1, 2048 * i, Nat.min p.2 (2048 * i + 2048))]) ++
        (if mx && decide (p.1 < 2) then [[(p.1 + 3, 0, 2048)]] else []))

/-- Ticks a load holds the weight feed (R113, R140). -/
def wldTicks (k : Core) (x : WldFields) : Nat := (wldChunks k x).length

/-- The register of a part of a load. -/
def wldPartTile (x : WldFields) (part : Nat) : Nat := if part = 2 then x.mtile.val else x.tile.val + part

/-- The tile reads of a load from tile registers, one per part and tick. -/
def wldUses (k : Core) (x : WldFields) (now : Nat) : List PortUse :=
  if x.src.val = 0 then
    ((List.range (wldTicks k x)).zip (wldChunks k x)).flatMap (fun p =>
      p.2.map (fun q => tileUse (wldPartTile x q.1) (now + p.1) 1 1 false (issueKey now 1)))
  else []

/-- The form of a load (R107). -/
def wldForm (x : WldFields) (cfg : TileCfg) : WForm :=
  { kind := wldKind x, fmt := cfg.fmt, axisCols := x.axisCols
    k := wldStored x cfg * sparseFactor (wldKind x), n := wldN x cfg
    scaleAxis := cfg.axis }

/-- Weights in the form of a load: the bits that stand in the cells are read in it from then on (R114). -/
def takeForm (f : WForm) (w : Weights) : Weights :=
  { w with kind := f.kind, fmt := f.fmt, axisCols := f.axisCols, k := f.k, n := f.n, scaleAxis := f.scaleAxis }

/-- The ring direction of a load's source: 1 is CW inbound, 2 is CCW inbound (spec/05, Table 4). -/
def wldDir (x : WldFields) : Dir := if x.src.val = 2 then .ccw else .cw

/-- Does an operation in progress capture from a direction at tick `t` (R140). -/
def capturesAt (o : Strm) (d : Dir) (t : Nat) : Bool :=
  (match o.instr with
    | .frcv _ e _ => decide (e = d)
    | .wld _ x => decide (x.src.val ≠ 0) && decide (wldDir x = d)
    | _ => false) && decide (o.t0 ≤ t) && decide (t < o.t0 + o.count)

/-- Would a capture of `count` flits from tick `t` be a third one in some tick (R140). -/
def captureFull (k : Core) (d : Dir) (t count : Nat) : Bool :=
  (List.range count).any (fun i => decide (2 ≤ (k.ops.filter (fun o => capturesAt o d (t + i))).length))

/-- WLD (R107, R113, R119, R140). -/
def wldIssue (c : CoreId) (x : WldFields) : Issue :=
  { core := c
    wait := noWait
    fault := fun s =>
      let k := coreAt s c
      let now := nowAt s c
      let empty (n : Nat) : Bool := match tileNo k n with | some t => t.empty | none => false
      firstFault c
        [(decide (x.src.val = 0) && (empty x.tile.val || (x.gw2 && empty (x.tile.val + 1)) ||
            (wldSparse x && empty x.mtile.val)), .tileEmpty),
         (!wldShapeOk k x, .shapeMismatch),
         (decide (now < k.weightFeedUntil) || tilePorts k (wldUses k x now) ||
            (decide (x.src.val ≠ 0) && captureFull k (wldDir x) now (wldTicks k x)), .resourceConflict)]
    effect := fun s =>
      let now := nowAt s c
      modCore s c (fun k =>
        let n := wldTicks k x
        let k1 := takeTiles k (wldUses k x now)
        { k1 with weightFeedUntil := now + n, ops := k1.ops ++ [strmOf k (.wld c x) (issueKey now 1) now 1 n] }) }

/-- The elements of a part whose last byte lies in `[lo, hi)`, as (row, column). -/
def elemsIn (cfg : TileCfg) (f : Format) (lo hi : Nat) : List (Nat × Nat) :=
  let rb := cfgRowBytes cfg
  let w := elemBits f.elem
  ((List.range cfg.rows.toNat).filter (fun r => decide (r * rb < hi) && decide (lo < (r + 1) * rb))).flatMap (fun r =>
    ((List.range (cfgElems cfg)).filter (fun c =>
      let last := r * rb + ((c + 1) * w - 1) / 8
      decide (lo ≤ last) && decide (last < hi))).map (fun c => (r, c)))

/-- The byte a load's stream holds for byte `b` of a part: parts lie at multiples of 65,536. -/
def partByte (m : List (Nat × Byte)) (part b : Nat) : Byte := cellGet 0#8 m (part * 65536 + b)

/-- Is a metadata byte of 2:4 or 2:8 weights in order (R120). -/
def metaOk (k : WKind) (b : Byte) : Bool :=
  let i0 := b.toNat % 8
  let i1 := b.toNat / 8 % 8
  decide (i0 < i1) && (decide (k ≠ .s24) || decide (i1 < 4))

/-- What one chunk of a load writes: the cells, scales and metadata bytes of the part ranges, and whether a metadata byte is
bad (R113, R119, R120). `m` holds the bytes of every part read so far. -/
def chunkWrites (k : Core) (x : WldFields) (m : List (Nat × Byte)) (ps : List (Nat × Nat × Nat)) :
    List (Nat × BitVec 16) × List (Nat × Byte) × List (Nat × Byte) × Bool :=
  let cfg := (tileOf k x.tile).cfg
  let f := (cfgFormat cfg).getD ⟨.int8, false⟩
  let d := slotsPerCell f
  let cells := ps.flatMap (fun p =>
    if p.1 < 2 then
      (elemsIn cfg f p.2.1 p.2.2).map (fun e =>
        let bits := rowElem f.elem (fun b => partByte m p.1 (e.1 * cfgRowBytes cfg + b)) e.2
        (cellKey d x.axisCols (p.1 * cfg.rows.toNat + e.1) e.2, BitVec.ofNat 16 bits))
    else [])
  let scales := ps.flatMap (fun p =>
    if 3 ≤ p.1 then
      (List.range 2048).map (fun i =>
        let off := (p.1 - 3) * (if cfg.axis then cfg.rows.toNat / 32 * 512 else cfg.rows.toNat * 16)
        (off + i, partByte m p.1 i))
    else [])
  let mc := (tileOf k x.mtile).cfg
  let metas := ps.flatMap (fun p =>
    if p.1 = 2 then
      (List.range (p.2.2 - p.2.1)).map (fun i =>
        let b := p.2.1 + i
        let r := b / cfgRowBytes mc
        let q := b % cfgRowBytes mc
        ((if x.axisCols then q * 256 + r else r * 256 + q), partByte m 2 b))
    else [])
  (cells, scales, metas, metas.any (fun e => !metaOk (wldKind x) e.2))

/-- The scale plane bytes of the operand registers of a load from tile registers, by their place in the stacked plane. -/
def tileScales (k : Core) (x : WldFields) : List (Nat × Byte) :=
  let cfg := (tileOf k x.tile).cfg
  match cfgFormat cfg with
  | some f =>
    if f.mx then
      (List.range (wldG x)).flatMap (fun g =>
        match tileNo k (x.tile.val + g) with
        | some t =>
          let off := g * (if cfg.axis then cfg.rows.toNat / 32 * 512 else cfg.rows.toNat * 16)
          (List.range 2048).map (fun i => (off + i, tileScale t i))
        | none => [])
    else []
  | none => []

/-- The checksum line of an edge: for each reduction index, the sum of the weights over the output lines, exact in integer
class and rounded once to FP32 in float class (R124). -/
def ckLine (w : Weights) (north : Bool) : List (Nat × Int) :=
  match formatOfCode w.fmt.toNat with
  | none => []
  | some f =>
    (List.range (passK w north)).map (fun i =>
      let ws := (List.range (passN w north)).map (fun j => weightAt w f north i j)
      let tot := sumProducts ws
      (i, if isIntClass f then numInt tot else (toFp32 tot : Int)))

/-- A load's chunk `o.next` arrives at tick `t` with the bytes of its parts; its shadow write comes 2 ticks later, the
checksum lines with the last (R113, R124). The scale plane of a load from tile registers reaches the shadow with chunk 0 (DESIGN CHOICE,
log entry 113). -/
def wldChunk (k : Core) (o : Strm) (x : WldFields) (t : Nat) (got : List (Nat × Byte)) : Core :=
  let ps := (wldChunks k x).getD o.next []
  let (cells, scales, metas, bad) := chunkWrites k x got ps
  let sc := if o.next = 0 ∧ x.src.val = 0 then tileScales k x else scales
  let last := decide (o.next + 1 = o.count)
  let cfg := (tileOf k x.tile).cfg
  let checked := (maskList x.mask).any (fun m => (o.cfg.ckctl.get m).enW || (o.cfg.ckctl.get m).enN)
  let form := wldForm x cfg
  let w0 := takeForm form emptyWeights
  let whole : Weights :=
    if last ∧ checked ∧ wldKind x = .dense then
      let all := (List.range (wldG x)).map (fun g => (g, 0, cfgBytes cfg))
      let z := chunkWrites k x got all
      let allSc := if x.src.val = 0 then tileScales k x
        else (chunkWrites k x got ((List.range (wldG x)).map (fun g => (g + 3, 0, 2048)))).2.1
      { w0 with cells := z.1.foldl (fun a e => cellSet 0#16 a e.1 e.2) [],
                scales := allSc.foldl (fun a e => cellSet 0x7F#8 a e.1 e.2) [] }
    else w0
  let cw := if last ∧ checked then ckLine whole false else []
  let cn := if last ∧ checked then ckLine whole true else []
  pushPend k { due := t + 2, issued := o.issued, eff := .shadow x.mask form cells sc metas bad cw cn }

/-- The 2,048 bytes that chunk `i` of a load takes from tile registers, its parts one after another (R113). -/
def wldTileBytes (k : Core) (x : WldFields) (i : Nat) : List Byte :=
  let ps := (wldChunks k x).getD i []
  let bs := ps.flatMap (fun p =>
    match tileNo k (wldPartTile x p.1) with
    | some t => (List.range (p.2.2 - p.2.1)).map (fun b => memGet t.data (p.2.1 + b))
    | none => [])
  bs ++ List.replicate (2048 - bs.length) 0#8

/-- The bytes of every part that a load has taken, from its chunks of 2,048 bytes. -/
def wldGot (k : Core) (x : WldFields) (bytes : List Byte) : List (Nat × Byte) :=
  let cs := wldChunks k x
  ((List.range cs.length).filter (fun i => decide (2048 * i < bytes.length))).foldl (fun m i =>
    let chunk := (bytes.drop (2048 * i)).take 2048
    ((cs.getD i []).foldl (fun (a : Nat × List (Nat × Byte)) p =>
      let n := p.2.2 - p.2.1
      (a.1 + n, (List.range n).foldl (fun m b => cellSet 0#8 m (p.1 * 65536 + p.2.1 + b) (chunk.getD (a.1 + b) 0)) a.2))
      (0, m)).2) []

/-- SHADOW_WEIGHT_WRITE's effect on one array: the shadow takes the load's form, the cells, scales, metadata and checksum lines
(R113, R114). -/
def shadowWrite (a : Arr) (form : WForm) (cells : List (Nat × BitVec 16)) (scales metas : List (Nat × Byte)) (cw cn : List (Nat × Int)) :
    Arr :=
  let w := takeForm form a.shadow
  { a with shadow := { w with
      cells := cells.foldl (fun m e => cellSet 0#16 m e.1 e.2) w.cells
      scales := scales.foldl (fun m e => cellSet 0x7F#8 m e.1 e.2) w.scales
      mbytes := metas.foldl (fun m e => cellSet 0#8 m e.1 e.2) w.mbytes
      ckWest := if cw.isEmpty then w.ckWest else cw
      ckNorth := if cn.isEmpty then w.ckNorth else cn } }

/-- A refused slot instruction: its fields hold a reserved encoding (R83). -/
def refuseReserved (mnemonic : String) : Host.Outcome State Fault Refusal := .refused (.reservedEncoding mnemonic)

/-- MMA (R110). -/
def execMma (c : CoreId) (x : MmaFields) (s : State) : Host.Outcome State Fault Refusal :=
  if wfMma x then .next (runIssue (mmaIssue c x) (.mma c x) s) else refuseReserved "MMA"

/-- WLD (R113). -/
def execWld (c : CoreId) (x : WldFields) (s : State) : Host.Outcome State Fault Refusal :=
  if wfWld x then .next (runIssue (wldIssue c x) (.wld c x) s) else refuseReserved "WLD"

/-- WSWAP (R114). -/
def execWswap (c : CoreId) (mask : Fin 16) (s : State) : Host.Outcome State Fault Refusal :=
  .next (runIssue (wswapIssue c mask) (.wswap c mask) s)

/-- ABSW (R116). -/
def execAbsw (c : CoreId) (mask : Fin 16) (s : State) : Host.Outcome State Fault Refusal :=
  .next (runIssue (abswIssue c mask) (.absw c mask) s)

/-- ACLR (R117). -/
def execAclr (c : CoreId) (mask : Fin 16) (bank int : Bool) (s : State) : Host.Outcome State Fault Refusal :=
  .next (runIssue (aclrIssue c mask bank int) (.aclr c mask bank int) s)

end Sys2Proof.Machine
end

