-- ==== Sys2Proof/Machine/Bundle.lean ====
section
/-! DEFINITION. The 256-bit bundle and the slot encodings (R81 to R83; spec/04 Tables 2 to 4, 05 Table 4, 06 Table 2, 07
Table 10, 09 Table 5, 10 Table 5, 14 Table 6). -/

namespace Sys2Proof.Machine

/-- What a slot holds: nothing to do, an undefined opcode, a reserved bit or encoding, or an instruction. -/
inductive SlotDec where
  | idle
  | undefined
  | reserved
  | op (i : Instr)
  deriving DecidableEq, Repr

/-- Field `[lo + w - 1 : lo]` as an element of `Fin (2 ^ w)`. -/
def finField (x lo w : Nat) : Fin (2 ^ w) := ⟨fieldOf x lo w, Nat.mod_lt _ (Nat.two_pow_pos w)⟩

/-- A direction field: 0b0 = CW, 0b1 = CCW. -/
def dirOf (b : Bool) : Dir := if b then .ccw else .cw

/-- No bit outside the opcode and the listed fields (low bit, width) is set. -/
def onlyFields (x : Nat) (fs : List (Nat × Nat)) : Bool :=
  packFields (((0, 8) :: fs).map (fun f => (f.1, fieldOf x f.1 f.2))) == x

/-- An instruction whose slot sets the bits of the listed fields only, and whose fields hold no reserved encoding. -/
def slotOf (x : Nat) (fs : List (Nat × Nat)) (i : Instr) : SlotDec :=
  if onlyFields x fs && i.wf then .op i else .reserved

/-- Opcode 0x00 idles (R82); a bit beyond it is assigned to no field (R83). -/
def slotIdle (w : Nat) : SlotDec := if w = 0 then .idle else .reserved

/-- The K slot (spec/04, Tables 3, 4 and 8; R173; spec/14, Table 6). -/
def decodeK (c : CoreId) (w : Nat) : SlotDec :=
  match w % 256 with
  | 0x00 => slotIdle w
  | 0x01 => slotOf w [(8, 6), (14, 6), (20, 6)]
      (.sadd c (finField w 8 6) (finField w 14 6) (finField w 20 6))
  | 0x02 => slotOf w [(8, 6), (14, 6), (20, 6)]
      (.ssub c (finField w 8 6) (finField w 14 6) (finField w 20 6))
  | 0x03 => slotOf w [(8, 6), (14, 6), (20, 6)]
      (.sand c (finField w 8 6) (finField w 14 6) (finField w 20 6))
  | 0x04 => slotOf w [(8, 6), (14, 6), (20, 6)]
      (.sor c (finField w 8 6) (finField w 14 6) (finField w 20 6))
  | 0x05 => slotOf w [(8, 6), (14, 6), (20, 6)]
      (.sxor c (finField w 8 6) (finField w 14 6) (finField w 20 6))
  | 0x06 => slotOf w [(8, 6), (14, 6), (20, 6)]
      (.sshl c (finField w 8 6) (finField w 14 6) (finField w 20 6))
  | 0x07 => slotOf w [(8, 6), (14, 6), (20, 6)]
      (.sshr c (finField w 8 6) (finField w 14 6) (finField w 20 6))
  | 0x08 => slotOf w [(8, 6), (14, 6), (20, 6)]
      (.ssra c (finField w 8 6) (finField w 14 6) (finField w 20 6))
  | 0x09 => slotOf w [(8, 6), (14, 6), (20, 6)]
      (.slt c (finField w 8 6) (finField w 14 6) (finField w 20 6))
  | 0x0A => slotOf w [(8, 6), (14, 6), (20, 6)]
      (.sltu c (finField w 8 6) (finField w 14 6) (finField w 20 6))
  | 0x0B => slotOf w [(8, 6), (14, 6), (20, 6)]
      (.sseq c (finField w 8 6) (finField w 14 6) (finField w 20 6))
  | 0x0C => slotOf w [(8, 6), (14, 6), (20, 6)]
      (.smul c (finField w 8 6) (finField w 14 6) (finField w 20 6))
  | 0x11 => slotOf w [(8, 6), (14, 6), (20, 12)]
      (.saddi c (finField w 8 6) (finField w 14 6) (BitVec.ofNat 12 (fieldOf w 20 12)))
  | 0x13 => slotOf w [(8, 6), (14, 6), (20, 12)]
      (.sandi c (finField w 8 6) (finField w 14 6) (BitVec.ofNat 12 (fieldOf w 20 12)))
  | 0x14 => slotOf w [(8, 6), (14, 6), (20, 12)]
      (.sori c (finField w 8 6) (finField w 14 6) (BitVec.ofNat 12 (fieldOf w 20 12)))
  | 0x16 => slotOf w [(8, 6), (14, 6), (20, 12)]
      (.sshli c (finField w 8 6) (finField w 14 6) (BitVec.ofNat 12 (fieldOf w 20 12)))
  | 0x17 => slotOf w [(8, 6), (14, 6), (20, 12)]
      (.sshri c (finField w 8 6) (finField w 14 6) (BitVec.ofNat 12 (fieldOf w 20 12)))
  | 0x18 => slotOf w [(8, 6), (14, 18)]
      (.sli c (finField w 8 6) (BitVec.ofNat 18 (fieldOf w 14 18)))
  | 0x1A => slotOf w [(8, 6), (14, 3)]
      (.slc c (finField w 8 6) (finField w 14 3))
  | 0x40 => slotOf w [(8, 3), (11, 10), (21, 11)]
      (.rep c (finField w 8 3) (finField w 11 10) (finField w 21 11))
  | 0x41 => slotOf w [(8, 3), (11, 10), (21, 6)]
      (.reps c (finField w 8 3) (finField w 11 10) (finField w 21 6))
  | 0x48 => slotOf w []
      (.nextLayer c)
  | 0x50 => slotOf w [(8, 4), (12, 3)]
      (.jsel c (finField w 8 4) (finField w 12 3))
  | 0x51 => slotOf w [(8, 4), (12, 3), (15, 10), (25, 5)]
      (.jtrip c (finField w 8 4) (finField w 12 3) (finField w 15 10) (finField w 25 5))
  | 0x52 => slotOf w [(12, 3)]
      (.join c (finField w 12 3))
  | 0x60 => slotOf w [(8, 5), (13, 8), (21, 5), (26, 5), (31, 1)]
      (.tcfg c (finField w 8 5) (BitVec.ofNat 8 (fieldOf w 13 8)) (BitVec.ofNat 5 (fieldOf w 21 5)) (BitVec.ofNat 5 (fieldOf w 26 5)) (bitOf w 31))
  | 0x62 => slotOf w [(8, 6)]
      (.trel c (finField w 8 6))
  | 0x63 => slotOf w [(8, 5)]
      (.treli c (finField w 8 5))
  | 0x64 => slotOf w [(8, 1)]
      (.wclr c (bitOf w 8))
  | 0x70 => slotOf w [(8, 5)]
      (.xsend c (finField w 8 5))
  | 0x71 => slotOf w [(8, 3), (11, 6)]
      (.xwait c (finField w 8 3) (finField w 11 6))
  | 0x72 => slotOf w [(8, 6)]
      (.xsync c (finField w 8 6))
  | _ => .undefined

/-- The A slot (R130; spec/05, Table 4). -/
def decodeA (c : CoreId) (w : Nat) : SlotDec :=
  match w % 256 with
  | 0x00 => slotIdle w
  | 0x01 => slotOf w [(8, 4), (12, 5), (17, 2), (19, 7), (26, 7), (33, 1), (34, 1), (35, 1), (36, 7)]
      (.mma c { mask := finField w 8 4, base := finField w 12 5, g := finField w 17 2, first := finField w 19 7, nM1 := finField w 26 7, north := bitOf w 33, bank := bitOf w 34, clr := bitOf w 35, acc := finField w 36 7 })
  | 0x02 => slotOf w [(8, 4), (12, 5), (17, 1), (18, 1), (19, 2), (21, 5), (26, 2)]
      (.wld c { mask := finField w 8 4, tile := finField w 12 5, gw2 := bitOf w 17, axisCols := bitOf w 18, sparsity := finField w 19 2, mtile := finField w 21 5, src := finField w 26 2 })
  | 0x03 => slotOf w [(8, 4)]
      (.wswap c (finField w 8 4))
  | 0x04 => slotOf w [(8, 4)]
      (.absw c (finField w 8 4))
  | 0x05 => slotOf w [(8, 4), (12, 1), (13, 1)]
      (.aclr c (finField w 8 4) (bitOf w 12) (bitOf w 13))
  | 0x08 => slotOf w [(8, 5), (13, 9)]
      (.mvld c (finField w 8 5) (finField w 13 9))
  | 0x09 => slotOf w [(8, 4), (12, 3), (15, 8), (23, 1), (24, 9), (33, 3), (36, 1), (37, 1)]
      (.mvm c { q := finField w 8 4, vecM1 := finField w 12 3, linesM1 := finField w 15 8, clr := bitOf w 23, e0 := finField w 24 9, lc := finField w 33 3, useLc := bitOf w 36, bank := bitOf w 37 })
  | 0x10 => slotOf w [(8, 2), (10, 1), (11, 1), (12, 7), (19, 7)]
      (.wadd c { arr := finField w 8 2, bank := bitOf w 10, wide := bitOf w 11, row := finField w 12 7, rowsM1 := finField w 19 7 })
  | _ => .undefined

/-- The V slot (R168; spec/07, Table 10). -/
def decodeV (c : CoreId) (w : Nat) : SlotDec :=
  match w % 256 with
  | 0x00 => slotIdle w
  | 0x01 => slotOf w [(8, 4), (12, 1), (13, 1), (14, 7), (21, 7), (28, 1), (29, 5), (34, 7), (41, 4), (45, 2), (47, 1), (48, 1), (49, 5), (54, 1), (55, 1), (56, 1), (57, 2)]
      (.vdrn c { mask := finField w 8 4, bank := bitOf w 12, mv := bitOf w 13, acc := finField w 14 7, nM1 := finField w 21 7, vdst := bitOf w 28, dst := finField w 29 5, e := finField w 34 7, func := finField w 41 4, mode := finField w 45 2, scl := bitOf w 47, bias := bitOf w 48, aux := finField w 49 5, save := bitOf w 54, stat := bitOf w 55, rnd := bitOf w 56, ctx := finField w 57 2 })
  | 0x10 => slotOf w [(8, 5), (13, 3), (16, 7), (23, 6), (29, 6)]
      (.vld c { tile := finField w 8 5, v := finField w 13 3, f := finField w 16 7, r := finField w 23 6, nM1 := finField w 29 6 })
  | 0x11 => slotOf w [(8, 3), (11, 5), (16, 6), (22, 7), (29, 6), (35, 1), (36, 2), (38, 1)]
      (.vst c { v := finField w 8 3, tile := finField w 11 5, r := finField w 16 6, f := finField w 22 7, nM1 := finField w 29 6, rnd := bitOf w 35, ctx := finField w 36 2, stat := bitOf w 38 })
  | 0x20 => slotOf w [(8, 4), (12, 3), (15, 3), (18, 3), (21, 2), (23, 6), (29, 6), (35, 6)]
      (.vop c { op := finField w 8 4, a := finField w 12 3, b := finField w 15 3, d := finField w 18 3, bmode := finField w 21 2, r := finField w 23 6, nM1 := finField w 29 6, q := finField w 35 6 })
  | 0x21 => slotOf w [(8, 4), (12, 3), (15, 3), (18, 6), (24, 6)]
      (.vfn c { func := finField w 8 4, src := finField w 12 3, d := finField w 15 3, r := finField w 18 6, nM1 := finField w 24 6 })
  | 0x22 => slotOf w [(8, 4), (12, 3), (15, 3), (18, 6), (24, 6), (30, 7), (37, 6)]
      (.vred c { op := finField w 8 4, src := finField w 12 3, d := finField w 15 3, r := finField w 18 6, nM1 := finField w 24 6, cM1 := finField w 30 7, q := finField w 37 6 })
  | 0x30 => slotOf w [(8, 3), (11, 3), (14, 6), (20, 6), (26, 1), (27, 1), (28, 5), (33, 1), (34, 6)]
      (.vsmx c { scores := finField w 8 3, p := finField w 11 3, r := finField w 14 6, nM1 := finField w 20 6, ctx := bitOf w 26, init := bitOf w 27, mask := finField w 28 5, maskEn := bitOf w 33, len := finField w 34 6 })
  | 0x31 => slotOf w [(8, 2), (10, 1), (11, 1), (12, 7), (19, 6), (25, 3), (28, 6), (34, 1)]
      (.vresc c { arr := finField w 8 2, bank := bitOf w 10, mv := bitOf w 11, acc := finField w 12 7, nM1 := finField w 19 6, o := finField w 25 3, r := finField w 28 6, ctx := bitOf w 34 })
  | 0x32 => slotOf w [(8, 3), (11, 1), (12, 5), (17, 6), (23, 6), (29, 7), (36, 1), (37, 3), (40, 6)]
      (.vsmxf c { o := finField w 8 3, vdst := bitOf w 11, dst := finField w 12 5, r := finField w 17 6, nM1 := finField w 23 6, dstRow := finField w 29 7, ctx := bitOf w 36, lse := finField w 37 3, q := finField w 40 6 })
  | 0x40 => slotOf w [(8, 1), (9, 7), (16, 7), (23, 1), (24, 5), (29, 7)]
      (.vwcv c { wide := bitOf w 8, f := finField w 9 7, nM1 := finField w 16 7, vdst := bitOf w 23, dst := finField w 24 5, dstRow := finField w 29 7 })
  | 0x50 => slotOf w [(8, 3), (11, 6), (17, 6), (23, 2), (25, 1), (26, 6)]
      (.vrng c { d := finField w 8 3, r := finField w 11 6, nM1 := finField w 17 6, ctx := finField w 23 2, bits := bitOf w 25, thr := finField w 26 6 })
  | 0x60 => slotOf w []
      (.vscln c)
  | _ => .undefined

/-- The S slot (R144, R205; spec/06 Table 2, 09 Table 5). -/
def decodeS (c : CoreId) (w : Nat) : SlotDec :=
  match w % 256 with
  | 0x00 => slotIdle w
  | 0x01 => slotOf w [(8, 4), (12, 6)]
      (.waitq c (finField w 8 4) (finField w 12 6))
  | 0x02 => slotOf w [(8, 4), (12, 6)]
      (.sdrop c (finField w 8 4) (finField w 12 6))
  | 0x03 => slotOf w [(8, 4), (12, 10)]
      (.sdesc c (finField w 8 4) (finField w 12 10))
  | 0x04 => slotOf w [(8, 4)]
      (.sarm c (finField w 8 4))
  | 0x05 => slotOf w [(8, 4)]
      (.sfence c (finField w 8 4))
  | 0x08 => slotOf w [(8, 4), (12, 5), (17, 7), (24, 7)]
      (.sld c (finField w 8 4) (finField w 12 5) (finField w 17 7) (finField w 24 7))
  | 0x09 => slotOf w [(8, 4), (12, 5), (17, 7), (24, 7), (31, 1)]
      (.sput c { q := finField w 8 4, tile := finField w 12 5, f := finField w 17 7, mM1 := finField w 24 7, plane := bitOf w 31 })
  | 0x10 => slotOf w [(8, 3), (11, 6)]
      (.bpush c (finField w 8 3) (finField w 11 6))
  | 0x30 => slotOf w [(8, 1), (9, 1), (10, 5), (15, 2), (17, 7), (24, 9), (33, 8)]
      (.fsend c { dir := dirOf (bitOf w 8), queue := bitOf w 9, src := finField w 10 5, gM1 := finField w 15 2, ttl := finField w 17 7, flitsM1 := finField w 24 9, tag := BitVec.ofNat 8 (fieldOf w 33 8) })
  | 0x31 => slotOf w [(8, 1), (9, 5)]
      (.frcv c (dirOf (bitOf w 8)) (finField w 9 5))
  | 0x32 => slotOf w [(8, 1), (9, 9)]
      (.fxin c (dirOf (bitOf w 8)) (finField w 9 9))
  | _ => .undefined

/-- The C slot (R226; spec/10, Table 5). -/
def decodeC (c : CoreId) (w : Nat) : SlotDec :=
  match w % 256 with
  | 0x00 => slotIdle w
  | 0x01 => slotOf w [(8, 5), (13, 6)]
      (.chOpen c (finField w 8 5) (finField w 13 6))
  | 0x02 => slotOf w [(8, 5)]
      (.chClose c (finField w 8 5))
  | 0x03 => slotOf w [(8, 5), (13, 6)]
      (.csend c (finField w 8 5) (finField w 13 6))
  | 0x04 => slotOf w [(8, 5), (13, 6)]
      (.cack c (finField w 8 5) (finField w 13 6))
  | 0x05 => slotOf w [(8, 5), (13, 6)]
      (.cwait c (finField w 8 5) (finField w 13 6))
  | 0x08 => slotOf w [(8, 3), (11, 6)]
      (.kwait c (finField w 8 3) (finField w 11 6))
  | 0x09 => slotOf w [(8, 3), (11, 4), (15, 7), (22, 7), (29, 1)]
      (.kout c { k := finField w 8 3, q := finField w 11 4, f := finField w 15 7, rowsM1 := finField w 22 7, bf16 := bitOf w 29 })
  | _ => .undefined

/-- The parity bits of a bundle: bit i makes the ones of word i, bits [15:8] apart, even (spec/04, Table 2). -/
def bundleParity (b : Nat) : Nat :=
  packFields ((List.range 8).map (fun i =>
    let w := fieldOf b (32 * i) 32
    let w' := if i = 0 then w - fieldOf w 8 8 * 256 else w
    (i, bitNat (parityOf 32 w'))))

/-- Does the parity of a bundle check (R82). -/
def parityChecks (b : Nat) : Bool := bundleParity b == fieldOf b 8 8

/-- The five slots of a bundle in the order K, A, V, S, C; a slot whose VALID bit is 0 idles (R81, R82). -/
def bundleSlots (c : CoreId) (b : Nat) : List SlotDec :=
  [ if bitOf b 0 then decodeK c (fieldOf b 16 32) else .idle,
    if bitOf b 1 then decodeA c (fieldOf b 48 64) else .idle,
    if bitOf b 2 then decodeV c (fieldOf b 112 64) else .idle,
    if bitOf b 3 then decodeS c (fieldOf b 176 48) else .idle,
    if bitOf b 4 then decodeC c (fieldOf b 224 32) else .idle ]

/-- The instructions of a bundle with their slot numbers 0 to 4 (K, A, V, S, C). A valid slot with a reserved bit or encoding, which the
loader lets into no binary (R83), idles at issue (DESIGN CHOICE, log entry 26), as does opcode 0x00 (R82). -/
def bundleOps (c : CoreId) (b : Nat) : List (Nat × Instr) :=
  ((List.range 5).zip (bundleSlots c b)).filterMap (fun p =>
    match p.2 with
    | .op i => some (p.1, i)
    | _ => none)

end Sys2Proof.Machine
end

