-- ==== Sys2Proof/Machine/Queue.lean ====
section
/-! DEFINITION. Stream queues as the schedule and the Skidder use them: readable entries, bytes, descriptors, release and
pairing (R180 to R193). -/

namespace Sys2Proof.Machine

/-- Bytes of an entry: (ESIZE + 1) times 32 (spec/09, Table 7). -/
def qEntry (q : StreamQ) : Nat := (q.esize.toNat + 1) * 32

/-- The local store address of byte `pos` of a queue's storage, 64 entries laid end to end (R180). -/
def qAddr (q : StreamQ) (pos : Nat) : Nat := q.qbase.toNat * 32 + pos % (64 * qEntry q)

/-- A stream queue of a core. -/
def qOf (k : Core) (q : QId) : StreamQ := k.skd.queues.get q

/-- A core with a stream queue changed. -/
def modQ (k : Core) (q : QId) (f : StreamQ → StreamQ) : Core :=
  { k with skd := { k.skd with queues := k.skd.queues.set q.val (f (qOf k q)) q.isLt } }

/-- The period count of a core's region. -/
def periodAt (s : State) (c : CoreId) : Nat := (regionAt s (regionOf c)).periods.toNat

/-- Readable entries: the leading entries whose last byte landed in an earlier period (R181). -/
def qReadable (q : StreamQ) (period : Nat) : Nat :=
  (q.entries.takeWhile (fun e => e.missing == 0 && decide (e.landPeriod.toNat < period))).length

/-- Bytes a byte consumer may take from the head (R182). -/
def qAvail (q : StreamQ) (period : Nat) : Nat := qReadable q period * qEntry q - q.taken

/-- The byte at offset `i` from the next byte to be taken. -/
def qByte (k : Core) (q : StreamQ) (i : Nat) : Byte :=
  memGet k.store (qAddr q (q.headSlot * qEntry q + q.taken + i))

/-- `n` bytes from the next byte to be taken on. -/
def qPeek (k : Core) (qi : QId) (n : Nat) : List Byte := (List.range n).map (qByte k (qOf k qi))

/-- The queue after `n` whole entries have left the head (R182). -/
def qDropEntries (q : StreamQ) (n : Nat) : StreamQ :=
  { q with entries := q.entries.drop n, headSlot := (q.headSlot + n) % 64, headCount := q.headCount + n, taken := 0 }

/-- The queue after a byte consumer took `n` bytes: an entry leaves when its last byte is taken (R182). -/
def qTake (q : StreamQ) (n : Nat) : StreamQ :=
  let x := q.taken + n
  { qDropEntries q (x / qEntry q) with taken := x % qEntry q }

/-- The first `n` bytes of the head entry, any part already taken included; bytes past the entry read 0 (R182). -/
def qHeadBytes (k : Core) (qi : QId) (n : Nat) : List Byte :=
  let q := qOf k qi
  (List.range n).map (fun i => if i < qEntry q then memGet k.store (qAddr q (q.headSlot * qEntry q + i)) else 0#8)

/-- Free entries of a queue: 64 minus readable minus reserved (R189). -/
def qFree (q : StreamQ) : Nat := 64 - q.entries.length

/-- Bytes waiting in a write queue, and the entries they occupy (R197). -/
def wqEntries (q : StreamQ) (tail : Nat) : Nat :=
  if tail ≤ q.wHead then 0 else (tail - 1) / qEntry q - q.wHead / qEntry q + 1

/-- Does a write queue have the free entries for `n` more bytes (R197). -/
def wqFits (q : StreamQ) (n : Nat) : Bool := decide (wqEntries q (q.wTail + n) ≤ 64)

/-- A write queue with bytes at its end (R197). -/
def wqPut (k : Core) (qi : QId) (bs : List Byte) : Core :=
  let q := qOf k qi
  let st := (List.range bs.length).foldl (fun m i => memSet m (qAddr q (q.wTail + i)) (bs.getD i 0#8)) k.store
  modQ { k with store := st } qi (fun q => { q with wTail := q.wTail + bs.length })

/-- The local store size, 8 MiB (spec/00, Table 8). -/
def storeSize : Nat := 0x800000

/-- The local store that a CSEND or XSEND reads: as it stood 4 ticks before (R212, R309). -/
def sentStore (k : Core) : ByteMem := k.past.getD 3 []

/-- A tick has ended: its local store joins those of the three ticks before. -/
def keepPast (k : Core) : Core := { k with past := k.store :: k.past.take 3 }

/-- A descriptor's 32 bytes at a local store address (spec/09, Table 1). -/
def readDesc (m : ByteMem) (a : Nat) : Desc :=
  { word0 := BitVec.ofNat 64 (memNat m a 8), word1 := BitVec.ofNat 64 (memNat m (a + 8) 8),
    word2 := BitVec.ofNat 64 (memNat m (a + 16) 8), word3 := BitVec.ofNat 64 (memNat m (a + 24) 8) }

/-- The 32 bytes of four words. -/
def descBytes (d : Desc) : List Byte :=
  leBytes 8 d.word0.toNat ++ leBytes 8 d.word1.toNat ++ leBytes 8 d.word2.toNat ++ leBytes 8 d.word3.toNat

/-- KIND (spec/09, Table 1). -/
def dKind (d : Desc) : Nat := fieldOf d.word0.toNat 0 4
/-- SPACE: the core's local store. -/
def dLocal (d : Desc) : Bool := bitOf d.word0.toNat 4
/-- REL. -/
def dRel (d : Desc) : Bool := bitOf d.word0.toNat 5
/-- COUNTED. -/
def dCounted (d : Desc) : Bool := bitOf d.word0.toNat 6
/-- TRANS. -/
def dTrans (d : Desc) : Nat := fieldOf d.word0.toNat 8 2
/-- BUF. -/
def dBuf (d : Desc) : Nat := fieldOf d.word0.toNat 10 2
/-- BIN. -/
def dBin (d : Desc) : Fin 8 := ⟨fieldOf d.word0.toNat 12 3, Nat.mod_lt _ (by decide)⟩
/-- BOUT. -/
def dBout (d : Desc) : Fin 8 := ⟨fieldOf d.word0.toNat 16 3, Nat.mod_lt _ (by decide)⟩
/-- BOUT_EN. -/
def dBoutEn (d : Desc) : Bool := bitOf d.word0.toNat 19
/-- IDXQ. -/
def dIdxq (d : Desc) : Fin 16 := ⟨fieldOf d.word0.toNat 20 4, Nat.mod_lt _ (by decide)⟩
/-- LENGTH in 32-byte units. -/
def dLength (d : Desc) : Nat := fieldOf d.word0.toNat 24 24
/-- ADDR in bytes. -/
def dAddr (d : Desc) : Nat := fieldOf d.word1.toNat 5 43 * 32
/-- ROW in 32-byte units. -/
def dRow (d : Desc) : Nat := fieldOf d.word2.toNat 0 24
/-- STRIDE in 32-byte units. -/
def dStride (d : Desc) : Nat := fieldOf d.word2.toNat 24 40
/-- TAG. -/
def dTag (d : Desc) : BitVec 16 := BitVec.ofNat 16 d.word3.toNat

/-- Row length in units: LENGTH where ROW is 0 (R185). -/
def dRowUnits (d : Desc) : Nat := if dRow d = 0 then dLength d else dRow d

/-- The words of a released descriptor: those a combining queue gave, or the ring slot as it stands (R187). -/
def relWords (k : Core) (qi : QId) (r : RelDesc) : Desc :=
  match r.words with
  | some w => w
  | none => readDesc k.store ((qOf k qi).lbase.toNat * 32 + r.index * 32)

/-- Pair the earliest waiting gather of index queue `x` with a list just released to it (R192). -/
def pairWaiting (k : Core) (x : QId) (list period : Nat) : Core :=
  let waiting : List Nat := (List.finRange 16).flatMap (fun q =>
    ((qOf k q).pairs.filter (fun p => p.list.isNone && p.idxq == x)).map (fun p => p.gather))
  match waiting with
  | [] => k
  | g :: r =>
    let first := r.foldl Nat.min g
    let k1 := (List.finRange 16).foldl (fun k q => modQ k q (fun sq =>
      { sq with pairs := sq.pairs.map (fun p =>
          if p.gather = first then { p with list := some list, pairPeriod := BitVec.ofNat 64 period } else p) })) k
    modQ k1 x (fun sq => { sq with lists := sq.lists.map (fun l => if l.list = list then { l with paired := true } else l) })

/-- Release one descriptor to a queue: it may start from tick `avail`; a gather pairs with the earliest unpaired list of its
IDXQ, and a list with the earliest waiting gather (R187, R192). -/
def releaseDesc (k : Core) (qi : QId) (index : Nat) (words : Option Desc) (avail period : Nat) : Core :=
  let no := k.skd.relCount
  let rd : RelDesc := { index := index, words := words, base := (qOf k qi).base, seqNo := no, avail := avail }
  let d := relWords k qi rd
  let k1 := modQ { k with skd := { k.skd with relCount := no + 1 } } qi (fun q => { q with rel := q.rel ++ [rd] })
  if dKind d = 3 then
    let x := dIdxq d
    match (qOf k1 x).lists.find? (fun l => !l.paired) with
    | some l =>
      let k2 := modQ k1 x (fun sq =>
        { sq with lists := sq.lists.map (fun m => if m.list = l.list then { m with paired := true } else m) })
      modQ k2 qi (fun q => { q with pairs := q.pairs ++
        [{ gather := no, idxq := x, list := some l.list, pairPeriod := BitVec.ofNat 64 period }] })
    | none =>
      modQ k1 qi (fun q => { q with pairs := q.pairs ++ [{ gather := no, idxq := x, list := none, pairPeriod := 0 }] })
  else if dKind d = 4 then
    let k2 := modQ k1 qi (fun q => { q with lists := q.lists ++
      [{ list := no, paired := false, count := none, knownPeriod := 0 }] })
    pairWaiting k2 qi no period
  else k1

/-- The count of a gather, once it is established: the period after the later of the pairing and the count's being known
(R193). -/
def gatherCount (k : Core) (p : GatherPair) (period : Nat) : Option Nat :=
  match p.list with
  | none => none
  | some l =>
    match (qOf k p.idxq).lists.find? (fun x => x.list == l) with
    | none => none
    | some x =>
      match x.count with
      | none => none
      | some e => if Nat.max p.pairPeriod.toNat x.knownPeriod.toNat < period then some e.toNat else none

/-- The count the next JTRIP of queue `q` takes, if it is established (R193). -/
def tripCount (k : Core) (qi : QId) (period : Nat) : Option Nat :=
  let q := qOf k qi
  match q.pairs.drop q.tripsTaken with
  | [] => none
  | p :: _ => gatherCount k p period

end Sys2Proof.Machine
end

