-- ==== Sys2Proof/Machine/Flume.lean ====
section
/-! DEFINITION. The Flume ring: flits, crossings, spans, sending, capturing and forwarding (R131 to R144). -/

namespace Sys2Proof.Machine

/-- A ring register of a position. -/
def ringOf (k : Core) (d : Dir) : Option Flit := match d with | .cw => k.ringCw | .ccw => k.ringCcw

/-- A position with a ring register replaced. -/
def setRing (k : Core) (d : Dir) (f : Option Flit) : Core :=
  match d with | .cw => { k with ringCw := f } | .ccw => { k with ringCcw := f }

/-- The CRC of a flit: its payload and the sideband bytes 0 and 1 with TTL taken as 0 (R133). -/
def flitCrc (payload : List Byte) (tag : Byte) : BitVec 16 := BitVec.ofNat 16 (crc16 (payload ++ [0#8, tag]))

/-- A flit as its sender makes it (R133). -/
def mkFlit (payload : List Byte) (ttl : Nat) (tag : Byte) : Flit :=
  { payload := payload, ttl := BitVec.ofNat 7 ttl, tag := tag, crc := flitCrc payload tag, exited := false }

/-- Does the CRC of a flit check (R141). -/
def flitOk (f : Flit) : Bool := f.crc == flitCrc f.payload f.tag

/-- The next region in a direction (R12). -/
def nextRegion (r : RegionId) (d : Dir) : RegionId :=
  match d with
  | .cw => ⟨(r.val + 1) % 17, Nat.mod_lt _ (by decide)⟩
  | .ccw => ⟨(r.val + 16) % 17, Nat.mod_lt _ (by decide)⟩

/-- The previous region in a direction. -/
def prevRegion (r : RegionId) (d : Dir) : RegionId :=
  match d with | .cw => nextRegion r .ccw | .ccw => nextRegion r .cw

/-- The position at which flits leave a region (R134). -/
def exitPos (r : RegionId) (d : Dir) : CoreId := match d with | .cw => coreOf r 3 | .ccw => coreOf r 0

/-- The position at which flits enter a region (R135). -/
def entryPos (r : RegionId) (d : Dir) : CoreId := match d with | .cw => coreOf r 0 | .ccw => coreOf r 3

/-- The neighbouring positions of the ring (R12). -/
def posNext (c : CoreId) (d : Dir) : CoreId :=
  match d with
  | .cw => ⟨(c.val + 1) % 68, Nat.mod_lt _ (by decide)⟩
  | .ccw => ⟨(c.val + 67) % 68, Nat.mod_lt _ (by decide)⟩

/-- The position before this one in a direction. -/
def posPrev (c : CoreId) (d : Dir) : CoreId := match d with | .cw => posNext c .ccw | .ccw => posNext c .cw

/-- The flit part of a region's inbound crossing. -/
def inboundOf (g : Region) (d : Dir) : List Flit := match d with | .cw => g.inCw | .ccw => g.inCcw

/-- A region with an inbound crossing replaced. -/
def setInbound (g : Region) (d : Dir) (q : List Flit) : Region :=
  match d with | .cw => { g with inCw := q } | .ccw => { g with inCcw := q }

/-- Depth of a crossing queue (R27). -/
def crossingDepth : Nat := 32

/-- Does a region forward its inbound flits itself: every position is a bypass position, or the region sleeps (R136, R339). -/
def allBypass (s : State) (r : RegionId) : Bool := !regionRuns s r || (coresOf r).all (isBypass s)

/-- The job at the nearest position, from `c` against the direction of travel, that is no bypass position. -/
def ownerFrom (s : State) (d : Dir) : Nat → CoreId → Option JobId
  | 0, _ => none
  | n + 1, c => if isBypass s c then ownerFrom s d n (posPrev c d) else jobOf s c

/-- The job whose span contains a position in a direction (R137). -/
def spanOwner (s : State) (d : Dir) (c : CoreId) : Option JobId := ownerFrom s d 68 c

/-- The job whose span contains the crossing into region `r` in a direction (R137). -/
def crossingOwner (s : State) (r : RegionId) (d : Dir) : Option JobId := spanOwner s d (exitPos (prevRegion r d) d)

/-- The run of bypass positions and cores of job `j` that starts at `c`: at most `n` positions (R137). -/
def spanRun (s : State) (j : JobId) (d : Dir) : Nat → CoreId → Nat
  | 0, _ => 0
  | n + 1, c =>
    if isBypass s c || jobOf s c == some j then 1 + spanRun s j d n (posNext c d) else 0

/-- The span of a member core in a direction (R137). -/
def spanOf (s : State) (j : JobId) (c : CoreId) (d : Dir) : Nat := spanRun s j d 67 (posNext c d)

/-- Are the flits at a position frozen by a stop of the job whose span contains it (R142). -/
def ringFrozen (s : State) (c : CoreId) (d : Dir) : Bool :=
  match spanOwner s d c with
  | none => false
  | some j => (coresOf (regionOf c)).any (fun m =>
      decide ((coreAt s m).seq.job = some j) && decide ((coreAt s m).seq.run = .stopped))

/-- Table 8's queue index of a Flume crossing: inbound 0x00 and 0x02, outbound 0x01 and 0x03. -/
def flumeQueue (d : Dir) (out : Bool) : Nat := (match d with | .cw => 0 | .ccw => 2) + bitNat out

/-- An error noted in FLM_ERR (spec/06, Table 10). -/
def flmError (c : CoreId) (d : Dir) (crc : Bool) (s : State) : State :=
  let t := BitVec.ofNat 32 (nowAt s c)
  modCore s c (fun k =>
    { k with
      flmCrcErr := k.flmCrcErr || crc, flmCollision := k.flmCollision || !crc
      flmDir := (match d with | .cw => false | .ccw => true), flmTick := t })

/-- A flit put into a ring register: where one already is, neither is kept and the job is fenced (R141). -/
def ringPut (c : CoreId) (d : Dir) (f : Flit) (issued : Nat) (s : State) : State :=
  match ringOf (coreAt s c) d with
  | none => modCore s c (fun k => setRing k d (some f))
  | some _ =>
    raiseFault c (opRank (nowAt s c) issued) (flt .resourceConflict c)
      (flmError c d false (modCore s c (fun k => setRing k d none)))

/-- FSEND_FLIT_INJECT: a flit enters the sender's ring register (R138). -/
def injectFlit (c : CoreId) (d : Dir) (f : Flit) (issued : Nat) (s : State) : State :=
  ringPut c d f issued (modCore s c (fun k => { k with flmSent := BitVec.ofNat 32 (satAdd 32 k.flmSent.toNat 1) }))

/-- FLIT_CAPTURE: the payload of the flit in a ring register, if it is there and its CRC checks (R140, R141). -/
def captureFlit (c : CoreId) (d : Dir) (issued : Nat) (s : State) : State × Option (List Byte) :=
  match ringOf (coreAt s c) d with
  | none => (raiseFault c (opRank (nowAt s c) issued) (fltD .queueUnderrun c (flumeQueue d false) noPeer) s, none)
  | some f =>
    if flitOk f then
      (modCore s c (fun k => { k with flmCaptured := BitVec.ofNat 32 (satAdd 32 k.flmCaptured.toNat 1) }), some f.payload)
    else (raiseFault c rankEcc (fltD .eccUncorrected c 0x10 0) (flmError c d true s), none)

/-- FXIN_READ: the head of the inbound crossing moves into the entry position's ring register with one hop less (R135). A
flit whose CRC fails is noted and fences the job, and moves on all the same (R141). -/
def fxinTake (c : CoreId) (d : Dir) (issued : Nat) (s : State) : State :=
  let r := regionOf c
  match inboundOf (regionAt s r) d with
  | [] => s
  | f :: rest =>
    let s1 := modRegion s r (fun g => setInbound g d rest)
    let s2 := if flitOk f then s1
      else raiseFault c rankEcc (fltD .eccUncorrected c 0x10 0) (flmError (entryPos r d) d true s1)
    ringPut (entryPos r d) d { f with ttl := f.ttl - 1#7, exited := false } issued s2

/-- Flits that stand in an all-bypass region and still have to leave it: each has an outbound entry reserved (R136). -/
def passing (s : State) (r : RegionId) (d : Dir) : Nat :=
  ((coresOf r).filter (fun c => match ringOf (coreAt s c) d with | some f => !f.exited | none => false)).length

/-- Can an all-bypass region take the head of its inbound crossing now (R136). -/
def autoReady (s : State) (r : RegionId) (d : Dir) : Bool :=
  allBypass s r && !(inboundOf (regionAt s r) d).isEmpty &&
    (ringOf (coreAt s (entryPos r d)) d).isNone &&
    decide ((inboundOf (regionAt s (nextRegion r d)) d).length + passing s r d < crossingDepth)

/-- A fence whose fault no core detected (R141; spec/12, Table 10). -/
def regionFault (st : Status) (r : RegionId) (d0 d1 : Nat) : FaultInfo :=
  { status := st, pcore := none, region := BitVec.ofNat 8 r.val, detail0 := BitVec.ofNat 32 d0, detail1 := BitVec.ofNat 32 d1 }

/-- AUTO_FORWARD: an all-bypass region takes the head of its inbound crossing (R136, R141). -/
def autoForward (r : RegionId) (d : Dir) (s : State) : State :=
  if autoReady s r d then
    match inboundOf (regionAt s r) d with
    | [] => s
    | f :: rest =>
      let s1 := modRegion s r (fun g => setInbound g d rest)
      let s2 := modCore s1 (entryPos r d) (fun k => setRing k d (some { f with ttl := f.ttl - 1#7, exited := false }))
      if flitOk f then s2
      else
        let s3 := modRegion s2 r (fun g => { g with flmxCrc := true })
        match crossingOwner s r d with
        | some j => fenceJob j (regionFault .eccUncorrected r 0x10 0) s3
        | none => s3
  else s

/-- Does the flit at a region's exit position still have to be written into the outbound crossing (R134). -/
def exitDue (s : State) (r : RegionId) (d : Dir) : Bool :=
  match ringOf (coreAt s (exitPos r d)) d with
  | some f => decide (f.ttl ≠ 0) && !f.exited && !ringFrozen s (exitPos r d) d
  | none => false

/-- Is the outbound crossing full (R134). -/
def exitFull (s : State) (r : RegionId) (d : Dir) : Bool :=
  decide (crossingDepth ≤ (inboundOf (regionAt s (nextRegion r d)) d).length)

/-- Does a full outbound crossing hold the region: never an all-bypass region, and no longer once the flit's job is fenced
(R36, R136). -/
def exitHolds (s : State) (r : RegionId) (d : Dir) : Bool :=
  !allBypass s r && (match spanOwner s d (exitPos r d) with | some j => (jobAt s j).state != .fencing | none => true)

/-- The lowest-numbered member core of a job in a region (R36). -/
def memberIn (s : State) (r : RegionId) (j : JobId) : Option CoreId :=
  (coresOf r).find? (fun c => decide (jobOf s c = some j))

/-- The hold of a full outbound crossing (R134). -/
def exitHold (s : State) (r : RegionId) (d : Dir) : HoldCond :=
  let o := match spanOwner s d (exitPos r d) with | some j => memberIn s r j | none => none
  { cause := 0b10#2, queue := BitVec.ofNat 6 (flumeQueue d true), core := o,
    detail0 := BitVec.ofNat 32 (flumeQueue d true), detail1 := BitVec.ofNat 32 noPeer, arm := none }

/-- FLIT_EXIT_WRITE: the flit at the exit position is written into the outbound crossing (R134). -/
def exitWrite (r : RegionId) (d : Dir) (s : State) : State :=
  match ringOf (coreAt s (exitPos r d)) d with
  | none => s
  | some f =>
    let s1 := modRegion s (nextRegion r d) (fun g => setInbound g d (inboundOf g d ++ [{ f with exited := false }]))
    modCore s1 (exitPos r d) (fun k => setRing k d (some { f with exited := true }))

/-- A position's ring register after a hop (R131): what stands upstream in the region with hops left, unless a stop freezes
it; a flit with no hops left leaves the ring. -/
def hopInto (s : State) (d : Dir) (c : CoreId) : Option Flit :=
  let r := regionOf c
  if ringFrozen s c d then ringOf (coreAt s c) d
  else if c = entryPos r d then none
  else
    let p := posPrev c d
    if ringFrozen s p d then none
    else
      match ringOf (coreAt s p) d with
      | some f => if f.ttl = 0 then none else some { f with ttl := f.ttl - 1#7 }
      | none => none

/-- Every ring register of a region moves on at the end of a tick (R131). -/
def ringHop (r : RegionId) (s : State) : State :=
  (coresOf r).foldl (fun u c =>
    modCore u c (fun k => setRing (setRing k .cw (hopInto s .cw c)) .ccw (hopInto s .ccw c))) s

/-- The flits of a job leave the ring registers and crossing queues of its spans (R142). -/
def removeFlits (j : JobId) (s : State) : State :=
  let s1 := allCores.foldl (fun u c =>
    modCore u c (fun k =>
      let k1 := if spanOwner s .cw c = some j then setRing k .cw none else k
      if spanOwner s .ccw c = some j then setRing k1 .ccw none else k1)) s
  allRegions.foldl (fun u r =>
    modRegion u r (fun g =>
      let g1 := if crossingOwner s r .cw = some j then setInbound g .cw [] else g
      if crossingOwner s r .ccw = some j then setInbound g1 .ccw [] else g1)) s1

/-! ### The instructions -/

/-- Element flits of a tile (R139). -/
def elemFlits (cfg : TileCfg) : Nat := ceilDiv (cfg.rows.toNat * cfgRowBytes cfg) 2048

/-- Is a configuration block-scaled. -/
def cfgMx (cfg : TileCfg) : Bool := match cfgFormat cfg with | some f => f.mx | none => false

/-- Flits of a tile's train (R139). -/
def tileFlits (cfg : TileCfg) : Nat := elemFlits cfg + bitNat (cfgMx cfg)

/-- Flit `i` of a tile's train (R139). -/
def tileFlit (t : Tile) (i : Nat) : List Byte :=
  if i < elemFlits t.cfg then memRead t.data (2048 * i) 2048 else (List.range 2048).map (tileScale t)

/-- The tile and the flit number within it of flit `i` of a train of tiles from register `b` on. -/
def trainFlit (k : Core) : Nat → Nat → Nat → Option (Nat × Nat)
  | 0, _, _ => none
  | g + 1, b, i =>
    match tileNo k b with
    | none => none
    | some t => if i < tileFlits t.cfg then some (b, i) else trainFlit k g (b + 1) (i - tileFlits t.cfg)

/-- Flits of an FSEND (R138). -/
def fsendFlits (k : Core) (x : FsendFields) : Nat :=
  if x.queue then x.flitsM1.val + 1
  else (List.range (x.gM1.val + 1)).foldl (fun a i =>
    a + (match tileNo k (x.src.val + i) with | some t => tileFlits t.cfg | none => 0)) 0

/-- The tile reads of an FSEND: one per flit. -/
def fsendUses (k : Core) (x : FsendFields) (now : Nat) : List PortUse :=
  if x.queue then []
  else ((List.range (x.gM1.val + 1)).foldl (fun (a : Nat × List PortUse) i =>
    let n := match tileNo k (x.src.val + i) with | some t => tileFlits t.cfg | none => 0
    (a.1 + n, a.2 ++ [tileUse (x.src.val + i) (now + a.1) 1 n false (issueKey now 3)])) (0, [])).2

/-- Is an FSEND in a direction in progress: until its last flit has been in the ring register (R138). -/
def fsendBusy (k : Core) (d : Dir) : Bool :=
  k.ops.any (fun o => match o.instr with | .fsend _ y => decide (y.dir = d) | _ => false) ||
    k.pend.any (fun p => match p.eff with | .inject e _ => decide (e = d) | _ => false)

/-- The span of a position in a direction. -/
def spanReg (k : Core) (d : Dir) : Nat := match d with | .cw => k.spanCw.toNat | .ccw => k.spanCcw.toNat

/-- The queue a Flume source field names. -/
def srcQueue (x : FsendFields) : QId := ⟨x.src.val % 16, Nat.mod_lt _ (by decide)⟩

/-- FSEND (R138). -/
def fsendIssue (c : CoreId) (x : FsendFields) : Issue :=
  { core := c
    wait := noWait
    fault := fun s =>
      let k := coreAt s c
      let now := nowAt s c
      firstFault c
        [(!x.queue && (List.range (x.gM1.val + 1)).any (fun i =>
            match tileNo k (x.src.val + i) with | some t => t.empty | none => true), .tileEmpty),
         (decide (spanReg k x.dir < x.ttl.val), .bounds),
         (fsendBusy k x.dir || tileConflict k now (fsendUses k x now), .resourceConflict)]
    effect := fun s =>
      let now := nowAt s c
      modCore s c (fun k =>
        let k1 := takeTiles k (fsendUses k x now)
        { k1 with ops := k1.ops ++ [strmOf k (.fsend c x) (issueKey now 3) now 1 (fsendFlits k x)] }) }

/-- The wait of an FSEND's step: 2,048 bytes of its queue (R138, R182). -/
def fsendWait (s : State) (c : CoreId) (x : FsendFields) : Option HoldCond :=
  if x.queue ∧ qAvail (qOf (coreAt s c) (srcQueue x)) (periodAt s c) < 2048 then some (holdQueue c (srcQueue x)) else none

/-- An FSEND's step: the payload of flit `i` is read, and the flit is on its way to the ring register (R138). -/
def fsendStep (k : Core) (o : Strm) (x : FsendFields) (t : Nat) : Core :=
  let mk (bs : List Byte) : Pend := { due := t + 2, issued := o.issued, eff := .inject x.dir (mkFlit bs x.ttl.val x.tag) }
  if x.queue then pushPend (modQ k (srcQueue x) (fun q => qTake q 2048)) (mk (qPeek k (srcQueue x) 2048))
  else
    match trainFlit k (x.gM1.val + 1) x.src.val o.next with
    | some (b, i) => (match tileNo k b with | some u => pushPend k (mk (tileFlit u i)) | none => k)
    | none => k

/-- The tile writes of an FRCV: one per flit, in the tick after its capture. -/
def frcvUses (k : Core) (t : TReg) (now : Nat) : List PortUse :=
  [tileUse t.val (now + 1) 1 (tileFlits (tileOf k t).cfg) true (issueKey now 3)]

/-- FRCV (R140). -/
def frcvIssue (c : CoreId) (d : Dir) (t : TReg) : Issue :=
  { core := c
    wait := noWait
    fault := fun s =>
      let k := coreAt s c
      let now := nowAt s c
      firstFault c
        [(tileConflict k now (frcvUses k t now) || tileReleasing k now (frcvUses k t now) || captureFull k d now (tileFlits (tileOf k t).cfg), .resourceConflict)]
    effect := fun s =>
      let now := nowAt s c
      modCore s c (fun k =>
        let k1 := takeTiles k (frcvUses k t now)
        { k1 with ops := k1.ops ++ [strmOf k (.frcv c d t) (issueKey now 3) now 1 (tileFlits (tileOf k t).cfg)] }) }

/-- The start-row register after rows below `r` of a load have been written; a completed load leaves 0 (R104). -/
def loadRow (r stop : Nat) : BitVec 8 × Bool := if stop ≤ r then (0, false) else (BitVec.ofNat 8 r, false)

/-- The writes of an FRCV's flit, with every payload so far in `o.bytes`: the rows whose last byte it brings, or the scale
plane (R140, R104). -/
def frcvStep (k : Core) (o : Strm) (t : TReg) (now : Nat) : Core :=
  let u := tileOf k t
  let rb := cfgRowBytes u.cfg
  let rows := u.cfg.rows.toNat
  if o.next < elemFlits u.cfg then
    let done := Nat.min rows (2048 * (o.next + 1) / rb)
    let before := 2048 * o.next / rb
    let bytes := ((List.range (done * rb)).filter (fun b => decide (before * rb ≤ b))).map (fun b => (b, o.bytes.getD b 0))
    let stop := if cfgMx u.cfg then rows + 1 else rows
    pushPend k { due := now + 2, issued := o.issued, eff := .tile t bytes [] (some (loadRow done stop)) }
  else
    let plane := o.bytes.drop (2048 * elemFlits u.cfg)
    pushPend k { due := now + 2, issued := o.issued,
                 eff := .tile t [] ((List.range 2048).map (fun i => (i, plane.getD i 0))) (some (0, false)) }

/-- Is an FXIN of a region and direction in progress (R135). -/
def fxinBusy (s : State) (r : RegionId) (d : Dir) : Bool :=
  (coresOf r).any (fun c => (coreAt s c).ops.any (fun o => match o.instr with | .fxin _ e _ => decide (e = d) | _ => false))

/-- FXIN (R135). -/
def fxinIssue (c : CoreId) (d : Dir) (flitsM1 : Fin 512) : Issue :=
  { core := c
    wait := noWait
    fault := fun s => firstFault c [(fxinBusy s (regionOf c) d || allBypass s (regionOf c), .resourceConflict)]
    effect := fun s =>
      let now := nowAt s c
      modCore s c (fun k =>
        { k with ops := k.ops ++ [strmOf k (.fxin c d flitsM1) (issueKey now 3) now 1 (flitsM1.val + 1)] }) }

/-- The wait of an FXIN's step (R135). -/
def fxinWait (s : State) (c : CoreId) (d : Dir) : Option HoldCond :=
  if (inboundOf (regionAt s (regionOf c)) d).isEmpty then
    some (holdOn c 0b01#2 (flumeQueue d false) (flumeQueue d false) noPeer)
  else none

/-- FSEND (R138). -/
def execFsend (c : CoreId) (x : FsendFields) (s : State) : Host.Outcome State Fault Refusal :=
  if wfFsend x then .next (runIssue (fsendIssue c x) (.fsend c x) s) else refuseReserved "FSEND"

/-- FRCV (R140). -/
def execFrcv (c : CoreId) (d : Dir) (t : TReg) (s : State) : Host.Outcome State Fault Refusal :=
  .next (runIssue (frcvIssue c d t) (.frcv c d t) s)

/-- FXIN (R135). -/
def execFxin (c : CoreId) (d : Dir) (f : Fin 512) (s : State) : Host.Outcome State Fault Refusal :=
  .next (runIssue (fxinIssue c d f) (.fxin c d f) s)

end Sys2Proof.Machine
end

