-- ==== Sys2Proof/Machine/Memory.lean ====
section
/-! DEFINITION. The memory's address decode, windows and pieces (R17, R18, R227, R229, R242, R257). -/

namespace Sys2Proof.Machine

/-- Bytes of a stack, 72 GiB (spec/00, Table 8). -/
def stackBytes : Nat := 0x1200000000

/-- Bytes of DRAM, 576 GiB. -/
def dramBytes : Nat := 0x9000000000

/-- The stack of a DRAM address (R18). -/
def stackOf (s : State) (a : Nat) : Fin 8 :=
  if s.stackLocal then Fin.ofNat 8 (a / stackBytes) else Fin.ofNat 8 (fieldOf a 12 3)

/-- The stack offset of a DRAM address (R18). -/
def offsetOf (s : State) (a : Nat) : Nat :=
  if s.stackLocal then a % stackBytes else a / 0x8000 * 0x1000 + a % 0x1000

/-- Where the DRAM contents hold a DRAM address. -/
def dramKey (s : State) (a : Nat) : Nat := (stackOf s a).val * stackBytes + offsetOf s a

/-- Has the stack of an address failed (R242). -/
def stackFailed (s : State) (a : Nat) : Bool := s.memcFailed.getLsbD (stackOf s a).val

/-- Does a range lie in DRAM and avoid every failed stack (R17, R242). Failed stacks are looked for granule by granule. -/
def isDram (s : State) (a n : Nat) : Bool :=
  decide (a + n ≤ dramBytes) &&
    (decide (s.memcFailed = 0) || (List.range ((a + n - 1) / 0x1000 - a / 0x1000 + 1)).all (fun i =>
      !stackFailed s ((a / 0x1000 + i) * 0x1000)))

/-- A DRAM byte. -/
def dramByte (s : State) (a : Nat) : Byte := memGet s.dram (dramKey s a)

/-- `n` DRAM bytes from an address on. -/
def dramRead (s : State) (a n : Nat) : List Byte := (List.range n).map (fun i => dramByte s (a + i))

/-- DRAM with bytes written from an address on. -/
def dramWrite (s : State) (a : Nat) (bs : List Byte) : State :=
  { s with dram := (List.range bs.length).foldl (fun m i => memSet m (dramKey s (a + i)) (bs.getD i 0)) s.dram }

/-- Does a window allow an access (R257). -/
def winAllows (w : Window) (write : Bool) : Bool := if write then w.write else w.read

/-- The end of the allowed window that holds address `a` and reaches furthest; `a` where none holds it. -/
def winReach (ws : List Window) (write : Bool) (a : Nat) : Nat :=
  ws.foldl (fun e w => if winAllows w write ∧ w.base ≤ a ∧ a < w.base + w.size then Nat.max e (w.base + w.size) else e) a

/-- Does every byte of `[a, z)` lie in some allowed window (R186, R257), looked at over at most `fuel` windows in turn. -/
def winCovers (ws : List Window) (write : Bool) : Nat → Nat → Nat → Bool
  | 0, a, z => decide (z ≤ a)
  | fuel + 1, a, z =>
    if z ≤ a then true
    else
      let e := winReach ws write a
      if e = a then false else winCovers ws write fuel e z

/-- May a core's transfer touch the range: inside the job's windows and mapped (R14, R17, R186). -/
def mayTouch (s : State) (ws : List Window) (a n : Nat) (write : Bool) : Bool :=
  isDram s a n && winCovers ws write (ws.length + 1) a (a + n)

/-- The parts of a range that lie in one 128-byte piece each: (address, length) (R227). -/
def pieceParts : Nat → Nat → Nat → List (Nat × Nat)
  | 0, _, _ => []
  | fuel + 1, a, n =>
    if n = 0 then []
    else
      let m := Nat.min n (128 - a % 128)
      (a, m) :: pieceParts fuel (a + m) (n - m)

/-- The piece of one part of a transfer (R227). -/
def mkPiece (s : State) (client : Byte) (a n : Nat) (write : Bool) (data : List Byte) (c : CoreId) (q : Fin 16)
    (x pos : Nat) : Fin 8 × Piece :=
  let o := offsetOf s a
  (stackOf s a, { client := client, channel := Fin.ofNat 32 (fieldOf o 7 5), off := o, len := n, write := write, data := data,
                  core := c, queue := q, xfer := x, pos := pos })

/-- A memory region. -/
def memAt (s : State) (k : Fin 8) : MemRegion := s.mems.get k

/-- The state with a memory region changed. -/
def modMem (s : State) (k : Fin 8) (f : MemRegion → MemRegion) : State :=
  { s with mems := s.mems.set k.val (f (memAt s k)) k.isLt }

/-- Pieces join the queues of their channels in order (R233). -/
def queuePieces (ps : List (Fin 8 × Piece)) (s : State) : State :=
  ps.foldl (fun u p => modMem u p.1 (fun m => { m with queue := m.queue ++ [p.2] })) s

end Sys2Proof.Machine
end

