-- ==== Sys2Proof/Machine/Skidder.lean ====
section
/-! DEFINITION. The Skidder: S-slot instructions, descriptors, transfers, gathers, Boom queues and the credit watchdog (R180 to
R205). -/

namespace Sys2Proof.Machine

/-! ### Extents -/

/-- Bytes of a row of the extent. -/
def dRowBytes (d : Desc) : Nat := dRowUnits d * 32

/-- Rows of the extent (R185). -/
def dRows (d : Desc) : Nat := if dRow d = 0 then 1 else dLength d / dRow d

/-- Bytes of the extent, or of each item of a gather. -/
def dBytes (d : Desc) : Nat := dLength d * 32

/-- Offset and size in bytes of a handle's buffer (R199). -/
def handleAddr (h : Word) : Nat := fieldOf h.toNat 0 18 * 32
/-- Size in bytes of a handle's buffer. -/
def handleSize (h : Word) : Nat := fieldOf h.toNat 18 24 * 32

/-- Where the extent starts: ADDR with the captured base, or the buffer of a source handle (R185, R200). -/
def baseAddr (d : Desc) (base : BitVec 48) (h : Option Word) (i : Nat) : Nat :=
  match h with
  | some w => handleAddr w + i * dStride d * 32
  | none =>
    let a := dAddr d + i * dStride d * 32
    if dRel d then (a + base.toNat) % 2 ^ 48 else a

/-- The handle that addresses the memory side of a descriptor: the source of a read, the destination of a write. -/
def memHandle (d : Desc) (h : Option Word) : Option Word :=
  if dBuf d = 2 ∨ (dBuf d = 1 ∧ dKind d = 2) then h else none

/-- Does the memory side of a descriptor lie in the core's local store. -/
def memLocal (d : Desc) : Bool := dLocal d || (dBuf d == 1 && dKind d == 2)

/-- Does the data of a descriptor land in a handle's buffer instead of the queue (R200). -/
def landsInBuffer (d : Desc) : Bool := dBuf d == 1 && dKind d != 2

/-- Is one run of the extent allowed: within the local store, or inside the windows and mapped (R186 step 4). -/
def runAllowed (s : State) (k : Core) (d : Desc) (a n : Nat) : Bool :=
  if memLocal d then decide (a + n ≤ storeSize) else mayTouch s k.skd.windows a n (decide (dKind d = 2))

/-- Are all rows of an extent allowed. A block whose rows lie within one allowed span is allowed. -/
def rowsAllowed (s : State) (k : Core) (d : Desc) (base : BitVec 48) (h : Option Word) : Bool :=
  (List.range (dRows d)).all (fun i => runAllowed s k d (baseAddr d base h i) (dRowBytes d))

/-- Reserved codes, non-zero reserved fields and fields that do not apply to the kind (R186 step 1). -/
def descReserved (d : Desc) : Bool :=
  let w0 := d.word0.toNat
  let k := dKind d
  decide (k = 0 ∨ 4 < k) || bitOf w0 7 || bitOf w0 15 || decide (w0 / 2 ^ 48 ≠ 0) || decide (dTrans d = 3) ||
    decide (dBuf d = 3) || decide (fieldOf d.word1.toNat 0 5 ≠ 0) || decide (d.word1.toNat / 2 ^ 48 ≠ 0) ||
    decide (d.word3.toNat / 2 ^ 16 ≠ 0) || (decide (dTrans d ≠ 0) && decide (k ≠ 1)) || (dCounted d && decide (k ≠ 4)) ||
    (decide ((dIdxq d).val ≠ 0) && decide (k ≠ 3)) || (decide (dBuf d = 2) && (!dLocal d || decide (k = 2)))

/-- A length that breaks R186 step 2 or R195. -/
def descLengthBad (d : Desc) : Bool :=
  decide (dLength d = 0) || (decide (dRow d ≠ 0) && decide (dLength d % dRow d ≠ 0)) ||
    (decide (dTrans d ≠ 0) && !(decide (1 ≤ dRow d ∧ dRow d ≤ 8) && decide (1 ≤ dRows d ∧ dRows d ≤ 128)))

/-- The checks of R186 on a started descriptor whose addresses do not depend on a handle. -/
def descCheck (s : State) (k : Core) (q : StreamQ) (d : Desc) (base : BitVec 48) : Option Status :=
  if descReserved d then some .badParam
  else if descLengthBad d then some .length
  else if (decide (dKind d = 2)) != q.write then some .badParam
  else if dKind d = 3 ∨ dBuf d = 2 ∨ (dBuf d = 1 ∧ dKind d = 2) then none
  else if rowsAllowed s k d base none then none
  else some .bounds

/-! ### Units of state -/

/-- May the Skidder start and issue for this queue: the core runs a job, or the queue outlives it (R203, R284). -/
def skdRuns (k : Core) (q : StreamQ) : Bool :=
  match k.seq.run with
  | .running => true
  | .idle => q.persist
  | _ => false

/-- A queue as a reset leaves it: what it held is discarded, and outstanding transfers are discarded on arrival (R203). -/
def qReset (q : StreamQ) : StreamQ :=
  { q with
    staged := false, released := 0, started := 0, rel := [], act := [], lastStart := none, armMark := 0
    entries := [], headSlot := 0, headCount := 0, taken := 0, wHead := 0, wTail := 0, accepted := 0
    xfers := q.xfers.map (fun x => { x with dropped := true })
    cblocked := false, cperiods := 0, pairs := [], lists := [], tripsTaken := 0 }

/-- A fault of the Skidder in a queue: it fences the job; between jobs it ends the streams of the queue (R186, R203). -/
def skdFault (c : CoreId) (q : QId) (i : FaultInfo) (s : State) : State :=
  match jobOf s c with
  | some j => fenceJob j i s
  | none => modCore s c (fun k => modQ k q qReset)

/-- The outstanding-transfer limit in force (spec/09, Table 7). -/
def qLimit (q : StreamQ) : Nat := Nat.min q.limit.toNat 0x800

/-- Outstanding transfers. -/
def qOutstanding (q : StreamQ) : Nat := (q.xfers.filter (fun x => !x.dropped)).length

/-- A started descriptor of a queue, by its number. -/
def actOf (q : StreamQ) (n : Nat) : Option ActDesc := q.act.find? (fun a => a.seqNo == n)

/-- A queue with a started descriptor changed. -/
def modAct (q : StreamQ) (n : Nat) (f : ActDesc → ActDesc) : StreamQ :=
  { q with act := q.act.map (fun a => if a.seqNo = n then f a else a) }

/-- The count of a gather's list as far as it is known (R192). -/
def gatherKnown (k : Core) (q : StreamQ) (n : Nat) : Option Nat :=
  match q.pairs.find? (fun p => p.gather == n) with
  | none => none
  | some p =>
    match p.list with
    | none => none
    | some l => ((qOf k p.idxq).lists.find? (fun x => x.list == l)).bind (fun x => x.count.map (fun e => e.toNat))

/-- Bytes a descriptor moves in the order in which the memory holds them, as far as it is known (R191, R192). -/
def movedBytes (k : Core) (q : StreamQ) (a : ActDesc) : Option Nat :=
  if dKind a.desc = 3 then (gatherKnown k q a.seqNo).map (fun e => e * dBytes a.desc)
  else if dKind a.desc = 4 ∧ dCounted a.desc = true then
    some (match a.count with | some e => Nat.min (dBytes a.desc) (32 + 4 * e) | none => dBytes a.desc)
  else some (dBytes a.desc)

/-- Bytes of the delivered stream, for the zero fill of its last entry (R181, R191). -/
def deliveredBytes (k : Core) (q : StreamQ) (a : ActDesc) : Nat :=
  let m := (movedBytes k q a).getD 0
  if dKind a.desc = 4 ∧ dCounted a.desc = true then
    (match a.count with | some e => 4 * e | none => m - 32)
  else m

/-- Has a descriptor issued all it moves. -/
def actIssued (k : Core) (q : StreamQ) (a : ActDesc) : Bool :=
  match movedBytes k q a with
  | some m => decide (m ≤ a.issued) && (!(dKind a.desc == 4 && dCounted a.desc) || a.count.isSome)
  | none => false

/-- The descriptor whose transfers issue now: the first that has not issued all it moves (R188). -/
def issuing (k : Core) (q : StreamQ) : Option ActDesc := q.act.find? (fun a => !actIssued k q a)

/-! ### Transfers -/

/-- What the next transfer of a descriptor is: its ranges, the place of each of its bytes in the delivered stream, its bytes. -/
structure XferPlan where
  ranges : List (Nat × Nat)
  offs : List (Option Nat)
  len : Nat
  deriving DecidableEq, Repr

/-- The row segments of a transposed block from byte `p` on, as (address, row, first byte of the row, length): each ends at the
row's end or at a 2,048-byte boundary (R188). -/
def transSegs (d : Desc) (base : BitVec 48) (h : Option Word) : List (Nat × Nat × Nat × Nat) :=
  (List.range (dRows d)).flatMap (fun r =>
    let a := baseAddr d base h r
    let rb := dRowBytes d
    let first := Nat.min rb (2048 - a % 2048)
    if first < rb then [(a, r, 0, first), (a + first, r, first, rb - first)] else [(a, r, 0, rb)])

/-- The segments that come after `p` bytes. -/
def segsFrom : Nat → List (Nat × Nat × Nat × Nat) → List (Nat × Nat × Nat × Nat)
  | _, [] => []
  | p, g :: r => if p = 0 then g :: r else segsFrom (p - g.2.2.2) r

/-- The leading segments that fit into `room` bytes. -/
def segsFit : Nat → List (Nat × Nat × Nat × Nat) → List (Nat × Nat × Nat × Nat)
  | _, [] => []
  | room, g :: r => if g.2.2.2 ≤ room then g :: segsFit (room - g.2.2.2) r else []

/-- The next transfer of a transposing descriptor (R188, R194). -/
def planTrans (a : ActDesc) : XferPlan :=
  let d := a.desc
  let w := dTrans d
  let rows := dRows d
  let gs := segsFit 1024 (segsFrom a.issued (transSegs d a.base (memHandle d a.handle)))
  { ranges := gs.map (fun g => (g.1, g.2.2.2))
    offs := gs.flatMap (fun g => (List.range g.2.2.2).map (fun i =>
      let b := g.2.2.1 + i
      some (b / w * rows * w + g.2.1 * w + b % w)))
    len := gs.foldl (fun n g => n + g.2.2.2) 0 }

/-- The next transfer of a descriptor that can issue one (R188, R191, R192). -/
def planNext (k : Core) (q : StreamQ) (a : ActDesc) : Option XferPlan :=
  let d := a.desc
  let h := memHandle d a.handle
  if decide (dBuf d ≠ 0) && !a.handleTaken then none
  else if dTrans d ≠ 0 then some (planTrans a)
  else if dKind d = 3 then
    match a.item with
    | none => none
    | some v =>
      let io := a.issued % dBytes d
      let p := baseAddr d a.base h v.toNat + io
      let n := Nat.min (dBytes d - io) (2048 - p % 2048)
      some { ranges := [(p, n)], offs := (List.range n).map (fun i => some (a.issued + i)), len := n }
  else
    let total := (movedBytes k q a).getD 0
    if dKind d = 4 ∧ dCounted d = true ∧ 0 < a.issued ∧ a.count.isNone = true then none
    else if total ≤ a.issued then none
    else
      let rb := dRowBytes d
      let o := a.issued % rb
      let p := baseAddr d a.base h (a.issued / rb) + o
      let n := Nat.min (Nat.min (rb - o) (2048 - p % 2048)) (total - a.issued)
      let lo := if dKind d = 4 ∧ dCounted d = true then 32 else 0
      some { ranges := [(p, n)]
             offs := (List.range n).map (fun i => if lo ≤ a.issued + i then some (a.issued + i - lo) else none), len := n }

/-- The last place a transfer fills, plus one; 0 where it fills none. -/
def planTop (p : XferPlan) : Nat := p.offs.foldl (fun m o => match o with | some x => Nat.max m (x + 1) | none => m) 0

/-- Entries a transfer still has to reserve (R189): the descriptor starts a new entry (R181). -/
def planNeeds (q : StreamQ) (a : ActDesc) (p : XferPlan) : Nat :=
  let tail := q.headCount + q.entries.length
  let first := if a.issued = 0 then tail else a.firstEntry
  first + ceilDiv (planTop p) (qEntry q) - tail

/-- The queue after the entries of a transfer have been reserved: each expects the bytes the descriptor delivers into it, and
its storage is cleared for the zero fill (R181, R189). -/
def reserveEntries (k : Core) (qi : QId) (a : ActDesc) (n : Nat) : Core :=
  let q := qOf k qi
  let tail := q.headCount + q.entries.length
  let first := if a.issued = 0 then tail else a.firstEntry
  let total := deliveredBytes k q a
  let es := qEntry q
  let new := (List.range n).map (fun i =>
    ({ missing := Nat.min es (total - (tail + i - first) * es), landPeriod := 0, tag := dTag a.desc } : QEntry))
  let slot := (q.headSlot + q.entries.length) % 64
  let st := (List.range n).foldl (fun m i => cellClear m (q.qbase.toNat * 32 + (slot + i) % 64 * es) es) k.store
  modQ { k with store := st } qi (fun q =>
    modAct { q with entries := q.entries ++ new } a.seqNo (fun b => { b with firstEntry := first }))

/-- The wheel slot's queue in a period (R189). -/
def wheelQueue (k : Core) (period : Nat) : QId :=
  let useNew := match k.skd.wheelSince with | some p => decide (p.toNat ≤ period) | none => true
  let w0 := if useNew then k.skd.wheel0 else k.skd.wheelLive0
  let w1 := if useNew then k.skd.wheel1 else k.skd.wheelLive1
  let s := period % 32
  ⟨(fieldOf (if s < 16 then w0 else w1).toNat (4 * (s % 16)) 4) % 16, Nat.mod_lt _ (by decide)⟩

/-- Does a transfer find its entries free, or need none: a write, a buffer destination (R189, R200). -/
def planFits (q : StreamQ) (a : ActDesc) (p : XferPlan) : Bool :=
  if dKind a.desc = 2 ∨ landsInBuffer a.desc then true else decide (planNeeds q a p ≤ qFree q)

/-- Does a write queue hold the bytes of a transfer (R189). -/
def planPresent (q : StreamQ) (a : ActDesc) (p : XferPlan) : Bool :=
  if dKind a.desc = 2 then decide (q.wHead + p.len ≤ q.wTail) else true

/-- The transfer the Skidder of a core may issue in this period, with room in its memory request crossing (R27, R189). -/
def issueReady (s : State) (c : CoreId) : Option (QId × ActDesc × XferPlan) :=
  let k := coreAt s c
  let period := periodAt s c
  let qi := wheelQueue k period
  let q := qOf k qi
  if skdRuns k q && decide (k.skd.lastIssue ≠ some (BitVec.ofNat 64 period)) && decide (qOutstanding q < qLimit q) &&
      decide (k.skd.requests.length < crossingDepth) then
    match issuing k q with
    | none => none
    | some a =>
      match planNext k q a with
      | none => none
      | some p => if planFits q a p && planPresent q a p then some (qi, a, p) else none
  else none

/-- The client number of a core's traffic: its logical number (spec/11, Table 1). -/
def coreClient (s : State) (c : CoreId) : Byte := BitVec.ofNat 8 ((logicalOf s c).getD 0x3F)

/-- TRANSFER_ISSUE: entries are reserved or write bytes leave the queue, and the request of a DRAM transfer with its pieces enters the
memory request crossing (R27, R189, R197, R227). -/
def issueTransfer (c : CoreId) (s : State) : State :=
  match issueReady s c with
  | none => s
  | some (qi, a, p) =>
    let k := coreAt s c
    let q := qOf k qi
    let write := decide (dKind a.desc = 2)
    let loc := memLocal a.desc
    let wbytes := if write then (List.range p.len).map (fun i => memGet k.store (qAddr q (q.wHead + i))) else []
    let ps := if loc then [] else p.ranges.flatMap (fun r => pieceParts 18 r.1 r.2)
    let id := q.xferId
    let placed := (ps.foldl (fun (acc : Nat × List (Fin 8 × Piece)) r =>
      (acc.1 + r.2, acc.2 ++ [mkPiece s (coreClient s c) r.1 r.2 write ((wbytes.drop acc.1).take r.2) c qi id acc.1])) (0, [])).2
    let k1 := if write ∨ landsInBuffer a.desc = true then k else reserveEntries k qi a (planNeeds q a p)
    let x : Xfer :=
      { id := id, desc := a.seqNo, write := write, inStore := loc, ranges := p.ranges, offs := p.offs, len := p.len,
        data := (List.range wbytes.length).map (fun i => (i, wbytes.getD i 0))
        pieces := placed.length, served := 0, dropped := false }
    let k2 := modQ k1 qi (fun q =>
      let q1 := modAct q a.seqNo (fun b =>
        { b with
          issued := b.issued + p.len
          item := if dKind b.desc = 3 ∧ (b.issued + p.len) % dBytes b.desc = 0 then none else b.item })
      { q1 with xfers := q1.xfers ++ [x], xferId := id + 1, wHead := if write then q1.wHead + p.len else q1.wHead })
    let period := periodAt s c
    setCore s c { k2 with
      skd := { k2.skd with lastIssue := some (BitVec.ofNat 64 period)
                           requests := if placed.isEmpty then k2.skd.requests else k2.skd.requests ++ [placed] } }

/-- The oldest request of a core leaves its memory request crossing: its pieces join their stacks' queues (R27, R229). -/
def requestPass (c : CoreId) (s : State) : State :=
  match (coreAt s c).skd.requests with
  | [] => s
  | ps :: rest => queuePieces ps (modCore s c (fun k => { k with skd := { k.skd with requests := rest } }))

/-! ### Landing -/

/-- A delivered byte lands: in its entry's storage, or in the buffer of the handle (R181, R200). -/
def landByte (k : Core) (qi : QId) (a : ActDesc) (place : Nat) (v : Byte) (period : Nat) : Core :=
  if landsInBuffer a.desc then
    { k with store := memSet k.store (handleAddr (a.handle.getD 0) + place) v }
  else
    let q := qOf k qi
    let es := qEntry q
    let e := a.firstEntry + place / es - q.headCount
    let slot := (q.headSlot + e) % 64
    let k1 := { k with store := memSet k.store (q.qbase.toNat * 32 + slot * es + place % es) v }
    modQ k1 qi (fun q =>
      { q with entries := (List.range q.entries.length).zip q.entries |>.map (fun x =>
          if x.1 = e then
            { x.2 with missing := x.2.missing - 1,
                       landPeriod := if x.2.missing ≤ 1 then BitVec.ofNat 64 period else x.2.landPeriod }
          else x.2) })

/-- The count of a counted list becomes known: entries reserved beyond its values are given back (R191). -/
def landCount (k : Core) (qi : QId) (a : ActDesc) (e period : Nat) : Core :=
  modQ k qi (fun q =>
    let es := qEntry q
    let keep := a.firstEntry + ceilDiv (4 * e) es - q.headCount
    let shown := (List.range q.entries.length).zip q.entries
    let kept := shown.filter (fun x => decide (x.1 < keep) || decide (q.headCount + x.1 < a.firstEntry))
    let fixed := kept.map (fun x =>
      if q.headCount + x.1 < a.firstEntry then x.2
      else { x.2 with missing := Nat.min es (4 * e - (q.headCount + x.1 - a.firstEntry) * es) })
    let q1 := if landsInBuffer a.desc then q else { q with entries := fixed }
    modAct { q1 with lists := q1.lists.map (fun l =>
        if l.list = a.seqNo then { l with count := some (BitVec.ofNat 32 e), knownPeriod := BitVec.ofNat 64 period } else l) }
      a.seqNo (fun b => { b with count := some e }))

/-- The bytes a transfer brings, in the order of its ranges. -/
def xferBytes (k : Core) (x : Xfer) : List Byte :=
  if x.inStore then x.ranges.flatMap (fun r => memRead k.store r.1 r.2)
  else (List.range x.len).map (fun i => cellGet 0#8 x.data i)

/-- A started descriptor that is complete leaves, unless it still has a handle to pass on (R200). -/
def retireActs (k : Core) (qi : QId) : Core :=
  modQ k qi (fun q => { q with act := q.act.filter (fun a =>
    !(a.donePeriod.isSome && !(dBoutEn a.desc && a.handleTaken))) })

/-- Bytes of a descriptor have landed or been accepted; with the last, it is complete (R200). -/
def actMoved (k : Core) (qi : QId) (n len period : Nat) : Core :=
  let k1 := modQ k qi (fun q => modAct q n (fun a => { a with landed := a.landed + len }))
  let q := qOf k1 qi
  retireActs (modQ k1 qi (fun q0 => modAct q0 n (fun a =>
    if actIssued k1 q a && decide (a.issued ≤ a.landed) then { a with donePeriod := some (BitVec.ofNat 64 period) } else a))) qi

/-- Is a transfer ready to land or to be accepted: all its pieces have been served. -/
def xferReady (x : Xfer) : Bool := x.inStore || decide (x.pieces ≤ x.served)

/-- A transfer of a queue. -/
def xferOf (q : StreamQ) (id : Nat) : Option Xfer := q.xfers.find? (fun x => x.id == id)

/-- A queue without a transfer. -/
def dropXfer (q : StreamQ) (id : Nat) : StreamQ := { q with xfers := q.xfers.filter (fun x => x.id != id) }

/-- RETURN_LAND: a read transfer's bytes land (R181, R191); a return of a queue reset since is discarded (R203). -/
def landReturn (c : CoreId) (qi : QId) (id : Nat) (s : State) : State :=
  let k := coreAt s c
  let q := qOf k qi
  match xferOf q id with
  | none => s
  | some x =>
    if x.write ∨ xferReady x = false then s
    else if x.dropped then modCore s c (fun k => modQ k qi (fun q => dropXfer q id))
    else
      match actOf q x.desc with
      | none => modCore s c (fun k => modQ k qi (fun q => dropXfer q id))
      | some a =>
        let period := periodAt s c
        let bs := xferBytes k x
        let k0 := modQ k qi (fun q => dropXfer q id)
        let counts := decide (dKind a.desc = 4) && dCounted a.desc && a.count.isNone
        let e := leNat (bs.take 4)
        if counts && decide ((dLength a.desc - 1) * 8 < e) then
          skdFault c qi (fltD .bounds c qi.val a.index) (setCore s c k0)
        else
          let k1 := if counts then landCount k0 qi a e period else k0
          let limit := if counts then 4 * e else 2 ^ 48
          let a1 := (actOf (qOf k1 qi) x.desc).getD a
          let k2 := ((x.offs.zip bs).foldl (fun k p =>
            match p.1 with
            | some place => if place < limit then landByte k qi a1 place p.2 period else k
            | none => k) k1)
          setCore s c (actMoved k2 qi x.desc x.len period)

/-- WRITE_ACCEPT: the memory side has accepted a write transfer (R198); one that lies in the local store is written now
(R189). -/
def acceptWrite (c : CoreId) (qi : QId) (id : Nat) (s : State) : State :=
  let k := coreAt s c
  let q := qOf k qi
  match xferOf q id with
  | none => s
  | some x =>
    if x.write = false ∨ xferReady x = false then s
    else
      let st := if x.inStore then
          (x.ranges.foldl (fun (a : Nat × ByteMem) r =>
            (a.1 + r.2, memWrite a.2 r.1 ((List.range r.2).map (fun i => cellGet 0#8 x.data (a.1 + i))))) (0, k.store)).2
        else k.store
      let k1 := modQ { k with store := st } qi (fun q => dropXfer q id)
      if x.dropped then setCore s c k1
      else
        let k2 := modQ k1 qi (fun q => { q with accepted := q.accepted + x.len })
        setCore s c (actMoved k2 qi x.desc x.len (periodAt s c))

/-! ### Starting, handles and gathers -/

/-- The released descriptor the Skidder may start now (R187, R188). -/
def startReady (s : State) (c : CoreId) (qi : QId) : Option RelDesc :=
  let k := coreAt s c
  let q := qOf k qi
  let gap := match q.lastStart with | some p => decide (p.toNat + 24 ≤ periodAt s c) | none => true
  match q.rel with
  | [] => none
  | r :: _ => if skdRuns k q && gap && decide (r.avail ≤ nowAt s c) then some r else none

/-- DESCRIPTOR_START (R186, R188, R193). -/
def startDesc (c : CoreId) (qi : QId) (s : State) : State :=
  match startReady s c qi with
  | none => s
  | some r =>
    let k := coreAt s c
    let d := relWords k qi r
    let period := periodAt s c
    match descCheck s k (qOf k qi) d r.base with
    | some st => skdFault c qi (fltD st c qi.val r.index) s
    | none =>
      let a : ActDesc :=
        { index := r.index, desc := d, base := r.base, seqNo := r.seqNo, startPeriod := BitVec.ofNat 64 period, handle := none,
          handleTaken := false, issued := 0, landed := 0, count := none, item := none, itemsTaken := 0, firstEntry := 0,
          boutDone := false, donePeriod := none }
      modCore s c (fun k =>
        let k1 := modQ k qi (fun q =>
          { q with
            rel := q.rel.drop 1, act := q.act ++ [a], started := q.started + 1#24
            lastStart := some (BitVec.ofNat 64 period)
            lists := if dKind d = 4 ∧ dCounted d = false then q.lists.map (fun l =>
                if l.list = r.seqNo then
                  { l with count := some (BitVec.ofNat 32 (dLength d * 8)), knownPeriod := BitVec.ofNat 64 period }
                else l)
              else q.lists })
        k1)

/-- The started descriptor that takes the next handle: the first that needs one and has none (R200). -/
def handleNext (q : StreamQ) : Option ActDesc := q.act.find? (fun a => decide (dBuf a.desc ≠ 0) && !a.handleTaken)

/-- Handles in a Boom queue. -/
def boomOf (k : Core) (b : Fin 8) : List Word := k.skd.boom.get b

/-- A core with a Boom queue replaced. -/
def setBoom (k : Core) (b : Fin 8) (hs : List Word) : Core :=
  { k with skd := { k.skd with boom := k.skd.boom.set b.val hs b.isLt } }

/-- HANDLE_TAKE: the handle leaves BIN; an extent of LENGTH units larger than its buffer, or past the local store, faults (R185, R186,
R200). That of a gather grows with its items. -/
def takeHandle (c : CoreId) (qi : QId) (s : State) : State :=
  let k := coreAt s c
  let q := qOf k qi
  match handleNext q with
  | none => s
  | some a =>
    match boomOf k (dBin a.desc) with
    | [] => s
    | h :: rest =>
      if skdRuns k q then
        let d := a.desc
        let k1 := modQ (setBoom k (dBin d) rest) qi (fun q =>
          modAct q a.seqNo (fun b => { b with handle := some h, handleTaken := true }))
        let s1 := setCore s c k1
        let tooBig := decide (handleSize h < dBytes d)
        let past := (landsInBuffer d && decide (storeSize < handleAddr h + dBytes d)) ||
          ((dBuf d == 2 || dKind d == 2) && !rowsAllowed s k d a.base (some h))
        if decide (dKind d ≠ 3) && (tooBig || past) then skdFault c qi (fltD .bounds c qi.val a.index) s1 else s1
      else s

/-- GATHER_INDEX_TAKE: the gather that issues takes its next value from IDXQ, and with the last one the rest of that entry; an
item outside the windows or the local store faults, and one that makes the extent larger than the handle's buffer (R185, R186, R192,
R200). A hold does not keep it: R33 and R184 let the Skidder go on, although R29 says that a queue only gains entries in a hold (DESIGN
CHOICE, log entry 107). -/
def takeIndex (c : CoreId) (qi : QId) (s : State) : State :=
  let k := coreAt s c
  let q := qOf k qi
  match issuing k q with
  | none => s
  | some a =>
    let d := a.desc
    let x := dIdxq d
    match gatherKnown k q a.seqNo with
    | none => s
    | some e =>
      if dKind d = 3 ∧ a.item.isNone = true ∧ a.itemsTaken < e ∧ 4 ≤ qAvail (qOf k x) (periodAt s c) ∧ skdRuns k q = true ∧
          (dBuf d = 0 ∨ a.handleTaken = true) then
        let v := leNat (qPeek k x 4)
        let last := decide (a.itemsTaken + 1 = e)
        let k1 := modQ k x (fun iq =>
          let iq1 := qTake iq 4
          if last && decide (iq1.taken ≠ 0) then qDropEntries iq1 1 else iq1)
        let k2 := modQ k1 qi (fun q => modAct q a.seqNo (fun b =>
          { b with item := some (BitVec.ofNat 32 v), itemsTaken := b.itemsTaken + 1 }))
        let s1 := setCore s c k2
        let h := memHandle d a.handle
        let fits := runAllowed s k d (baseAddr d a.base h v) (dBytes d) &&
          (dBuf d == 0 || decide ((a.itemsTaken + 1) * dBytes d ≤ handleSize (a.handle.getD 0))) &&
          (!landsInBuffer d || decide (handleAddr (a.handle.getD 0) + (a.itemsTaken + 1) * dBytes d ≤ storeSize))
        if fits then s1 else skdFault c qi (fltD .bounds c qi.val a.index) s1
      else s

/-- A gather with no items is complete as soon as its count is known (R192). -/
def endEmptyGathers (k : Core) (qi : QId) (period : Nat) : Core :=
  let q := qOf k qi
  retireActs (modQ k qi (fun q0 => { q0 with act := q0.act.map (fun a =>
    if decide (dKind a.desc = 3) && decide (movedBytes k q a = some 0) && a.donePeriod.isNone &&
        (decide (dBuf a.desc = 0) || a.handleTaken) then
      { a with donePeriod := some (BitVec.ofNat 64 period) } else a) })) qi

/-- BOUT_PUSH: the handle of a complete descriptor passes on, from the period after its completion, once BOUT has room
(R200). -/
def pushBout (c : CoreId) (qi : QId) (s : State) : State :=
  let k := coreAt s c
  let q := qOf k qi
  match q.act.find? (fun a => a.donePeriod.isSome && dBoutEn a.desc && a.handleTaken) with
  | none => s
  | some a =>
    let b := dBout a.desc
    if (a.donePeriod.getD 0).toNat < periodAt s c ∧ (boomOf k b).length < 16 then
      setCore s c (setBoom (modQ k qi (fun q => { q with act := q.act.filter (fun x => x.seqNo != a.seqNo) })) b
        (boomOf k b ++ [a.handle.getD 0]))
    else s

/-! ### The credit watchdog -/

/-- Is a queue consumed by a gather. -/
def feedsGather (k : Core) (qi : QId) : Bool :=
  (List.finRange 16).any (fun q => (qOf k q).act.any (fun a => dKind a.desc == 3 && dIdxq a.desc == qi))

/-- Why the descriptor whose transfers issue is credit-blocked: its gather has no index value, or its index list, which a gather
consumes, no space in its queue (R201). -/
def issueBlock (k : Core) (qi : QId) (period : Nat) : Option (BitVec 3 × BitVec 4) :=
  let q := qOf k qi
  (issuing k q).bind (fun a =>
    let d := a.desc
    let handled := decide (dBuf d = 0) || a.handleTaken
    if handled && decide (dKind d = 3) && a.item.isNone && decide (qAvail (qOf k (dIdxq d)) period < 4) then
      some (0b001#3, BitVec.ofNat 4 (dIdxq d).val)
    else if handled && decide (dKind d = 4) && feedsGather k qi &&
        (match planNext k q a with | some p => !planFits q a p | none => false) then some (0b010#3, BitVec.ofNat 4 qi.val)
    else none)

/-- Why a queue is credit-blocked: the kind of spec/09, Table 10, and what it waits on. Any of its started descriptors may wait for its
handle in BIN, or to pass it on to BOUT (R201). -/
def creditBlock (k : Core) (qi : QId) (period : Nat) : Option (BitVec 3 × BitVec 4) :=
  let q := qOf k qi
  let waitsIn := (handleNext q).bind (fun a =>
    if (boomOf k (dBin a.desc)).isEmpty then some (0b011#3, BitVec.ofNat 4 (dBin a.desc).val) else none)
  let waitsOut := (q.act.find? (fun a =>
    a.donePeriod.isSome && dBoutEn a.desc && a.handleTaken && decide (16 ≤ (boomOf k (dBout a.desc)).length))).map (fun b =>
      (0b100#3, BitVec.ofNat 4 (dBout b.desc).val))
  ((issueBlock k qi period).or waitsIn).or waitsOut

/-- The credit-blocked periods of a core's queues after one more period (R201). -/
def creditPeriod (k : Core) (period : Nat) : Core :=
  (List.finRange 16).foldl (fun k qi =>
    let k1 := endEmptyGathers k qi period
    let b := (creditBlock k1 qi period).isSome && skdRuns k1 (qOf k1 qi)
    modQ k1 qi (fun q => { q with cblocked := b, cperiods := if b then q.cperiods + 1 else 0 })) k

/-- The credit limit in force (spec/09, Table 10). -/
def creditLimit (k : Core) : Nat := Nat.max k.skd.credwd.toNat 0x1000

/-- SKD_STALL notes a queue whose credit watchdog fires: the queue, what it waits on and why, and the period (R201). -/
def stallNote (c : CoreId) (qi : QId) (b : BitVec 3 × BitVec 4) (s : State) : State :=
  let st : SkdStall := { queue := BitVec.ofNat 4 qi.val, waited := b.2, kind := b.1, period := BitVec.ofNat 32 (periodAt s c) }
  modCore s c (fun k => { k with skd := { k.skd with stall := st } })

/-- CREDIT_WATCHDOG: a queue blocked for more than the limit fences its job (R201). -/
def creditFire (c : CoreId) (qi : QId) (s : State) : State :=
  let k := coreAt s c
  let q := qOf k qi
  if creditLimit k < q.cperiods then
    match creditBlock k qi (periodAt s c) with
    | none => s
    | some b => skdFault c qi (fltD .creditStall c qi.val b.2.toNat) (stallNote c qi b s)
  else s

/-! ### S-slot instructions -/

/-- An S-slot instruction that waits and cannot fault. -/
def sWait (c : CoreId) (wait : State → Option HoldCond) (f : Core → Core) : Issue :=
  { core := c, wait := wait, fault := noFault, effect := fun s => modCore s c f }

/-- The wait for `n` entries of a queue (R183). -/
def entriesWait (c : CoreId) (q : QId) (n : Nat) (s : State) : Option HoldCond :=
  if qReadable (qOf (coreAt s c) q) (periodAt s c) < n then some (holdQueue c q) else none

/-- WAITQ (R183). -/
def waitqIssue (c : CoreId) (q : QId) (nM1 : Fin 64) : Issue := sWait c (entriesWait c q (nM1.val + 1)) id

/-- SDROP (R182). -/
def sdropIssue (c : CoreId) (q : QId) (nM1 : Fin 64) : Issue :=
  sWait c (entriesWait c q (nM1.val + 1)) (fun k => modQ k q (fun x => qDropEntries x (nM1.val + 1)))

/-- Does an SDESC break R187. -/
def sdescBad (q : StreamQ) (n : Nat) : Bool :=
  decide (q.limit = 0) || decide (q.llen = 0) || decide (q.llen.toNat < n)

/-- `n` descriptors of the ring are released, from its release position on (R187). -/
def releaseRing (k : Core) (qi : QId) (n avail period : Nat) : Core :=
  (List.range n).foldl (fun k _ =>
    let q := qOf k qi
    let i := q.released.toNat % Nat.max q.llen.toNat 1
    let k1 := releaseDesc k qi i none avail period
    modQ k1 qi (fun q => { q with released := BitVec.ofNat 24 ((i + 1) % Nat.max q.llen.toNat 1) })) k

/-- SDESC (R187). -/
def sdescIssue (c : CoreId) (q : QId) (nM1 : Fin 1024) : Issue :=
  let n := nM1.val + 1
  { core := c
    wait := fun s =>
      let x := qOf (coreAt s c) q
      if !sdescBad x n && decide (x.llen.toNat < x.rel.length + n) then some (holdQueue c q) else none
    fault := fun s => firstFault c [(sdescBad (qOf (coreAt s c) q) n, .resourceConflict)]
    effect := fun s =>
      let now := nowAt s c
      let p := periodAt s c
      modCore s c (fun k => releaseRing k q n (now + 1) p) }

/-- SARM's waits, in order (R204). -/
def sarmWait (c : CoreId) (q : QId) (s : State) : Option HoldCond :=
  let x := qOf (coreAt s c) q
  if x.rel.any (fun r => decide (r.seqNo < x.armMark)) then some (holdQueue c q)
  else if x.staged then none
  else some { holdOn c 0b01#2 0x05 0x05 noPeer with arm := some q }

/-- SARM (R204). -/
def sarmIssue (c : CoreId) (q : QId) : Issue :=
  sWait c (sarmWait c q) (fun k =>
    let no := k.skd.relCount
    modQ k q (fun x => { x with base := x.next, staged := false, released := 0, armMark := no }))

/-- SFENCE (R198). -/
def sfenceIssue (c : CoreId) (q : QId) : Issue :=
  sWait c (fun s =>
    let x := qOf (coreAt s c) q
    if x.accepted < x.wTail then some (holdQueue c q) else none) id

/-- BPUSH (R199). -/
def bpushIssue (c : CoreId) (b : Fin 8) (rs : SReg) : Issue :=
  { core := c
    wait := noWait
    fault := fun s => firstFault c [(decide (16 ≤ (boomOf (coreAt s c) b).length), .queueOverrun)]
    effect := fun s =>
      let now := nowAt s c
      modCore s c (fun k => pushPend k { due := now + 1, issued := issueKey now 3, eff := .bpush b (sreg k rs) }) }

/-- Rows per group of a load or store (R196). -/
def rowsPerGroup (cfg : TileCfg) : Nat := 2048 / Nat.max (cfgRowBytes cfg) 1

/-- Groups of `m` rows. -/
def rowGroups (cfg : TileCfg) (m : Nat) : Nat := ceilDiv m (Nat.max (rowsPerGroup cfg) 1)

/-- The rows of group `g` of rows `f` to `f + m - 1`. -/
def groupOf (cfg : TileCfg) (f m g : Nat) : List Nat :=
  ((List.range (rowsPerGroup cfg)).map (fun i => g * rowsPerGroup cfg + i)).filter (fun i => decide (i < m)) |>.map (fun i => f + i)

/-- Scale bytes that row `r` of a load takes with it (R196). -/
def sldScaleBytes (cfg : TileCfg) (r : Nat) : Nat :=
  if cfgMx cfg then (if cfg.axis then (if r % 32 = 31 then cfgElems cfg else 0) else cfgElems cfg / 32) else 0

/-- The tile write of an SLD: one per group, in the tick after its wait. -/
def sldUses (k : Core) (t : TReg) (m now : Nat) : List PortUse :=
  [tileUse t.val (now + 1) 1 (rowGroups (tileOf k t).cfg m) true (issueKey now 3)]

/-- SLD (R196). -/
def sldIssue (c : CoreId) (q : QId) (t : TReg) (f mM1 : Fin 128) : Issue :=
  let m := mM1.val + 1
  { core := c
    wait := noWait
    fault := fun s =>
      let k := coreAt s c
      let now := nowAt s c
      let cfg := (tileOf k t).cfg
      firstFault c
        [(decide (cfg.rows.toNat < f.val + m) || (cfgMx cfg && (decide (q.val = 15) ||
            (cfg.axis && (decide (f.val % 32 ≠ 0) || decide (m % 32 ≠ 0))))), .shapeMismatch),
         (tileConflict k now (sldUses k t m now), .resourceConflict)]
    effect := fun s =>
      let now := nowAt s c
      modCore s c (fun k =>
        let k1 := takeTiles k (sldUses k t m now)
        { k1 with ops := k1.ops ++ [strmOf k (.sld c q t f mM1) (issueKey now 3) now 1 (rowGroups (tileOf k t).cfg m)] }) }

/-- The wait of an SLD's group: its row bytes, and its scale bytes in the next queue (R196). -/
def sldWait (s : State) (c : CoreId) (o : Strm) (q : QId) (t : TReg) (f mM1 : Fin 128) : Option HoldCond :=
  let k := coreAt s c
  let cfg := (tileOf k t).cfg
  let rows := groupOf cfg f.val (mM1.val + 1) o.next
  let p := periodAt s c
  let sc := rows.foldl (fun a r => a + sldScaleBytes cfg r) 0
  let q2 : QId := if h : q.val + 1 < 16 then ⟨q.val + 1, h⟩ else q
  if qAvail (qOf k q) p < rows.length * cfgRowBytes cfg then some (holdQueue c q)
  else if qAvail (qOf k q2) p < sc then some (holdQueue c q2)
  else none

/-- SLD_GROUP_LOAD: a group's rows are taken and written, readable 2 ticks later (R196, R104). -/
def sldStep (k : Core) (o : Strm) (q : QId) (t : TReg) (f mM1 : Fin 128) (now : Nat) : Core :=
  let cfg := (tileOf k t).cfg
  let rb := cfgRowBytes cfg
  let rows := groupOf cfg f.val (mM1.val + 1) o.next
  let bs := qPeek k q (rows.length * rb)
  let k1 := modQ k q (fun x => qTake x (rows.length * rb))
  let q2 : QId := if h : q.val + 1 < 16 then ⟨q.val + 1, h⟩ else q
  let sc := rows.foldl (fun a r => a + sldScaleBytes cfg r) 0
  let ss := qPeek k1 q2 sc
  let k2 := if sc = 0 then k1 else modQ k1 q2 (fun x => qTake x sc)
  let bytes := (List.range rows.length).flatMap (fun i => rowCells cfg (rows.getD i 0) ((bs.drop (i * rb)).take rb))
  let scales := (rows.foldl (fun (a : Nat × List (Nat × Byte)) r =>
    let n := sldScaleBytes cfg r
    let base := if cfg.axis then r / 32 * 512 else r * 16
    (a.1 + n, a.2 ++ (List.range n).map (fun i => (base + i, ss.getD (a.1 + i) 0)))) (0, [])).2
  let done := f.val + Nat.min (mM1.val + 1) ((o.next + 1) * rowsPerGroup cfg)
  pushPend k2 { due := now + 2, issued := o.issued,
                eff := .tile t bytes scales (some (loadRow done (f.val + mM1.val + 1))) }

/-- The tile reads of an SPUT: one per group. -/
def sputUses (k : Core) (x : SputFields) (now : Nat) : List PortUse :=
  [tileUse x.tile.val now 1 (rowGroups (tileOf k x.tile).cfg (x.mM1.val + 1)) false (issueKey now 3)]

/-- SPUT (R197). -/
def sputIssue (c : CoreId) (x : SputFields) : Issue :=
  let m := x.mM1.val + 1
  { core := c
    wait := noWait
    fault := fun s =>
      let k := coreAt s c
      let now := nowAt s c
      let cfg := (tileOf k x.tile).cfg
      firstFault c
        [((tileOf k x.tile).empty, .tileEmpty),
         (decide (cfg.rows.toNat < x.f.val + m) || (x.plane && (!cfgMx cfg || cfg.axis)), .shapeMismatch),
         (!(qOf k x.q).write || tileConflict k now (sputUses k x now), .resourceConflict)]
    effect := fun s =>
      let now := nowAt s c
      modCore s c (fun k =>
        let k1 := takeTiles k (sputUses k x now)
        { k1 with ops := k1.ops ++
            [strmOf k (.sput c x) (issueKey now 3) now 1 (rowGroups (tileOf k x.tile).cfg m)] }) }

/-- An SPUT's group is read and on its way to the write queue (R197). -/
def sputStep (k : Core) (o : Strm) (x : SputFields) (now : Nat) : Core :=
  let u := tileOf k x.tile
  let rows := groupOf u.cfg x.f.val (x.mM1.val + 1) o.next
  let bs := rows.flatMap (fun r =>
    if x.plane then (List.range (cfgElems u.cfg / 32)).map (fun i => tileScale u (r * 16 + i))
    else (List.range (cfgRowBytes u.cfg)).map (tileByte u r))
  pushPend k { due := now + 2, issued := o.issued, eff := .qput x.q bs }

/-- The wait of a group's write into its queue (R197). -/
def qputWait (k : Core) (c : CoreId) (q : QId) (n : Nat) : Option HoldCond :=
  if wqFits (qOf k q) n then none else some (holdOn c 0b10#2 0x04 0x04 noPeer)

/-- WAITQ (R183). -/
def execWaitq (c : CoreId) (q : QId) (n : Fin 64) (s : State) : Host.Outcome State Fault Refusal :=
  .next (runIssue (waitqIssue c q n) (.waitq c q n) s)

/-- SDROP (R182). -/
def execSdrop (c : CoreId) (q : QId) (n : Fin 64) (s : State) : Host.Outcome State Fault Refusal :=
  .next (runIssue (sdropIssue c q n) (.sdrop c q n) s)

/-- SARM (R204). -/
def execSarm (c : CoreId) (q : QId) (s : State) : Host.Outcome State Fault Refusal :=
  .next (runIssue (sarmIssue c q) (.sarm c q) s)

/-- SFENCE (R198). -/
def execSfence (c : CoreId) (q : QId) (s : State) : Host.Outcome State Fault Refusal :=
  .next (runIssue (sfenceIssue c q) (.sfence c q) s)

/-- SLD (R196). -/
def execSld (c : CoreId) (q : QId) (t : TReg) (f m : Fin 128) (s : State) : Host.Outcome State Fault Refusal :=
  .next (runIssue (sldIssue c q t f m) (.sld c q t f m) s)

/-- SPUT (R197). -/
def execSput (c : CoreId) (x : SputFields) (s : State) : Host.Outcome State Fault Refusal :=
  .next (runIssue (sputIssue c x) (.sput c x) s)

/-- DESCRIPTOR_START (R188). -/
def execDescriptorStart (c : CoreId) (q : QId) (s : State) : Host.Outcome State Fault Refusal := .next (startDesc c q s)

/-- HANDLE_TAKE (R200). -/
def execHandleTake (c : CoreId) (q : QId) (s : State) : Host.Outcome State Fault Refusal := .next (takeHandle c q s)

/-- TRANSFER_ISSUE (R189). -/
def execTransferIssue (c : CoreId) (s : State) : Host.Outcome State Fault Refusal := .next (issueTransfer c s)

/-- RETURN_LAND (R181). -/
def execReturnLand (c : CoreId) (q : QId) (id : Nat) (s : State) : Host.Outcome State Fault Refusal :=
  .next (landReturn c q id s)

/-- GATHER_INDEX_TAKE (R192). -/
def execGatherIndexTake (c : CoreId) (q : QId) (s : State) : Host.Outcome State Fault Refusal := .next (takeIndex c q s)

/-- WRITE_ACCEPT (R198). -/
def execWriteAccept (c : CoreId) (q : QId) (id : Nat) (s : State) : Host.Outcome State Fault Refusal :=
  .next (acceptWrite c q id s)

/-- BOUT_PUSH (R200). -/
def execBoutPush (c : CoreId) (q : QId) (s : State) : Host.Outcome State Fault Refusal := .next (pushBout c q s)

/-- CREDIT_WATCHDOG (R201). -/
def execCreditWatchdog (c : CoreId) (q : QId) (s : State) : Host.Outcome State Fault Refusal := .next (creditFire c q s)

end Sys2Proof.Machine
end

