-- ==== Sys2Proof/Machine/Channels.lean ====
section
/-! DEFINITION. Channels between cores: endpoints, credits, paths, landing, closing (R206 to R219, R224). -/

namespace Sys2Proof.Machine

/-- END of a channel word: the receive end (spec/10, Table 1). -/
def chRecv (w : BitVec 29) : Bool := bitOf w.toNat 0
/-- PEER_CORE. -/
def chPeer (w : BitVec 29) : Nat := fieldOf w.toNat 1 7
/-- PEER_EP. -/
def chPeerEp (w : BitVec 29) : Fin 32 := ⟨fieldOf w.toNat 8 5, Nat.mod_lt _ (by decide)⟩
/-- DIR. -/
def chDir (w : BitVec 29) : Dir := if bitOf w.toNat 13 then .ccw else .cw
/-- D, the depth (R206). -/
def chDepth (w : BitVec 29) : Nat := fieldOf w.toNat 14 6 + 1
/-- LAND. -/
def chLand (w : BitVec 29) : Nat := fieldOf w.toNat 20 3
/-- TARGET as a stream queue. -/
def chTarget (w : BitVec 29) : QId := ⟨fieldOf w.toNat 23 4, Nat.mod_lt _ (by decide)⟩
/-- TARGET as a Boom queue or combining queue: bits [25:23]. -/
def chTarget3 (w : BitVec 29) : Fin 8 := ⟨fieldOf w.toNat 23 3, Nat.mod_lt _ (by decide)⟩
/-- AUTOACK. -/
def chAutoAck (w : BitVec 29) : Bool := bitOf w.toNat 27
/-- TOLERATE_CLOSE. -/
def chTolerate (w : BitVec 29) : Bool := bitOf w.toNat 28

/-- An endpoint of a core. -/
def epOf (k : Core) (e : Fin 32) : Endpoint := k.eps.get e

/-- A core with an endpoint changed. -/
def modEp (k : Core) (e : Fin 32) (f : Endpoint → Endpoint) : Core := { k with eps := k.eps.set e.val (f (epOf k e)) e.isLt }

/-- The state with an endpoint changed. -/
def setEp (c : CoreId) (e : Fin 32) (f : Endpoint → Endpoint) (s : State) : State := modCore s c (fun k => modEp k e f)

/-- The opposite direction. -/
def dirOpp (d : Dir) : Dir := match d with | .cw => .ccw | .ccw => .cw

/-- Is a channel between two cores within one region (R209). -/
def oneRegion (s : State) (c : CoreId) (w : BitVec 29) : Bool :=
  match physicalOf s (chPeer w) with
  | some p => decide (regionOf p = regionOf c)
  | none => false

/-- DETAIL1 of a fence record that names a channel's peer (spec/12, Table 11). -/
def peerDetail (w : BitVec 29) : Nat := chPeer w * 256 + (chPeerEp w).val

/-- The messages of a region's source lane in its crossing buffers (R210). -/
def laneOf (g : Region) (d : Dir) : List LaneItem := match d with | .cw => g.laneCw | .ccw => g.laneCcw

/-- A region with a source lane replaced. -/
def setLane (g : Region) (d : Dir) (l : List LaneItem) : Region :=
  match d with | .cw => { g with laneCw := l } | .ccw => { g with laneCcw := l }

/-- Send an item from endpoint `e` of core `c` to the peer that the channel word `w` names: within a region it takes effect 4
ticks later, and across regions it travels on the message lane, a message through the crossing buffers on its way (R209, R210). An
item to a logical core that the part does not have goes nowhere. -/
def sendItem (c : CoreId) (e : Fin 32) (w : BitVec 29) (gen : BitVec 4) (kind : ChMsgKind) (s : State) : State :=
  match physicalOf s (chPeer w) with
  | none => s
  | some p =>
    let near := decide (regionOf p = regionOf c)
    let isMsg := match kind with | .message _ => true | _ => false
    let d := if isMsg then chDir w else dirOpp (chDir w)
    let m : ChMsg :=
      { kind := kind, srcCore := c, srcEp := e, gen := gen, due := if near then some (nowAt s c + 4) else none, dir := d,
        passed := near || !isMsg }
    let s1 := setEp p (chPeerEp w) (fun x => { x with transit := x.transit ++ [m] }) s
    if near || !isMsg then s1
    else modRegion s1 (regionOf c) (fun g =>
      setLane g d (laneOf g d ++ [{ core := p, ep := chPeerEp w, at_ := regionOf c }]))

/-- Mark the first message of a source lane that has not passed its last crossing as past it. -/
def markPassed (q : RegionId) (d : Dir) : List ChMsg → List ChMsg
  | [] => []
  | m :: rest =>
    if m.passed = false ∧ regionOf m.srcCore = q ∧ m.dir = d then { m with passed := true } :: rest
    else m :: markPassed q d rest

/-- How many messages of a source lane stand in the crossing buffer out of region `b`. -/
def laneCount (l : List LaneItem) (b : RegionId) : Nat := (l.filter (fun x => decide (x.at_ = b))).length

/-- One message of the source lane of region `q` passes the crossing out of region `b`, where the next buffer on its way has room
(R210). -/
def lanePass (b : RegionId) (d : Dir) (q : RegionId) (s : State) : State :=
  let l := laneOf (regionAt s q) d
  let n := nextRegion b d
  match l.find? (fun x => decide (x.at_ = b)) with
  | none => s
  | some x =>
    let rest := l.erase x
    if regionOf x.core = n then
      setEp x.core x.ep (fun y => { y with transit := markPassed q d y.transit }) (modRegion s q (fun g => setLane g d rest))
    else if laneCount l n < crossingDepth then modRegion s q (fun g => setLane g d (rest ++ [{ x with at_ := n }]))
    else s

/-- One period of the message crossings out of region `b`: each source lane passes at most one message (R210). -/
def lanePeriod (b : RegionId) (s : State) : State :=
  (List.finRange 17).foldl (fun u q => lanePass b .ccw q (lanePass b .cw q u)) s

/-- A message that landed or whose discard notice came back is settled at its sender (R217). -/
def settle (m : ChMsg) (s : State) : State := setEp m.srcCore m.srcEp (fun x => { x with unsettled := x.unsettled - 1 }) s

/-- Return `n` credits from a receive end to its peer, with its generation (R208). -/
def sendCredit (c : CoreId) (e : Fin 32) (n : Nat) (s : State) : State :=
  let x := epOf (coreAt s c) e
  sendItem c e x.word x.gen (.credit n (chDepth x.word)) s

/-! ### Landing -/

/-- Does a word name this core's endpoint's peer. -/
def peerIs (s : State) (w : BitVec 29) (m : ChMsg) : Bool :=
  decide (logicalOf s m.srcCore = some (chPeer w)) && decide (chPeerEp w = m.srcEp)

/-- The descriptor that a wide contribution releases (R222). -/
def combDesc (d : Desc) : Desc :=
  let w0 := d.word0.toNat
  let row := if bitOf w0 0 then 64 else 16
  let n := fieldOf w0 9 7 + 1
  let pitch := fieldOf d.word2.toNat 0 24
  { word0 := BitVec.ofNat 64 (packFields [(0, 1), (4, bitNat (bitOf w0 1)), (24, n * row)])
    word1 := BitVec.ofNat 64 (fieldOf d.word1.toNat 0 48)
    word2 := BitVec.ofNat 64 (packFields [(0, row), (24, if pitch = 0 then row else pitch)])
    word3 := 0 }

/-- COMBINE_ENTRY: a contribution enters a combining queue; a wide one releases a read descriptor to SQ (R222). -/
def combEnter (k : Core) (q : Fin 8) (d : Desc) (now period : Nat) : Core :=
  let x := k.combs.get q
  let k1 := { k with combs := k.combs.set q.val { x with entries := x.entries ++
    [{ words := d, entered := now, rowsDone := 0 }] } q.isLt }
  if x.mode then releaseDesc k1 x.sq 0 (some (combDesc d)) now period else k1

/-- Can the head message of a receive end land now (spec/10, Table 2). -/
def canLand (k : Core) (x : Endpoint) : Bool :=
  match chLand x.word with
  | 0 => false
  | 2 => decide ((boomOf k (chTarget3 x.word)).length < 16)
  | 5 => decide ((k.combs.get (chTarget3 x.word)).entries.length < 16)
  | _ => true

/-- The effect of a landing (spec/10, Table 2). -/
def landEffect (k : Core) (e : Fin 32) (d : Desc) (now period : Nat) : Core :=
  let x := epOf k e
  match chLand x.word with
  | 1 =>
    let qi := chTarget x.word
    let q := qOf k qi
    let a := q.lbase.toNat * 32 + q.released.toNat % Nat.max q.llen.toNat 1 * 32
    releaseRing { k with store := memWrite k.store a (descBytes d) } qi 1 now period
  | 2 => setBoom k (chTarget3 x.word) (boomOf k (chTarget3 x.word) ++ [d.word0])
  | 3 =>
    if x.rlen = 0 then k
    else
      let i := x.pos.toNat % x.rlen.toNat
      modEp { k with store := memWrite k.store (x.rbase.toNat * 32 + i * 32) (descBytes d) } e
        (fun y => { y with pos := BitVec.ofNat 10 ((i + 1) % y.rlen.toNat) })
  | 4 => modEp k e (fun y => { y with flag := y.flag + 1#32 })
  | 5 => combEnter k (chTarget3 x.word) d now period
  | _ => k

/-- Do credits return by themselves at each landing (R208). -/
def autoAcks (w : BitVec 29) : Bool := chAutoAck w && [1, 3, 4].contains (chLand w)

/-- Messages that wait in an endpoint land, oldest first, as far as their target has room (R214). -/
def drainHeld (c : CoreId) (e : Fin 32) : Nat → State → State
  | 0, s => s
  | n + 1, s =>
    let k := coreAt s c
    let x := epOf k e
    match x.held with
    | [] => s
    | d :: rest =>
      if canLand k x then
        let k1 := landEffect (modEp k e (fun y => { y with held := rest })) e d (nowAt s c) (periodAt s c)
        let s1 := setCore s c k1
        let s2 := match physicalOf s (chPeer x.word) with
          | some p => setEp p (chPeerEp x.word) (fun y => { y with unsettled := y.unsettled - 1 }) s1
          | none => s1
        drainHeld c e n
          (if autoAcks x.word then sendCredit c e 1 (setEp c e (fun y => { y with occ := y.occ - 1#7 }) s2) else s2)
      else s

/-- A message reaches an endpoint: it is held there and lands as soon as it can, or it is discarded with a notice where the
endpoint is closed, names another peer or has another generation (R208, R214, R217). -/
def arriveMessage (c : CoreId) (e : Fin 32) (m : ChMsg) (d : Desc) (s : State) : State :=
  let x := epOf (coreAt s c) e
  if x.isOpen ∧ chRecv x.word = true ∧ peerIs s x.word m = true ∧ m.gen = x.gen then
    let s1 := setEp c e (fun y => { y with held := y.held ++ [d], occ := y.occ + 1#7 }) s
    if chLand x.word = 0 then settle m s1 else drainHeld c e 65 s1
  else
    match logicalOf s m.srcCore with
    | none => s
    | some l =>
      let back : BitVec 29 := BitVec.ofNat 29
        (packFields [(1, l), (8, m.srcEp.val), (13, match m.dir with | .cw => 0 | .ccw => 1)])
      sendItem c e back m.gen (.discard false) s

/-- A message of a send end is discarded: counted where closing is tolerated, a fault otherwise (R217). -/
def discardAt (c : CoreId) (e : Fin 32) (s : State) : State :=
  let x := epOf (coreAt s c) e
  if chTolerate x.word then
    modCore s c (fun k => { k with chDiscards := BitVec.ofNat 32 (satAdd 32 k.chDiscards.toNat 1) })
  else raiseFault c (rankUnit (24 + e.val)) (fltD .channelClosed c e.val (peerDetail x.word)) s

/-- An item that reaches its endpoint takes effect (R208, R214, R216, R217). -/
def arrive (c : CoreId) (e : Fin 32) (m : ChMsg) (s : State) : State :=
  let x := epOf (coreAt s c) e
  let sends := x.isOpen && !chRecv x.word && peerIs s x.word m
  match m.kind with
  | .message d => arriveMessage c e m d s
  | .credit n depth =>
    if sends then
      setEp c e (fun y => { y with credits := BitVec.ofNat 7 (Nat.max y.credits.toNat (Nat.min (y.credits.toNat + n) depth)),
                                   creditGen := m.gen }) s
    else s
  | .close => if sends then setEp c e (fun y => { y with peerClosed := true }) s else s
  | .discard landed =>
    let s1 := if landed then s else setEp c e (fun y => { y with unsettled := y.unsettled - 1 }) s
    if sends then discardAt c e s1 else s1

/-- Is this item a message. -/
def isMessage (m : ChMsg) : Bool := match m.kind with | .message _ => true | _ => false

/-- The first item that `want` accepts and that no item of the same lane and source, still on its way, precedes (R211). -/
def nextItem (want : ChMsg → Bool) : List ChMsg → List ChMsg → Option ChMsg
  | _, [] => none
  | seen, m :: r =>
    if want m && !seen.any (fun x => isMessage x == isMessage m && decide (x.srcCore = m.srcCore ∧ x.srcEp = m.srcEp)) then some m
    else nextItem want (seen ++ [m]) r

/-- Remove the first item equal to `m`. -/
def dropItem (m : ChMsg) : List ChMsg → List ChMsg
  | [] => []
  | x :: r => if x = m then r else x :: dropItem m r

/-- May an item that `kind` selects reach its endpoint now: within a region from its tick on; from another region, at any time
after its last crossing (R209, R210). -/
def mayArrive (kind : ChMsgKind → Bool) (now : Nat) (m : ChMsg) : Bool :=
  kind m.kind && m.passed && (match m.due with | some t => decide (t ≤ now) | none => true)

/-- The next item of a kind reaches an endpoint. -/
def arriveKind (kind : ChMsgKind → Bool) (c : CoreId) (e : Fin 32) (s : State) : State :=
  match nextItem (mayArrive kind (nowAt s c)) [] (epOf (coreAt s c) e).transit with
  | none => s
  | some m => arrive c e m (setEp c e (fun x => { x with transit := dropItem m x.transit }) s)

/-- Items from the own region whose tick has come reach an endpoint, in their order, and waiting messages land (R209, R214). -/
def arriveDue (c : CoreId) (e : Fin 32) : Nat → State → State
  | 0, s => s
  | n + 1, s =>
    match (epOf (coreAt s c) e).transit.find? (fun m => match m.due with | some t => decide (t ≤ nowAt s c) | none => false) with
    | none => drainHeld c e 65 s
    | some m => arriveDue c e n (arrive c e m (setEp c e (fun x => { x with transit := dropItem m x.transit }) s))

/-- Every endpoint of a core at the start of a tick, in increasing number (R209, R215). -/
def channelTick (c : CoreId) (s : State) : State :=
  (List.finRange 32).foldl (fun u e => arriveDue c e ((epOf (coreAt u c) e).transit.length + 1) u) s

/-! ### Opening and closing -/

/-- An endpoint closes (R216). -/
def closeEp (c : CoreId) (e : Fin 32) (s : State) : State :=
  let x := epOf (coreAt s c) e
  if x.isOpen then
    let s1 := setEp c e (fun y => { y with isOpen := false, credits := 0, occ := 0, held := [] }) s
    if chRecv x.word then
      let s2 := sendItem c e x.word x.gen .close s1
      x.held.foldl (fun u _ => sendItem c e x.word x.gen (.discard (decide (chLand x.word = 0))) u) s2
    else s1
  else s

/-- Every endpoint of a core closes (R216). -/
def closeAll (c : CoreId) (s : State) : State := (List.finRange 32).foldl (fun u e => closeEp c e u) s

/-- An endpoint opens with a channel word (R207, R208, R218). -/
def openEp (c : CoreId) (e : Fin 32) (w : BitVec 29) (s : State) : State :=
  setEp c e (fun y =>
    { y with
      word := w, isOpen := true, credits := 0, occ := 0, gen := if chRecv w then y.gen + 1#4 else y.gen
      creditGen := 0, peerClosed := false, pos := 0, flag := 0, held := [] }) s

/-- The credits that a receive end sends as it opens (R208). -/
def openCredits (c : CoreId) (e : Fin 32) (w : BitVec 29) (s : State) : State :=
  if chRecv w then sendItem c e w ((epOf (coreAt s c) e).gen + 1#4) (.credit (chDepth w) (chDepth w)) s else s

/-- Does an open endpoint of the core name the stream queue, or the Boom queue, that `w` names (R215). -/
def targetNamed (k : Core) (w : BitVec 29) : Bool :=
  (List.finRange 32).any (fun e =>
    let x := epOf k e
    x.isOpen && chRecv x.word && decide (chLand x.word = chLand w) &&
      ((decide (chLand w = 1) && decide (chTarget x.word = chTarget w)) ||
        (decide (chLand w = 2) && decide (chTarget3 x.word = chTarget3 w))))

/-- The faults of an OPEN (spec/10, Table 6): fields that do not apply to the end are ignored (R207). -/
def openFault (s : State) (c : CoreId) (e : Fin 32) (v : Nat) : Option Status :=
  let k := coreAt s c
  let w := BitVec.ofNat 29 v
  let x := epOf k e
  let recv := chRecv w
  if decide (v / 2 ^ 29 ≠ 0) || (recv && (decide (6 ≤ chLand w) || (chAutoAck w && !autoAcks w))) then some .badParam
  else if decide (s.activeCores.toNat ≤ chPeer w) ||
      ((!recv || decide (chLand w = 3)) && decide (storeSize < x.rbase.toNat * 32 + x.rlen.toNat * 32)) then some .bounds
  else if x.isOpen || (recv && (targetNamed k w || (decide (chLand w = 1) && (qOf k (chTarget w)).write))) then
    some .resourceConflict
  else none

/-- OPEN (R207). -/
def openIssue (c : CoreId) (e : Fin 32) (rs : SReg) : Issue :=
  { core := c
    wait := noWait
    fault := fun s => (openFault s c e (sreg (coreAt s c) rs).toNat).map (fun st => flt st c)
    effect := fun s =>
      let now := nowAt s c
      let w := (sreg (coreAt s c) rs).setWidth 29
      openCredits c e w
        (modCore s c (fun k => pushPend k { due := now + 1, issued := issueKey now 4, eff := .chOpen e w })) }

/-- CLOSE (R216). -/
def closeIssue (c : CoreId) (e : Fin 32) : Issue :=
  { core := c, wait := noWait, fault := noFault
    effect := fun s =>
      let now := nowAt s c
      modCore s c (fun k => pushPend k { due := now + 1, issued := issueKey now 4, eff := .chClose e }) }

/-- Is this an open send end. -/
def isSendEnd (x : Endpoint) : Bool := x.isOpen && !chRecv x.word

/-- Is this an open receive end. -/
def isRecvEnd (x : Endpoint) : Bool := x.isOpen && chRecv x.word

/-- Is a CSEND of the core in progress. -/
def csendBusy (k : Core) : Bool := k.ops.any (fun o => match o.instr with | .csend _ _ _ => true | _ => false)

/-- CSEND (R212). -/
def csendIssue (c : CoreId) (e : Fin 32) (nM1 : Fin 64) : Issue :=
  { core := c
    wait := noWait
    fault := fun s =>
      let k := coreAt s c
      let x := epOf k e
      firstFault c [(!isSendEnd x || decide (x.rlen = 0) || csendBusy k, .resourceConflict)]
    effect := fun s =>
      let now := nowAt s c
      modCore s c (fun k =>
        { k with ops := k.ops ++ [strmOf k (.csend c e nM1) (issueKey now 4) now 1 (nM1.val + 1)] }) }

/-- The hold index of a channel: outbound for sends, inbound for waits (R212, R218). -/
def chQueue (w : BitVec 29) (out : Bool) : Nat := flumeQueue (chDir w) out

/-- The hold of a channel wait, with the details the watchdog records (R219). -/
def chHold (c : CoreId) (e : Fin 32) (w : BitVec 29) (out : Bool) : HoldCond :=
  holdOn c (if out then 0b10#2 else 0b01#2) (chQueue w out) (0x100 + e.val) (peerDetail w)

/-- The wait of a message's sending on a cross-region channel: a credit, and room in the first crossing buffer
(R210, R212). -/
def csendWait (s : State) (c : CoreId) (e : Fin 32) : Option HoldCond :=
  let x := epOf (coreAt s c) e
  if oneRegion s c x.word || (x.isOpen && x.peerClosed) then none
  else if x.credits = 0 ∨ crossingDepth ≤ laneCount (laneOf (regionAt s (regionOf c)) (chDir x.word)) (regionOf c) then
    some (chHold c e x.word true)
  else none

/-- A message of a CSEND leaves (R212, R217). -/
def csendStep (c : CoreId) (e : Fin 32) (issued : Nat) (s : State) : State :=
  let k := coreAt s c
  let x := epOf k e
  let i := x.pos.toNat % Nat.max x.rlen.toNat 1
  let step (u : State) : State :=
    setEp c e (fun y => { y with pos := BitVec.ofNat 10 ((i + 1) % Nat.max y.rlen.toNat 1) }) u
  if isSendEnd x && x.peerClosed then
    if chTolerate x.word then
      step (modCore s c (fun k => { k with chDiscards := BitVec.ofNat 32 (satAdd 32 k.chDiscards.toNat 1) }))
    else raiseFault c (opRank (nowAt s c) issued) (fltD .channelClosed c e.val (peerDetail x.word)) s
  else if x.credits = 0 then
    raiseFault c (opRank (nowAt s c) issued) (fltD .queueOverrun c (0x100 + e.val) (peerDetail x.word)) s
  else
    let d := readDesc (sentStore k) (x.rbase.toNat * 32 + i * 32)
    sendItem c e x.word x.creditGen (.message d)
      (step (setEp c e (fun y => { y with credits := y.credits - 1#7, unsettled := y.unsettled + 1 }) s))

/-- CACK (R208). -/
def cackIssue (c : CoreId) (e : Fin 32) (nM1 : Fin 64) : Issue :=
  { core := c
    wait := noWait
    fault := fun s =>
      let x := epOf (coreAt s c) e
      firstFault c [(!isRecvEnd x || decide (chLand x.word = 0), .resourceConflict)]
    effect := fun s =>
      let n := nM1.val + 1
      sendCredit c e n (setEp c e (fun y => { y with occ := BitVec.ofNat 7 (y.occ.toNat - n) }) s) }

/-- CWAIT (R218). -/
def cwaitIssue (c : CoreId) (e : Fin 32) (rs : SReg) : Issue :=
  let bad (s : State) : Bool :=
    let x := epOf (coreAt s c) e
    !isRecvEnd x || decide (chLand x.word ≠ 4)
  let unmet (s : State) : Bool :=
    decide ((epOf (coreAt s c) e).flag.toNat < fieldOf (sreg (coreAt s c) rs).toNat 0 32)
  { core := c
    wait := fun s =>
      let x := epOf (coreAt s c) e
      if !bad s && unmet s && !oneRegion s c x.word then some (chHold c e x.word false) else none
    fault := fun s =>
      let x := epOf (coreAt s c) e
      if bad s then some (flt .resourceConflict c)
      else if unmet s then some (fltD .queueUnderrun c (0x100 + e.val) (peerDetail x.word))
      else none
    effect := id }

/-- Is a queue the target of an open descriptor-landing endpoint (R215). -/
def queueNamed (k : Core) (q : QId) : Bool :=
  (List.finRange 32).any (fun e => isRecvEnd (epOf k e) && decide (chLand (epOf k e).word = 1) && decide (chTarget (epOf k e).word = q))

/-- Is a Boom queue the target of an open handle-landing endpoint (R215). -/
def boomNamed (k : Core) (b : Fin 8) : Bool :=
  (List.finRange 32).any (fun e => isRecvEnd (epOf k e) && decide (chLand (epOf k e).word = 2) && decide (chTarget3 (epOf k e).word = b))

/-- An SDESC or BPUSH to the target of an open endpoint faults (R215). -/
def withTargetCheck (named : Core → Bool) (x : Issue) : Issue :=
  { x with
    wait := fun s => if named (coreAt s x.core) then none else x.wait s
    fault := fun s =>
      match x.fault s with
      | some f => some f
      | none => if named (coreAt s x.core) then some (flt .resourceConflict x.core) else none }

/-- SDESC with the check of R215. -/
def sdescFull (c : CoreId) (q : QId) (n : Fin 1024) : Issue := withTargetCheck (fun k => queueNamed k q) (sdescIssue c q n)

/-- BPUSH with the check of R215. -/
def bpushFull (c : CoreId) (b : Fin 8) (k : SReg) : Issue := withTargetCheck (fun x => boomNamed x b) (bpushIssue c b k)

/-- OPEN (R207). -/
def execChOpen (c : CoreId) (e : Fin 32) (k : SReg) (s : State) : Host.Outcome State Fault Refusal :=
  .next (runIssue (openIssue c e k) (.chOpen c e k) s)

/-- CLOSE (R216). -/
def execChClose (c : CoreId) (e : Fin 32) (s : State) : Host.Outcome State Fault Refusal :=
  .next (runIssue (closeIssue c e) (.chClose c e) s)

/-- CSEND (R212). -/
def execCsend (c : CoreId) (e : Fin 32) (n : Fin 64) (s : State) : Host.Outcome State Fault Refusal :=
  .next (runIssue (csendIssue c e n) (.csend c e n) s)

/-- CACK (R208). -/
def execCack (c : CoreId) (e : Fin 32) (n : Fin 64) (s : State) : Host.Outcome State Fault Refusal :=
  .next (runIssue (cackIssue c e n) (.cack c e n) s)

/-- CWAIT (R218). -/
def execCwait (c : CoreId) (e : Fin 32) (k : SReg) (s : State) : Host.Outcome State Fault Refusal :=
  .next (runIssue (cwaitIssue c e k) (.cwait c e k) s)

/-- SDESC (R187, R215). -/
def execSdesc (c : CoreId) (q : QId) (n : Fin 1024) (s : State) : Host.Outcome State Fault Refusal :=
  .next (runIssue (sdescFull c q n) (.sdesc c q n) s)

/-- BPUSH (R199, R215). -/
def execBpush (c : CoreId) (b : Fin 8) (k : SReg) (s : State) : Host.Outcome State Fault Refusal :=
  .next (runIssue (bpushFull c b k) (.bpush c b k) s)

/-- MESSAGE_LAND (R214). -/
def execMessageLand (c : CoreId) (e : Fin 32) (s : State) : Host.Outcome State Fault Refusal :=
  .next (drainHeld c e 65 (arriveKind (fun k => match k with | .message _ => true | _ => false) c e s))

/-- CREDIT_ARRIVE (R208). -/
def execCreditArrive (c : CoreId) (e : Fin 32) (s : State) : Host.Outcome State Fault Refusal :=
  .next (arriveKind (fun k => match k with | .credit _ _ => true | _ => false) c e s)

/-- CLOSE_NOTICE (R216, R217). -/
def execCloseNotice (c : CoreId) (e : Fin 32) (s : State) : Host.Outcome State Fault Refusal :=
  .next (arriveKind (fun k => match k with | .close => true | _ => false) c e s)

/-- DISCARD_NOTICE (R217). -/
def execDiscardNotice (c : CoreId) (e : Fin 32) (s : State) : Host.Outcome State Fault Refusal :=
  .next (settleFaults (regionOf c) (arriveKind (fun k => match k with | .discard _ => true | _ => false) c e s))

end Sys2Proof.Machine
end

