-- ==== Sys2Proof/Machine/Crypto.lean ====
section
/-! DEFINITION. The random function: AES-128 as FIPS 197 defines it, over the counter block of R74, and the draws of R75 to
R77. -/

namespace Sys2Proof.Machine

/-- Multiplication by x in the field of FIPS 197. -/
def gfDouble (a : Nat) : Nat := if a < 128 then a * 2 else Nat.xor (a * 2 - 256) 0x1B

/-- Multiplication in the field of FIPS 197, over the low `n` bits of `b`. -/
def gfMul : Nat → Nat → Nat → Nat
  | 0, _, _ => 0
  | n + 1, a, b => Nat.xor (if b % 2 = 1 then a else 0) (gfMul n (gfDouble a) (b / 2))

/-- Squares `n` times. -/
def gfSquares : Nat → Nat → Nat
  | 0, a => a
  | n + 1, a => gfSquares n (gfMul 8 a a)

/-- The inverse in the field of FIPS 197: the 254th power; 0 for 0. -/
def gfInv (a : Nat) : Nat :=
  (List.range 7).foldl (fun p i => gfMul 8 p (gfSquares (i + 1) a)) 1

/-- The affine part of the S-box: the byte, rotated left by 0 to 4, summed with 0x63. -/
def rotByte (b n : Nat) : Nat := b * 2 ^ n % 256 + b / 2 ^ (8 - n)

/-- The S-box of FIPS 197. -/
def sboxOf (a : Nat) : Nat :=
  let b := if a = 0 then 0 else gfInv a
  Nat.xor 0x63 (Nat.xor b (Nat.xor (rotByte b 1) (Nat.xor (rotByte b 2) (Nat.xor (rotByte b 3) (rotByte b 4)))))

/-- The next 16 bytes of the key schedule from the previous 16 and the round constant. -/
def nextRoundKey (k : List Nat) (rcon : Nat) : List Nat :=
  let g (i : Nat) : Nat := k.getD i 0
  let t (i : Nat) : Nat := Nat.xor (sboxOf (g (12 + (i + 1) % 4))) (if i = 0 then rcon else 0)
  let w0 := (List.range 4).map (fun i => Nat.xor (g i) (t i))
  let step (w : List Nat) (n : Nat) : List Nat := (List.range 4).map (fun i => Nat.xor (w.getD i 0) (g (4 * n + i)))
  let w1 := step w0 1
  let w2 := step w1 2
  let w3 := step w2 3
  w0 ++ w1 ++ w2 ++ w3

/-- MixColumns on one column. -/
def mixColumn (c : List Nat) : List Nat :=
  let g (i : Nat) : Nat := c.getD (i % 4) 0
  (List.range 4).map (fun i =>
    Nat.xor (gfDouble (g i)) (Nat.xor (Nat.xor (gfDouble (g (i + 1))) (g (i + 1))) (Nat.xor (g (i + 2)) (g (i + 3)))))

/-- SubBytes and ShiftRows: byte `4 c + r` comes from column `c + r`. -/
def subShift (s : List Nat) : List Nat :=
  (List.range 16).map (fun i => sboxOf (s.getD (4 * ((i / 4 + i % 4) % 4) + i % 4) 0))

/-- MixColumns on the four columns. -/
def mixState (s : List Nat) : List Nat :=
  (List.range 4).flatMap (fun c => mixColumn ((List.range 4).map (fun r => s.getD (4 * c + r) 0)))

/-- Bytewise exclusive or. -/
def xorBytes (a b : List Nat) : List Nat := (a.zip b).map (fun p => Nat.xor p.1 p.2)

/-- The rounds that are left, `n` of them, with the state, the last round key and the round constant. -/
def aesRounds : Nat → List Nat → List Nat → Nat → List Nat
  | 0, s, _, _ => s
  | n + 1, s, k, rcon =>
    let k' := nextRoundKey k rcon
    let t := subShift s
    aesRounds n (xorBytes (if n = 0 then t else mixState t) k') k' (gfDouble rcon)

/-- AES-128 of a 16-byte block under a 16-byte key (FIPS 197). -/
def aes128 (key block : List Nat) : List Nat := aesRounds 10 (xorBytes block key) key 1

/-- The 16 bytes of a 128-bit number, least significant first. -/
def bytes16 (x : Nat) : List Nat := (List.range 16).map (fun i => x / 256 ^ i % 256)

/-- The number 16 bytes hold, least significant first. -/
def numOfBytes : List Nat → Nat
  | [] => 0
  | b :: r => b + 256 * numOfBytes r

/-- The 128-bit value Z of a draw (R74). -/
def rngZ (seed : BitVec 128) (step : BitVec 40) (stream : BitVec 24) (index : Nat) : Nat :=
  numOfBytes (aes128 (bytes16 seed.toNat)
    (bytes16 (index % 2 ^ 64 + step.toNat * 2 ^ 64 + stream.toNat * 2 ^ 104)))

/-- The element index of result element (r, c) over an index base (R75). -/
def rngIndex (base r c : Nat) : Nat := (base + r * 1024 + c) % 2 ^ 64

end Sys2Proof.Machine
end

