-- ==== Sys2Proof/Machine/MathFn.lean ====
section
/-! DEFINITION. The functions of the vector engine, correctly rounded to FP32 (R152, R153): bounds of the exact value in
fixed point, taken at growing precision until both bounds round to the same number. -/

namespace Sys2Proof.Machine

/-- A quotient of exact values as one value with a sticky lowest bit: it rounds, to any format of at most 60 bits, as the
exact quotient does. -/
def numDiv : Num → Num → Num
  | .nan, _ => .nan
  | _, .nan => .nan
  | .inf _, .inf _ => .nan
  | .inf a, .fin b _ _ => .inf (xor a b)
  | .fin a _ _, .inf b => .fin (xor a b) 0 0
  | .fin a m e, .fin b n f =>
    if n = 0 then (if m = 0 then .nan else .inf (xor a b))
    else if m = 0 then .fin (xor a b) 0 0
    else
      let sh := 64 + bitLen n
      let q := m * 2 ^ sh / n
      let r := m * 2 ^ sh % n
      .fin (xor a b) (2 * q + (if r = 0 then 0 else 1)) (e - f - sh - 1)

/-- The integer square root by bits, from bit `i` down: the largest `x` made of bits below `2 ^ i` added to `acc` with square
at most `n`. -/
def isqrtFrom (n : Nat) : Nat → Nat → Nat
  | 0, acc => acc
  | i + 1, acc =>
    let y := acc + 2 ^ i
    isqrtFrom n i (if y * y ≤ n then y else acc)

/-- The integer square root. -/
def isqrt (n : Nat) : Nat := isqrtFrom n (bitLen n / 2 + 1) 0

/-- A nonnegative real between `lo` and `hi`, both in units of 2^-P. -/
structure Ival where
  lo : Nat
  hi : Nat
  deriving DecidableEq, Repr

/-- A product of bounds, rounded outwards. -/
def ivMul (p : Nat) (a b : Ival) : Ival := ⟨a.lo * b.lo / 2 ^ p, a.hi * b.hi / 2 ^ p + 1⟩

/-- A sum of bounds. -/
def ivAdd (a b : Ival) : Ival := ⟨a.lo + b.lo, a.hi + b.hi⟩

/-- A difference of bounds, at least 0. -/
def ivSub (a b : Ival) : Ival := ⟨a.lo - b.hi, a.hi - b.lo⟩

/-- A quotient of bounds with a positive divisor, rounded outwards. -/
def ivDiv (p : Nat) (a b : Ival) : Ival := ⟨a.lo * 2 ^ p / b.hi, a.hi * 2 ^ p / b.lo + 1⟩

/-- A bound divided by a positive number. -/
def ivDivN (a : Ival) (n : Nat) : Ival := ⟨a.lo / n, a.hi / n + 1⟩

/-- A whole number. -/
def ivNat (p n : Nat) : Ival := ⟨n * 2 ^ p, n * 2 ^ p⟩

/-- `m * 2 ^ e` in units of 2^-P. -/
def ivOf (p m : Nat) (e : Int) : Ival :=
  if 0 ≤ e + p then (let x := scaleUp m (e + p); ⟨x, x⟩)
  else (let x := m / 2 ^ (-(e + p)).toNat; ⟨x, x + 1⟩)

/-- Horner's scheme of the exponential series with `n` terms left: 1 + r (1 + r/2 (1 + r/3 (...))), outermost term `k`. -/
def expHorner (p : Nat) (r : Ival) : Nat → Nat → Ival
  | 0, _ => ⟨2 ^ p, 2 ^ (p + 1)⟩
  | n + 1, k => ivAdd (ivNat p 1) (ivDivN (ivMul p r (expHorner p r n (k + 1))) k)

/-- `n` squarings. -/
def ivSquares (p : Nat) : Nat → Ival → Ival
  | 0, x => x
  | n + 1, x => ivSquares p n (ivMul p x x)

/-- e^x for 0 ≤ x ≤ 256: the series at x / 2^14, squared 14 times. -/
def ivExp (p : Nat) (x : Ival) : Ival :=
  let r : Ival := ⟨x.lo / 2 ^ 14, x.hi / 2 ^ 14 + 1⟩
  ivSquares p 14 (expHorner p r (p / 6 + 2) 1)

/-- The series of atanh(z)/z or atan(z)/z: the sum of w^k / (2k + 1), `n` terms from `k`, with w = z². -/
def atanhHorner (p : Nat) (w : Ival) : Nat → Nat → Ival
  | 0, k => ⟨0, 2 ^ p * 2 / (2 * k + 1) + 1⟩
  | n + 1, k => ivAdd (ivDivN (ivNat p 1) (2 * k + 1)) (ivMul p w (atanhHorner p w n (k + 1)))

/-- 2 atanh(z) for 0 ≤ z ≤ 1/3. -/
def ivLn1 (p : Nat) (z : Ival) : Ival :=
  let s := ivMul p z (atanhHorner p (ivMul p z z) (p / 3 + 2) 0)
  ⟨2 * s.lo, 2 * s.hi⟩

/-- ln 2 = 2 atanh(1/3). -/
def ivLn2 (p : Nat) : Ival := ivLn1 p (ivDivN (ivNat p 1) 3)

/-- The alternating series of arctan: the sum of (-w)^k / (2k + 1), `n` terms from `k`, for w ≤ 1/25. -/
def atanHorner (p : Nat) (w : Ival) : Nat → Nat → Ival
  | 0, _ => ⟨0, 2 ^ p⟩
  | n + 1, k => ivSub (ivAdd (ivDivN (ivNat p 1) (2 * k + 1)) ⟨0, 0⟩) (ivMul p w (atanHorner p w n (k + 1)))

/-- arctan(1/q) for q ≥ 5. -/
def ivAtanInv (p q : Nat) : Ival :=
  let z := ivDivN (ivNat p 1) q
  ivMul p z (atanHorner p (ivMul p z z) (p / 4 + 2) 0)

/-- pi = 16 arctan(1/5) - 4 arctan(1/239). -/
def ivPi (p : Nat) : Ival :=
  let a := ivAtanInv p 5
  let b := ivAtanInv p 239
  ⟨16 * a.lo - 4 * b.hi, 16 * a.hi - 4 * b.lo⟩

/-- A square root of bounds. -/
def ivSqrt (p : Nat) (x : Ival) : Ival := ⟨isqrt (x.lo * 2 ^ p), isqrt (x.hi * 2 ^ p) + 1⟩

/-- The series of the normal distribution: 1 + w/3 (1 + w/5 (1 + ...)), `n` terms from odd number `k`, with w = x². -/
def phiHorner (p : Nat) (w : Ival) : Nat → Nat → Ival
  | 0, _ => ⟨2 ^ p, 2 ^ (p + 1)⟩
  | n + 1, k => ivAdd (ivNat p 1) (ivDivN (ivMul p w (phiHorner p w n (k + 2))) k)

/-- The standard normal density at |x| ≤ 16. -/
def ivDensity (p : Nat) (x : Ival) : Ival :=
  let w := ivMul p x x
  let e := ivExp p (ivDivN w 2)
  let c := ivSqrt p (let q := ivPi p; ⟨2 * q.lo, 2 * q.hi⟩)
  ivDiv p (ivNat p 1) (ivMul p e c)

/-- The standard normal distribution's distance from 1/2 at |x| ≤ 16. -/
def ivHalfPhi (p : Nat) (x : Ival) : Ival :=
  let w := ivMul p x x
  ivMul p (ivDensity p x) (ivMul p x (phiHorner p w (1100 + p / 4) 3))

/-- The FP32 number both bounds round to, if they agree. -/
def ivRound (p : Nat) (neg : Bool) (x : Ival) : Option Nat :=
  let a := toFp32 (.fin neg x.lo (-(p : Int)))
  let b := toFp32 (.fin neg x.hi (-(p : Int)))
  if a = b then some a else none

/-- The first precision of a list at which the bounds agree; the lower bound's rounding at the last one. The functions it is
used on take no value at which two roundings tie, so a precision at which the bounds agree exists. -/
def ivSearch (neg : Bool) (f : Nat → Ival) : List Nat → Nat
  | [] => 0
  | [p] => toFp32 (.fin neg (f p).lo (-(p : Int)))
  | p :: r => match ivRound p neg (f p) with | some v => v | none => ivSearch neg f r

/-- The precisions tried. -/
def precisions : List Nat := [320, 640, 1280, 2560]

/-- Higher precisions, for values that cancel. -/
def precisionsHigh : List Nat := [640, 1280, 2560]

/-- 1.0 in FP32. -/
def fpOne : Nat := 0x3F800000
/-- Plus infinity in FP32. -/
def fpInf : Nat := 0x7F800000
/-- Minus infinity in FP32. -/
def fpNegInf : Nat := 0xFF800000
/-- The generated NaN of FP32 (Table 2 of spec/03). -/
def fpNan : Nat := 0x7FC00000
/-- -0 in FP32. -/
def fpNegZero : Nat := 0x80000000
/-- 0.5 in FP32. -/
def fpHalf : Nat := 0x3F000000

/-- Is `m * 2 ^ e` at least the whole number `n`. -/
def magGe (m : Nat) (e : Int) (n : Nat) : Bool := !magLt m e n 0

/-- Is `m * 2 ^ e` below `2 ^ q`. -/
def magTiny (m : Nat) (e q : Int) : Bool := magLt m e 1 q

/-- e^x correctly rounded (spec/07, Table 3). -/
def fpExp (x : Num) : Nat :=
  match x with
  | .nan => fpNan
  | .inf s => if s then 0 else fpInf
  | .fin s m e =>
    if m = 0 ∨ magTiny m e (-30) then fpOne
    else if s then
      (if magGe m e 105 then 0
       else ivSearch false (fun p => ivDiv p (ivNat p 1) (ivExp p (ivOf p m e))) precisions)
    else if magGe m e 90 then fpInf
    else ivSearch false (fun p => ivExp p (ivOf p m e)) precisions

/-- The bounds of |ln x| for x = m * 2 ^ e > 0, and the sign of ln x. -/
def ivLnAbs (p m : Nat) (e : Int) : Bool × Ival :=
  let top := e + bitLen m - 1
  let x := ivOf p m (e - top)
  let z := ivDiv p (ivSub x (ivNat p 1)) (ivAdd x (ivNat p 1))
  let l := ivLn1 p z
  let k := ivLn2 p
  let n := top.natAbs
  if 0 ≤ top then (false, ⟨l.lo + n * k.lo, l.hi + n * k.hi⟩)
  else (true, ⟨n * k.lo - l.hi, n * k.hi - l.lo⟩)

/-- ln x correctly rounded (Table 3). -/
def fpLn (x : Num) : Nat :=
  match x with
  | .nan => fpNan
  | .inf s => if s then fpNan else fpInf
  | .fin s m e =>
    if m = 0 then fpNegInf
    else if s then fpNan
    else if magLt m e 1 0 = false ∧ magLt 1 0 m e = false then 0
    else ivSearch (ivLnAbs 8 m e).1 (fun p => (ivLnAbs p m e).2) precisions

/-- tanh x correctly rounded (Table 3). -/
def fpTanh (x : Num) : Nat :=
  match x with
  | .nan => fpNan
  | .inf s => if s then 0x80000000 + fpOne else fpOne
  | .fin s m e =>
    if m = 0 ∨ magTiny m e (-13) then toFp32 x
    else if magGe m e 10 then (if s then 0x80000000 + fpOne else fpOne)
    else ivSearch s (fun p =>
      let q := ivExp p (ivOf p m (e + 1))
      ivDiv p (ivSub q (ivNat p 1)) (ivAdd q (ivNat p 1))) precisions

/-- The sigmoid correctly rounded (Table 3). -/
def fpSigmoid (x : Num) : Nat :=
  match x with
  | .nan => fpNan
  | .inf s => if s then 0 else fpOne
  | .fin s m e =>
    if m = 0 ∨ magTiny m e (-30) then fpHalf
    else if s then
      (if magGe m e 105 then 0
       else ivSearch false (fun p => ivDiv p (ivNat p 1) (ivAdd (ivNat p 1) (ivExp p (ivOf p m e)))) precisions)
    else if magGe m e 20 then fpOne
    else ivSearch false (fun p =>
      let q := ivExp p (ivOf p m e)
      ivDiv p q (ivAdd (ivNat p 1) q)) precisions

/-- The standard normal distribution function correctly rounded (R152). -/
def fpPhi (x : Num) : Nat :=
  match x with
  | .nan => fpNan
  | .inf s => if s then 0 else fpOne
  | .fin s m e =>
    if m = 0 ∨ magTiny m e (-30) then fpHalf
    else if s then
      (if magGe m e 15 then 0
       else ivSearch false (fun p => ivSub ⟨2 ^ (p - 1), 2 ^ (p - 1)⟩ (ivHalfPhi p (ivOf p m e))) precisionsHigh)
    else if magGe m e 7 then fpOne
    else ivSearch false (fun p => ivAdd ⟨2 ^ (p - 1), 2 ^ (p - 1)⟩ (ivHalfPhi p (ivOf p m e))) precisionsHigh

/-- The standard normal density correctly rounded (R152). -/
def fpDensity (x : Num) : Nat :=
  match x with
  | .nan => fpNan
  | .inf _ => 0
  | .fin _ m e => if magGe m e 15 then 0 else ivSearch false (fun p => ivDensity p (ivOf p m e)) precisions

/-- 1 / sqrt x correctly rounded (Table 3): the square root of a long enough quotient, with a sticky bit. -/
def fpRsqrt (x : Num) : Nat :=
  match x with
  | .nan => fpNan
  | .inf s => if s then fpNan else 0
  | .fin s m e =>
    if m = 0 then (if s then fpNegInf else fpInf)
    else if s then fpNan
    else
      let (m', e') : Nat × Int := if e % 2 = 0 then (m, e) else (2 * m, e - 1)
      let n := 2 ^ 200 / m'
      let r := isqrt n
      let exact := r * r == n && 2 ^ 200 % m' == 0
      toFp32 (.fin false (2 * r + (if exact then 0 else 1)) (-101 - e' / 2))

/-- 1 / x correctly rounded (Table 3). -/
def fpRecip (x : Num) : Nat := toFp32 (numDiv (.fin false 1 0) x)

/-- A product rounded once. -/
def fpMul (a b : Nat) : Nat := toFp32 (numMul (fp32 a) (fp32 b))

/-- A sum rounded once. -/
def fpAdd (a b : Nat) : Nat := toFp32 (numAdd (fp32 a) (fp32 b))

/-- A negation. -/
def fpNeg (a : Nat) : Nat := toFp32 (numNeg (fp32 a))

/-- The function of a FUNC code at FP32 bits `b` (spec/07, Table 3); reserved codes give NaN and are refused before use. -/
def fpFunc (code b : Nat) : Nat :=
  let x := fp32 b
  match code with
  | 0x0 => toFp32 x
  | 0x1 => match x with
    | .nan => fpNan
    | .inf s => if s then 0 else fpInf
    | .fin s m _ => if s ∨ m = 0 then 0 else toFp32 x
  | 0x2 => match x with
    | .nan => fpNan
    | .inf s => if s then fpNegZero else fpInf
    | .fin _ m _ => if m = 0 then toFp32 x else fpMul b (fpPhi x)
  | 0x3 => match x with
    | .nan => fpNan
    | .inf s => if s then fpNegZero else fpInf
    | .fin _ m _ => if m = 0 then toFp32 x else fpMul b (fpSigmoid x)
  | 0x4 => fpSigmoid x
  | 0x5 => fpTanh x
  | 0x6 => fpExp x
  | 0x7 => fpLn x
  | 0x8 => fpRecip x
  | 0x9 => fpRsqrt x
  | 0xA => match x with
    | .nan => fpNan
    | .inf _ => fpInf
    | .fin _ m e => toFp32 (.fin false m e)
  | 0xB => toFp32 (numNeg x)
  | _ => fpNan

/-- f'(P) of a FUNC code (R153; spec/07, Table 4). -/
def fpDeriv (code b : Nat) : Nat :=
  let x := fp32 b
  match x with
  | .nan => fpNan
  | .inf s =>
    match code with
    | 0x1 | 0x2 | 0x3 => if s then 0 else fpOne
    | _ => fpNan
  | .fin s m _ =>
    match code with
    | 0x1 => if !s ∧ m ≠ 0 then fpOne else 0
    | 0x2 => fpAdd (fpPhi x) (fpMul b (fpDensity x))
    | 0x3 =>
      let sg := fpSigmoid x
      fpMul sg (fpAdd fpOne (fpMul b (fpAdd fpOne (fpNeg sg))))
    | 0x4 => fpMul b (fpAdd fpOne (fpNeg b))
    | 0x5 => fpAdd fpOne (fpNeg (fpMul b b))
    | _ => fpNan

/-- Is a FUNC code simple: identity, ReLU, abs or neg (spec/07, Table 1). -/
def simpleFunc (code : Nat) : Bool := code == 0 || code == 1 || code == 0xA || code == 0xB

end Sys2Proof.Machine
end

