-- ==== Sys2Proof/Machine/Vector.lean ====
section
/-! DEFINITION. The vector engine: registers, row groups, drains, elementwise operations, reductions, draws and conversions
(R145 to R160). -/

namespace Sys2Proof.Machine

/-- A core with its vector engine changed. -/
def modVec (k : Core) (f : Vec → Vec) : Core := { k with vec := f k.vec }

/-- An element of a vector register (R145). -/
def vecGet (k : Core) (v : VRegId) (r j : Nat) : BitVec 32 := cellGet 0#32 (k.vec.regs.get v) (r * 128 + j)

/-- The row of a vector register. -/
def vecRow (k : Core) (v : VRegId) (r : Nat) : List (BitVec 32) := (List.range 128).map (vecGet k v r)

/-- A vector register with elements written. -/
def vecWrite (k : Core) (v : VRegId) (es : List (Nat × BitVec 32)) : Core :=
  modVec k (fun x => { x with
    regs := x.regs.set v.val (es.foldl (fun m e => cellSet 0#32 m e.1 e.2) (x.regs.get v)) v.isLt })

/-- The elements of a whole row, keyed by their place in a register. -/
def rowElems (r : Nat) (xs : List (BitVec 32)) : List (Nat × BitVec 32) :=
  (List.range xs.length).map (fun j => (r * 128 + j, xs.getD j 0))

/-- The vector register a 5-bit destination field names: its low 3 bits (R168). -/
def low3 (n : Nat) : VRegId := ⟨n % 8, Nat.mod_lt _ (by decide)⟩

/-- Row groups of `n` rows (R146). -/
def groupsOf (n : Nat) : Nat := ceilDiv n 4

/-- The rows of group `g` among `n` rows. -/
def groupRows (n g : Nat) : List Nat := ((List.range 4).map (fun i => 4 * g + i)).filter (fun i => decide (i < n))

/-- Latencies of spec/07, Table 1: elementwise, stochastic or wide conversion, transcendental, reduction. -/
def latElem : Nat := 6
/-- Stochastic rounding, VWCV and VRNG. -/
def latConv : Nat := 8
/-- Transcendental functions and division. -/
def latTrans (p : BitVec 3) : Nat := if isProf2 p then 12 else 14
/-- VRED and VRESC. -/
def latRed : Nat := 10
/-- VDRN: 4 + C, and 2 more with stochastic rounding. -/
def latDrain (p : BitVec 3) (x : VdrnFields) : Nat :=
  4 + (if simpleFunc x.func.val ∧ x.mode.val = 0 then 6 else latTrans p) + (if x.rnd then 2 else 0)

/-- Opcodes of the instructions that read accumulator banks (spec/07, Table 10). -/
def readsBanks (op : Byte) : Bool := op == 0x01#8 || op == 0x31#8

/-- Does the instruction that holds the pipe keep one with this opcode from issuing at `now` (R146): the pipe is held up to the
last read, and an instruction that itself reads banks reads nothing in its own issue tick. -/
def pipeHeld (k : Core) (now : Nat) (op : Byte) : Bool :=
  decide (now < k.vec.pipeUntil) &&
    !(decide (now + 1 = k.vec.pipeUntil) && readsBanks k.vec.opcode && readsBanks op)

/-- A use of a vector register port. -/
def vecUse (v : VRegId) (first count : Nat) (w : Bool) (issued : Nat) : PortUse :=
  { unit := v.val, isWrite := w, first := first, step := 1, count := count, issued := issued }

/-- A use of an accumulator bank's read port: a bank of an array, or a segment of an MV bank (R149). -/
def bankUse (mv : Bool) (m : Fin 4) (b : Bool) (first count issued : Nat) : PortUse :=
  { unit := (if mv then 8 else 0) + m.val * 2 + bitNat b, isWrite := false, first := first, step := 1, count := count,
    issued := issued }

/-- Do these uses of vector, tile and bank ports exceed a port or meet a tile being changed (R99, R103, R148, R149). -/
def vConflict (k : Core) (now : Nat) (op : Byte) (vs ts bs : List PortUse) : Bool :=
  pipeHeld k now op || !portsFit k.vecUse vs || !bankFit k.bankUse bs || tileConflict k now ts

/-- A core on which a V-slot instruction has issued: the pipe, the ports and the stream. -/
def vStart (k : Core) (op : Byte) (pipeUntil : Nat) (vs ts bs : List PortUse) (o : Strm) : Core :=
  let k1 := takeTiles k ts
  { k1 with
    vec := { k1.vec with pipeUntil := pipeUntil, opcode := op }
    vecUse := k1.vecUse ++ vs
    bankUse := k1.bankUse ++ bs
    ops := k1.ops ++ [o] }

/-- The rank of a V-slot issue (R46). -/
def vKey (now : Nat) : Nat := issueKey now 2

/-- The value of FP32 bits held in a register. -/
def valOf (b : BitVec 32) : Num := fp32 b.toNat

/-- One rounding to FP32, as register bits. -/
def rne32 (x : Num) : BitVec 32 := BitVec.ofNat 32 (toFp32 x)

/-- Canonical NaN, one and infinities as register bits. -/
def bNan : BitVec 32 := 0x7FC00000#32
/-- 1.0. -/
def bOne : BitVec 32 := 0x3F800000#32
/-- Plus infinity. -/
def bInf : BitVec 32 := 0x7F800000#32
/-- Minus infinity. -/
def bNegInf : BitVec 32 := 0xFF800000#32
/-- Minus zero. -/
def bNegZero : BitVec 32 := 0x80000000#32

/-- Is this a NaN. -/
def isNan32 (b : BitVec 32) : Bool := match valOf b with | .nan => true | _ => false

/-- The order of FP32 values that are not NaN, with -0 below +0. -/
def key32 (b : BitVec 32) : Int := if b.getLsbD 31 then -((b.toNat - 0x80000000 : Nat) : Int) - 1 else (b.toNat : Int)

/-- The maximum operation of IEEE 754-2019 (R154). -/
def max32 (a b : BitVec 32) : BitVec 32 := if isNan32 a || isNan32 b then bNan else if key32 a < key32 b then b else a

/-- The minimum operation of IEEE 754-2019 (R154). -/
def min32 (a b : BitVec 32) : BitVec 32 := if isNan32 a || isNan32 b then bNan else if key32 b < key32 a then b else a

/-- The magnitude. -/
def abs32 (b : BitVec 32) : BitVec 32 := if isNan32 b then bNan else b &&& 0x7FFFFFFF#32

/-- An element read from a bank, in FP32: integers are rounded to nearest even (R149). -/
def accFp32 (e : AccElem) : BitVec 32 :=
  if e.int then rne32 (.fin (decide (e.bits.toInt < 0)) e.bits.toInt.natAbs 0) else e.bits

/-- A row of a bank or of a segment of an MV bank (R149). -/
def bankRow (k : Core) (mv : Bool) (m : Fin 4) (b : Bool) (row : Nat) : List (BitVec 32) :=
  if mv then
    let z := if b then k.mvu.bank1 else k.mvu.bank0
    (List.range 128).map (fun j => accFp32 (storeGet z.elems (row * 512 + m.val * 128 + j)))
  else
    let z := bankOf (arrOf k m) b
    (List.range 128).map (fun j => accFp32 (storeGet z.elems (row * 128 + j)))

/-- FP32 values converted into one tile row: element bits, one scale byte per 32 elements of a block-scaled format, and what
NUM_STAT counts (R61 to R64). -/
def convertRow (f : Format) (ovf : Bool) (rd : Nat → Rounding) (xs : List Num) : List Nat × List Nat × CvtCount :=
  if f.mx then
    (List.range (ceilDiv xs.length 32)).foldl (fun (a : List Nat × List Nat × CvtCount) b =>
      let z := mxQuantise f.elem ((List.range 32).map (fun i => rd (32 * b + i))) ((xs.drop (32 * b)).take 32)
      (a.1 ++ z.2.1, a.2.1 ++ [z.1], cvtPlus a.2.2 z.2.2)) ([], [], cvtNone)
  else
    let rs := (List.range xs.length).map (fun j => cvtElem f.elem ovf (rd j) (xs.getD j .nan))
    (rs.map (fun r => r.1), [], rs.foldl (fun c r => cvtPlus c r.2) cvtNone)

/-- The writes of converted values at the start of row `r` of tile `t`, and the counts, visible at `due`. -/
def tileRowPends (t : TReg) (cfg : TileCfg) (f : Format) (r due issued : Nat) (z : List Nat × List Nat × CvtCount) :
    List Pend :=
  let bytes := rowCells cfg r (packRow f.elem z.1)
  let scales := (List.range z.2.1.length).map (fun b => (r * 16 + b, BitVec.ofNat 8 (z.2.1.getD b 0)))
  let w : Pend := { due := due, issued := issued, eff := .tile t bytes scales none }
  let c := z.2.2
  if c.sat = 0 ∧ c.nanZero = 0 then [w]
  else [w, { due := due, issued := issued, eff := .counts c.sat c.nanZero }]

/-- The write of whole vector rows, visible at `due`. -/
def vecPend (v : VRegId) (due issued : Nat) (es : List (Nat × BitVec 32)) : Pend :=
  { due := due, issued := issued, eff := .vec v es }

/-- The random context `c` and its index base at issue (R158). -/
def rngBase (k : Core) (c : Fin 4) : Word := sreg k (k.live.rngctx.get c).idx

/-- The draw Z of result element (r, c) in a context (R74, R75). -/
def drawZ (o : Strm) (ctx : Fin 4) (r c : Nat) : Nat :=
  rngZ o.cfg.seed o.cfg.step (o.cfg.rngctx.get ctx).stream (rngIndex o.s0.toNat r c)

/-- The rounding of result element (r, c): stochastic by Z[23:0], or to nearest even (R158). -/
def drawRounding (o : Strm) (sr : Bool) (ctx : Fin 4) (r c : Nat) : Rounding :=
  if sr then .sr (drawZ o ctx r c % 2 ^ 24) else .rne

/-- Does a Scaler record gain this observation (R165, R166): one value. -/
def sclValue (z : SclRec) (b : BitVec 32) : SclRec :=
  let z1 := { z with elements := z.elements + 1 }
  match valOf b with
  | .nan => { z1 with nans := z1.nans + 1 }
  | .inf _ => { z1 with infs := z1.infs + 1, absmax := bInf }
  | .fin _ m e =>
    if m = 0 then { z1 with zeros := z1.zeros + 1 }
    else
      let x := (leadExp m e + 2048).toNat
      { z1 with
        absmax := if key32 z1.absmax < key32 (abs32 b) then abs32 b else z1.absmax
        exps := cellSet 0 z1.exps x (cellGet 0 z1.exps x + 1) }

/-- The Scaler observes a row that is written at tick `w` (R165). -/
def sclObserve (k : Core) (xs : List (BitVec 32)) (w : Nat) : Core :=
  modVec k (fun v =>
    let z := xs.foldl sclValue v.sclRec
    { v with sclRec := { z with lastWrite := Nat.max z.lastWrite w } })

/-- Is a format in the float class of R56 or FP32: what an auxiliary tile may hold (R151). -/
def auxFormat (f : Format) : Bool := decide (f.elem = .fp32) || isFloatClass f

/-- Is a format an integer format, or WAF128, which stochastic rounding does not target (R63). -/
def noStochastic (f : Format) : Bool :=
  match f.elem with
  | .int8 | .int4 | .uint8 | .waf128 => !f.mx || decide (f.elem = .waf128)
  | _ => false

/-- Does a tile exist and satisfy a check of its configuration and format. -/
def tileIs (k : Core) (n : Nat) (p : Tile → Format → Bool) : Bool :=
  match tileNo k n with
  | some t => (match cfgFormat t.cfg with | some f => p t f | none => false)
  | none => false

/-- Is a tile that exists empty. -/
def tileIsEmpty (k : Core) (n : Nat) : Bool := match tileNo k n with | some t => t.empty | none => false

/-- May a tile take rows of FP32 values: at most 128 elements per row, not WAF128, block scales along rows, no stochastic
rounding into an integer format, and the rows within it (R151, R157). -/
def tileTakes (k : Core) (n first rows : Nat) (sr : Bool) : Bool :=
  tileIs k n (fun t f =>
    decide (cfgElems t.cfg ≤ 128) && decide (first + rows ≤ t.cfg.rows.toNat) && decide (f.elem ≠ .waf128) &&
      (!f.mx || !t.cfg.axis) && !(sr && noStochastic f))

/-! ### VDRN -/

/-- Elements per row that array `m` of a drain delivers (R150). -/
def vdrnE (k : Core) (x : VdrnFields) (m : Fin 4) : Nat :=
  if x.vdst then 128 else match tileNo k (x.dst.val + m.val) with | some t => cfgElems t.cfg | none => 0

/-- Does a drain use its auxiliary tile. -/
def vdrnAux (x : VdrnFields) : Bool := x.save || x.mode.val == 1 || x.mode.val == 2

/-- Do the destination and the auxiliary tile of array `m` fit (R151). -/
def vdrnShapeOk (k : Core) (x : VdrnFields) (m : Fin 4) : Bool :=
  let n := x.nM1.val + 1
  (if x.vdst then decide (x.dst.val % 8 + m.val ≤ 7) && decide (x.e.val + n ≤ 64)
   else tileTakes k (x.dst.val + m.val) x.e.val n x.rnd) &&
  (!vdrnAux x ||
    tileIs k (x.aux.val + m.val) (fun t f =>
      auxFormat f && decide (vdrnE k x m ≤ cfgElems t.cfg) && decide (x.e.val + n ≤ t.cfg.rows.toNat) &&
        !(x.save && f.mx && t.cfg.axis)))

/-- The tile uses of a drain: destination and save writes, auxiliary reads. -/
def vdrnTiles (k : Core) (x : VdrnFields) (now : Nat) : List PortUse :=
  let l := latDrain k.seq.latprof x
  let n := x.nM1.val + 1
  (maskList x.mask).flatMap (fun m =>
    (if x.vdst then [] else [tileUse (x.dst.val + m.val) (now + l) 1 n true (vKey now)]) ++
    (if x.save then [tileUse (x.aux.val + m.val) (now + l) 1 n true (vKey now)] else []) ++
    (if x.mode.val = 1 ∨ x.mode.val = 2 then [tileUse (x.aux.val + m.val) (now + 1) 1 n false (vKey now)] else []))

/-- The vector register writes of a drain. -/
def vdrnVecs (k : Core) (x : VdrnFields) (now : Nat) : List PortUse :=
  if x.vdst then
    (maskList x.mask).map (fun m => vecUse (low3 (x.dst.val % 8 + m.val)) (now + latDrain k.seq.latprof x) (x.nM1.val + 1) true (vKey now))
  else []

/-- The physical bank of a drain on array `m`: relative for arrays, absolute for MV (R168). -/
def drainBank (k : Core) (mv b : Bool) (m : Fin 4) : Bool := if mv then b else physBank (arrOf k m) b

/-- The bank reads of a drain. -/
def vdrnBanks (k : Core) (x : VdrnFields) (now : Nat) : List PortUse :=
  (maskList x.mask).map (fun m => bankUse x.mv m (drainBank k x.mv x.bank m) (now + 1) (x.nM1.val + 1) (vKey now))

/-- VDRN (R146 to R151). -/
def vdrnIssue (c : CoreId) (x : VdrnFields) : Issue :=
  { core := c
    wait := noWait
    fault := fun s =>
      let k := coreAt s c
      let now := nowAt s c
      let n := x.nM1.val + 1
      firstFault c
        [((x.mode.val == 1 || x.mode.val == 2) && (maskList x.mask).any (fun m => tileIsEmpty k (x.aux.val + m.val)), .tileEmpty),
         (decide ((if x.mv then 8 else 128) < x.acc.val + n) || !(maskList x.mask).all (vdrnShapeOk k x), .shapeMismatch),
         (vConflict k now 0x01#8 (vdrnVecs k x now) (vdrnTiles k x now) (vdrnBanks k x now), .resourceConflict)]
    effect := fun s =>
      let now := nowAt s c
      modCore s c (fun k =>
        let n := x.nM1.val + 1
        let o := strmOf k (.vdrn c x) (vKey now) (now + 1) 1 n
        let banks := BitVec.ofNat 4 ((List.finRange 4).foldl (fun a m =>
          a + bitNat (drainBank k x.mv x.bank m) * 2 ^ m.val) 0)
        vStart k 0x01#8 (now + n + 1) (vdrnVecs k x now) (vdrnTiles k x now) (vdrnBanks k x now)
          { o with
            s0 := rngBase k x.ctx, banks := banks
            rows := (List.range 8).flatMap (fun r => vecRow k 7 r) }) }

/-- The bank rows a drain reads in the tick of its step (R149). -/
def vdrnBankRead (k : Core) (o : Strm) (x : VdrnFields) : List (BitVec 32) :=
  (maskList x.mask).flatMap (fun m => bankRow k x.mv m (o.banks.getLsbD m.val) (x.acc.val + o.next))

/-- The chain of R150 on one element: the value saved and the value that is converted. -/
def drainElem (x : VdrnFields) (acc scl bias : BitVec 32) (p : Num) : BitVec 32 × BitVec 32 :=
  let x1 := if x.scl then rne32 (numMul (valOf acc) (valOf scl)) else acc
  let x2 := if x.bias then rne32 (numAdd (valOf x1) (valOf bias)) else x1
  let pb := toFp32 p
  let y :=
    if x.mode.val = 0 then BitVec.ofNat 32 (fpFunc x.func.val x2.toNat)
    else if x.mode.val = 1 then rne32 (numMul (fp32 (fpFunc x.func.val pb)) (valOf x2))
    else rne32 (numMul (valOf x2) (fp32 (fpDeriv x.func.val pb)))
  (x2, y)

/-- A drain's step: row `i` of every array of the mask, with the bank rows in `o.vals` (R150). -/
def vdrnStep (k : Core) (o : Strm) (x : VdrnFields) (t : Nat) : Core :=
  let i := o.next
  let due := t - 1 + latDrain o.prof x
  let ms := maskList x.mask
  ((List.range ms.length).zip ms).foldl (fun k q =>
    let m := q.2
    let accs := (o.vals.drop (128 * q.1)).take 128
    let e := vdrnE k x m
    let r := x.e.val + i
    let outs := (List.range e).map (fun j =>
      let p : Num := match tileNo k (x.aux.val + m.val) with | some t => tileValue t r j | none => .nan
      drainElem x (accs.getD j 0) (o.rows.getD (m.val * 128 + j) 0) (o.rows.getD ((4 + m.val) * 128 + j) 0) p)
    let ys := outs.map (fun p => p.2)
    let k1 := if x.stat then sclObserve k ys due else k
    let saves :=
      if x.save then
        match tileNo k (x.aux.val + m.val) with
        | some t =>
          (match cfgFormat t.cfg with
            | some f => tileRowPends (Fin.ofNat 32 (x.aux.val + m.val)) t.cfg f r due o.issued
                (convertRow f o.cfg.cvtOvf (fun _ => .rne) (outs.map (fun p => valOf p.1)))
            | none => [])
        | none => []
      else []
    let dests :=
      if x.vdst then [vecPend (low3 (x.dst.val % 8 + m.val)) due o.issued (rowElems r ys)]
      else
        match tileNo k (x.dst.val + m.val) with
        | some t =>
          (match cfgFormat t.cfg with
            | some f => tileRowPends (Fin.ofNat 32 (x.dst.val + m.val)) t.cfg f r due o.issued
                (convertRow f o.cfg.cvtOvf (drawRounding o x.rnd x.ctx (r + 128 * m.val)) (ys.map valOf))
            | none => [])
        | none => []
    pushPends k1 (saves ++ dests)) k

/-! ### VLD and VST -/

/-- Rows `r` on of a vector register, `n` of them, lie within its 64. -/
def vecFits (r n : Nat) : Bool := decide (r + n ≤ 64)

/-- VLD (R157). -/
def vldIssue (c : CoreId) (x : VldFields) : Issue :=
  let n := x.nM1.val + 1
  let g := groupsOf n
  let vs (now : Nat) : List PortUse := [vecUse x.v (now + latElem) g true (vKey now)]
  let ts (now : Nat) : List PortUse := [tileUse x.tile.val now 1 g false (vKey now)]
  { core := c
    wait := noWait
    fault := fun s =>
      let k := coreAt s c
      let now := nowAt s c
      firstFault c
        [((tileOf k x.tile).empty, .tileEmpty),
         (!vecFits x.r.val n || !tileIs k x.tile.val (fun t f =>
            decide (cfgElems t.cfg ≤ 128) && decide (x.f.val + n ≤ t.cfg.rows.toNat) && decide (f.elem ≠ .waf128)), .shapeMismatch),
         (vConflict k now 0x10#8 (vs now) (ts now) [], .resourceConflict)]
    effect := fun s =>
      let now := nowAt s c
      modCore s c (fun k =>
        vStart k 0x10#8 (now + g) (vs now) (ts now) [] (strmOf k (.vld c x) (vKey now) now 1 g)) }

/-- A VLD's row group: exact values, columns past the tile's elements +0 (R157). A block-scaled value outside what FP32 holds exactly,
of which R61 gives no outcome, is rounded once to FP32, to infinity above its range (DESIGN CHOICE, log entry 110). -/
def vldStep (k : Core) (o : Strm) (x : VldFields) (t : Nat) : Core :=
  let u := tileOf k x.tile
  let e := cfgElems u.cfg
  let es := (groupRows (x.nM1.val + 1) o.next).flatMap (fun i =>
    rowElems (x.r.val + i) ((List.range 128).map (fun j => if j < e then rne32 (tileValue u (x.f.val + i) j) else 0#32)))
  pushPend k (vecPend x.v (t + latElem) o.issued es)

/-- The latency of a VST. -/
def vstLat (x : VstFields) : Nat := if x.rnd then latConv else latElem

/-- VST (R157). -/
def vstIssue (c : CoreId) (x : VstFields) : Issue :=
  let n := x.nM1.val + 1
  let g := groupsOf n
  let vs (now : Nat) : List PortUse := [vecUse x.v now g false (vKey now)]
  let ts (now : Nat) : List PortUse := [tileUse x.tile.val (now + vstLat x) 1 g true (vKey now)]
  { core := c
    wait := noWait
    fault := fun s =>
      let k := coreAt s c
      let now := nowAt s c
      firstFault c
        [(!vecFits x.r.val n || !tileTakes k x.tile.val x.f.val n x.rnd, .shapeMismatch),
         (vConflict k now 0x11#8 (vs now) (ts now) [], .resourceConflict)]
    effect := fun s =>
      let now := nowAt s c
      modCore s c (fun k =>
        let o := strmOf k (.vst c x) (vKey now) now 1 g
        vStart k 0x11#8 (now + g) (vs now) (ts now) [] { o with s0 := rngBase k x.ctx }) }

/-- A VST's row group (R157, R158, R165). -/
def vstStep (k : Core) (o : Strm) (x : VstFields) (t : Nat) : Core :=
  let u := tileOf k x.tile
  let e := cfgElems u.cfg
  let due := t + vstLat x
  match cfgFormat u.cfg with
  | none => k
  | some f =>
    (groupRows (x.nM1.val + 1) o.next).foldl (fun k i =>
      let ys := (vecRow k x.v (x.r.val + i)).take e
      let k1 := if x.stat then sclObserve k ys due else k
      let r := x.f.val + i
      pushPends k1 (tileRowPends x.tile u.cfg f r due o.issued
        (convertRow f o.cfg.cvtOvf (drawRounding o x.rnd x.ctx r) (ys.map valOf)))) k

/-! ### VOP, VFN and VRED -/

/-- One elementwise operation, rounded once (R154). -/
def vopElem (op : Nat) (a b d : BitVec 32) : BitVec 32 :=
  let x := valOf a
  let y := valOf b
  if op = 0 then rne32 (numAdd x y)
  else if op = 1 then rne32 (numAdd x (numNeg y))
  else if op = 2 then rne32 (numMul x y)
  else if op = 3 then rne32 (numDiv x y)
  else if op = 4 then max32 a b
  else if op = 5 then min32 a b
  else rne32 (numAdd (numMul x y) (valOf d))

/-- The latency of a VOP. -/
def vopLat (p : BitVec 3) (x : VopFields) : Nat := if x.op.val = 3 then latTrans p else latElem

/-- The register uses of a VOP: A, B where it is read by rows, the old D of FMA, and the result. -/
def vopVecs (k : Core) (x : VopFields) (now : Nat) : List PortUse :=
  let g := groupsOf (x.nM1.val + 1)
  [vecUse x.a now g false (vKey now)] ++
    (if x.bmode.val ≤ 1 then [vecUse x.b now g false (vKey now)] else []) ++
    (if x.op.val = 6 then [vecUse x.d now g false (vKey now)] else []) ++
    [vecUse x.d (now + vopLat k.seq.latprof x) g true (vKey now)]

/-- VOP (R154). -/
def vopIssue (c : CoreId) (x : VopFields) : Issue :=
  let n := x.nM1.val + 1
  let g := groupsOf n
  { core := c
    wait := noWait
    fault := fun s =>
      let k := coreAt s c
      let now := nowAt s c
      firstFault c
        [(!vecFits x.r.val n, .shapeMismatch),
         (vConflict k now 0x20#8 (vopVecs k x now) [] [], .resourceConflict)]
    effect := fun s =>
      let now := nowAt s c
      modCore s c (fun k =>
        let o := strmOf k (.vop c x) (vKey now) now 1 g
        vStart k 0x20#8 (now + g) (vopVecs k x now) [] []
          { o with s0 := sreg k x.q, rows := vecRow k x.b x.q.val }) }

/-- A VOP's row group (R154). -/
def vopStep (k : Core) (o : Strm) (x : VopFields) (t : Nat) : Core :=
  let es := (groupRows (x.nM1.val + 1) o.next).flatMap (fun i =>
    let r := x.r.val + i
    rowElems r ((List.range 128).map (fun j =>
      let b :=
        if x.bmode.val = 0 then vecGet k x.b r j
        else if x.bmode.val = 1 then vecGet k x.b x.q.val j
        else if x.bmode.val = 2 then o.rows.getD r 0
        else o.s0.setWidth 32
      vopElem x.op.val (vecGet k x.a r j) b (vecGet k x.d r j))))
  pushPend k (vecPend x.d (t + vopLat o.prof x) o.issued es)

/-- The latency of a VFN. -/
def vfnLat (p : BitVec 3) (x : VfnFields) : Nat := if simpleFunc x.func.val then latElem else latTrans p

/-- VFN (R155). -/
def vfnIssue (c : CoreId) (x : VfnFields) : Issue :=
  let n := x.nM1.val + 1
  let g := groupsOf n
  let vs (k : Core) (now : Nat) : List PortUse :=
    [vecUse x.src now g false (vKey now), vecUse x.d (now + vfnLat k.seq.latprof x) g true (vKey now)]
  { core := c
    wait := noWait
    fault := fun s =>
      let k := coreAt s c
      let now := nowAt s c
      firstFault c
        [(!vecFits x.r.val n, .shapeMismatch),
         (vConflict k now 0x21#8 (vs k now) [] [], .resourceConflict)]
    effect := fun s =>
      let now := nowAt s c
      modCore s c (fun k =>
        vStart k 0x21#8 (now + g) (vs k now) [] [] (strmOf k (.vfn c x) (vKey now) now 1 g)) }

/-- A VFN's row group (R155). -/
def vfnStep (k : Core) (o : Strm) (x : VfnFields) (t : Nat) : Core :=
  let es := (groupRows (x.nM1.val + 1) o.next).flatMap (fun i =>
    let r := x.r.val + i
    rowElems r ((vecRow k x.src r).map (fun b => BitVec.ofNat 32 (fpFunc x.func.val b.toNat))))
  pushPend k (vecPend x.d (t + vfnLat o.prof x) o.issued es)

/-- Is `a` greater than `b` where NaN counts above every value (R156). -/
def argGreater (a b : BitVec 32) : Bool :=
  if isNan32 b then false else if isNan32 a then true else decide (key32 b < key32 a)

/-- The lowest index of the greatest value (R156). -/
def argMax (xs : List (BitVec 32)) : Nat :=
  (xs.foldl (fun (a : Nat × Nat × BitVec 32) x =>
    if a.1 = 0 ∨ argGreater x a.2.2 then (a.1 + 1, a.1, x) else (a.1 + 1, a.2.1, a.2.2)) (0, 0, 0#32)).2.1

/-- A reduction of a row (R156). -/
def vredRow (op : Nat) (xs : List (BitVec 32)) : BitVec 32 :=
  if op = 0 then xs.foldl (fun a x => rne32 (numAdd (valOf a) (valOf x))) bNegZero
  else if op = 1 then (xs.drop 1).foldl max32 (xs.headD 0)
  else if op = 2 then (xs.drop 1).foldl min32 (xs.headD 0)
  else if op = 3 then ((xs.drop 1).map abs32).foldl max32 (abs32 (xs.headD 0))
  else rne32 (.fin false (argMax xs) 0)

/-- A NaN result is the canonical NaN (R9). -/
def canon32 (b : BitVec 32) : BitVec 32 := if isNan32 b then bNan else b

/-- VRED (R156). -/
def vredIssue (c : CoreId) (x : VredFields) : Issue :=
  let n := x.nM1.val + 1
  let g := groupsOf n
  let vs (now : Nat) : List PortUse :=
    [vecUse x.src now g false (vKey now), vecUse x.d (now + latRed) g true (vKey now)]
  { core := c
    wait := noWait
    fault := fun s =>
      let k := coreAt s c
      let now := nowAt s c
      firstFault c
        [(!vecFits x.r.val n, .shapeMismatch),
         (vConflict k now 0x22#8 (vs now) [] [], .resourceConflict)]
    effect := fun s =>
      let now := nowAt s c
      modCore s c (fun k =>
        vStart k 0x22#8 (now + g) (vs now) [] [] (strmOf k (.vred c x) (vKey now) now 1 g)) }

/-- A VRED's row group, written in row-vector form (R145, R156). -/
def vredStep (k : Core) (o : Strm) (x : VredFields) (t : Nat) : Core :=
  let es := (groupRows (x.nM1.val + 1) o.next).map (fun i =>
    let r := x.r.val + i
    (x.q.val * 128 + r, canon32 (vredRow x.op.val ((vecRow k x.src r).take (x.cM1.val + 1)))))
  pushPend k (vecPend x.d (t + latRed) o.issued es)

/-! ### VRNG and VWCV -/

/-- VRNG (R159). -/
def vrngIssue (c : CoreId) (x : VrngFields) : Issue :=
  let n := x.nM1.val + 1
  let g := groupsOf n
  let vs (now : Nat) : List PortUse := [vecUse x.d (now + latConv) g true (vKey now)]
  { core := c
    wait := noWait
    fault := fun s =>
      let k := coreAt s c
      let now := nowAt s c
      firstFault c
        [(!vecFits x.r.val n, .shapeMismatch),
         (vConflict k now 0x50#8 (vs now) [] [], .resourceConflict)]
    effect := fun s =>
      let now := nowAt s c
      modCore s c (fun k =>
        let o := strmOf k (.vrng c x) (vKey now) now 1 g
        vStart k 0x50#8 (now + g) (vs now) [] [] { o with s0 := rngBase k x.ctx, s1 := sreg k x.thr }) }

/-- The value of one draw (R74, R159). -/
def vrngElem (o : Strm) (x : VrngFields) (r j : Nat) : BitVec 32 :=
  let u : Num := .fin false (fieldOf (drawZ o x.ctx r j) 32 24) (-24)
  if x.bits then (if numLt u (valOf (o.s1.setWidth 32)) then bOne else 0#32) else rne32 u

/-- A VRNG's row group. -/
def vrngStep (k : Core) (o : Strm) (x : VrngFields) (t : Nat) : Core :=
  let es := (groupRows (x.nM1.val + 1) o.next).flatMap (fun i =>
    let r := x.r.val + i
    rowElems r ((List.range 128).map (vrngElem o x r)))
  pushPend k (vecPend x.d (t + latConv) o.issued es)

/-- A wide tile. -/
def wideOf (k : Core) (w : Bool) : WideTile := if w then k.wide.get 1 else k.wide.get 0

/-- A core with a wide tile changed. -/
def modWide (k : Core) (w : Bool) (f : WideTile → WideTile) : Core :=
  { k with wide := if w then k.wide.set 1 (f (k.wide.get 1)) else k.wide.set 0 (f (k.wide.get 0)) }

/-- A use of a wide tile: additions are writes, conversions are reads. -/
def wideUse (w : Bool) (first count : Nat) (add : Bool) (issued : Nat) : PortUse :=
  { unit := bitNat w, isWrite := add, first := first, step := 1, count := count, issued := issued }

/-- Tile rows that a wide row fills in a tile of a configuration: 1 of 128 elements or 2 of 64 (R160). -/
def vwcvSpan (cfg : TileCfg) : Nat := if cfgElems cfg = 64 then 2 else 1

/-- Does the destination of a VWCV fit (R160). -/
def vwcvShapeOk (k : Core) (x : VwcvFields) : Bool :=
  let n := x.nM1.val + 1
  decide (x.f.val + n ≤ 128) &&
    (if x.vdst then vecFits x.dstRow.val n
     else tileIs k x.dst.val (fun t f =>
      !f.mx && (decide (f.elem = .fp32) || decide (f.elem = .bf16)) &&
        (decide (cfgElems t.cfg = 128) || decide (cfgElems t.cfg = 64)) &&
        decide (x.dstRow.val + vwcvSpan t.cfg * n ≤ t.cfg.rows.toNat)))

/-- VWCV (R160). -/
def vwcvIssue (c : CoreId) (x : VwcvFields) : Issue :=
  let n := x.nM1.val + 1
  let g := groupsOf n
  let vs (now : Nat) : List PortUse := if x.vdst then [vecUse (low3 x.dst.val) (now + latConv) g true (vKey now)] else []
  let ts (now : Nat) : List PortUse := if x.vdst then [] else [tileUse x.dst.val (now + latConv) 1 g true (vKey now)]
  { core := c
    wait := noWait
    fault := fun s =>
      let k := coreAt s c
      let now := nowAt s c
      firstFault c
        [(!vwcvShapeOk k x, .shapeMismatch),
         ((wideOf k x.wide).mode || vConflict k now 0x40#8 (vs now) (ts now) [], .resourceConflict)]
    effect := fun s =>
      let now := nowAt s c
      modCore s c (fun k =>
        let k1 := vStart k 0x40#8 (now + g) (vs now) (ts now) [] (strmOf k (.vwcv c x) (vKey now) now 1 g)
        { k1 with wideUse := k1.wideUse ++ [wideUse x.wide now g false (vKey now)] }) }

/-- A wide row converted (R72). -/
def wideRow (w : WideTile) (f : Elem) (r : Nat) : List Nat :=
  (List.range 128).map (fun j => wafConvert f w.anchor.toInt w.nan (cellGet 0#128 w.elems (r * 128 + j)))

/-- A VWCV's row group (R160). -/
def vwcvStep (k : Core) (o : Strm) (x : VwcvFields) (t : Nat) : Core :=
  let w := wideOf k x.wide
  let due := t + latConv
  let rows := groupRows (x.nM1.val + 1) o.next
  if x.vdst then
    let es := rows.flatMap (fun i =>
      rowElems (x.dstRow.val + i) ((wideRow w .fp32 (x.f.val + i)).map (BitVec.ofNat 32)))
    pushPend k (vecPend (low3 x.dst.val) due o.issued es)
  else
    match tileNo k x.dst.val with
    | none => k
    | some u =>
      match cfgFormat u.cfg with
      | none => k
      | some f =>
        pushPends k (rows.flatMap (fun i =>
          let bits := wideRow w f.elem (x.f.val + i)
          if vwcvSpan u.cfg = 2 then
            tileRowPends x.dst u.cfg f (x.dstRow.val + 2 * i) due o.issued (bits.take 64, [], cvtNone) ++
            tileRowPends x.dst u.cfg f (x.dstRow.val + 2 * i + 1) due o.issued (bits.drop 64, [], cvtNone)
          else tileRowPends x.dst u.cfg f (x.dstRow.val + i) due o.issued (bits, [], cvtNone)))

/-- VDRN (R150). -/
def execVdrn (c : CoreId) (x : VdrnFields) (s : State) : Host.Outcome State Fault Refusal :=
  if wfVdrn x then .next (runIssue (vdrnIssue c x) (.vdrn c x) s) else refuseReserved "VDRN"

/-- VLD (R157). -/
def execVld (c : CoreId) (x : VldFields) (s : State) : Host.Outcome State Fault Refusal :=
  .next (runIssue (vldIssue c x) (.vld c x) s)

/-- VST (R157). -/
def execVst (c : CoreId) (x : VstFields) (s : State) : Host.Outcome State Fault Refusal :=
  .next (runIssue (vstIssue c x) (.vst c x) s)

/-- VOP (R154). -/
def execVop (c : CoreId) (x : VopFields) (s : State) : Host.Outcome State Fault Refusal :=
  if wfVop x then .next (runIssue (vopIssue c x) (.vop c x) s) else refuseReserved "VOP"

/-- VFN (R155). -/
def execVfn (c : CoreId) (x : VfnFields) (s : State) : Host.Outcome State Fault Refusal :=
  if wfVfn x then .next (runIssue (vfnIssue c x) (.vfn c x) s) else refuseReserved "VFN"

/-- VRED (R156). -/
def execVred (c : CoreId) (x : VredFields) (s : State) : Host.Outcome State Fault Refusal :=
  if wfVred x then .next (runIssue (vredIssue c x) (.vred c x) s) else refuseReserved "VRED"

/-- VRNG (R159). -/
def execVrng (c : CoreId) (x : VrngFields) (s : State) : Host.Outcome State Fault Refusal :=
  .next (runIssue (vrngIssue c x) (.vrng c x) s)

/-- VWCV (R160). -/
def execVwcv (c : CoreId) (x : VwcvFields) (s : State) : Host.Outcome State Fault Refusal :=
  .next (runIssue (vwcvIssue c x) (.vwcv c x) s)

end Sys2Proof.Machine
end

