-- ==== Sys2Proof/Machine/Wide.lean ====
section
/-! DEFINITION. The wide accumulator buffer (R171 to R177). -/

namespace Sys2Proof.Machine

/-- A wide tile after a clearing load with an anchor and a mode (R172). -/
def wideClear (mode : Bool) (anchor : BitVec 10) : WideTile :=
  { mode := mode, anchor := anchor, nan := false, ovf := false, adds := 0, elems := [] }

/-- A write of WAB_CTL: a clearing load where CLEAR is set or MODE changes; any other write changes nothing (R172). -/
def wabWrite (t : WideTile) (v : Nat) : WideTile :=
  let mode := bitOf v 0
  if bitOf v 12 || (mode != t.mode) then wideClear mode (BitVec.ofNat 10 (fieldOf v 2 10)) else t

/-- Is this write of WAB_CTL a clearing load (R172). -/
def wabClears (t : WideTile) (v : Nat) : Bool := bitOf v 12 || (bitOf v 0 != t.mode)

/-- Does an operation issued earlier still add into or read the wide tile at tick `t` or later (R172, R173). -/
def wideBusy (k : Core) (w : Bool) (t : Nat) : Bool :=
  k.wideUse.any (fun u => u.unit == bitNat w && decide (0 < u.count) && decide (t ≤ lastUse u))

/-- WCLR (R173). -/
def wclrIssue (c : CoreId) (w : Bool) : Issue :=
  { core := c
    wait := noWait
    fault := fun s =>
      let k := coreAt s c
      firstFault c [((wideOf k w).mode || wideBusy k w (nowAt s c + 1), .resourceConflict)]
    effect := fun s =>
      let now := nowAt s c
      modCore s c (fun k => pushPend k { due := now + 1, issued := issueKey now 0, eff := .wclr w }) }

/-- WADD (R130, R174). -/
def waddIssue (c : CoreId) (x : WaddFields) : Issue :=
  let n := x.rowsM1.val + 1
  let bs (k : Core) (now : Nat) : List PortUse :=
    [bankUse false x.arr (physBank (arrOf k x.arr) x.bank) (now + 1) n (issueKey now 1)]
  { core := c
    wait := noWait
    fault := fun s =>
      let k := coreAt s c
      let now := nowAt s c
      firstFault c
        [((bankOf (arrOf k x.arr) (physBank (arrOf k x.arr) x.bank)).int || decide (128 < x.row.val + n), .shapeMismatch),
         ((wideOf k x.wide).mode || !bankFit k.bankUse (bs k now), .resourceConflict)]
    effect := fun s =>
      let now := nowAt s c
      modCore s c (fun k =>
        let o := strmOf k (.wadd c x) (issueKey now 1) (now + 1) 1 n
        { k with
          bankUse := k.bankUse ++ bs k now
          wideUse := k.wideUse ++ [wideUse x.wide (now + 5) n true (issueKey now 1)]
          ops := k.ops ++ [{ o with banks := BitVec.ofNat 4 (bitNat (physBank (arrOf k x.arr) x.bank) * 2 ^ x.arr.val) }] }) }

/-- The bank row a WADD reads in the tick of its step. -/
def waddBankRead (k : Core) (o : Strm) (x : WaddFields) : List (BitVec 32) :=
  bankRow k false x.arr (o.banks.getLsbD x.arr.val) (x.row.val + o.next)

/-- Addends of a row under an anchor: the integers, and how many saturated or were NaN (R68). -/
def wideAddends (a : Int) (xs : List Num) : List Int × Nat × Nat :=
  let z := xs.map (wafAddend a)
  (z.map (fun e => e.1), (z.filter (fun e => e.2.1)).length, (z.filter (fun e => e.2.2)).length)

/-- The addition of a WADD's row, with the bank row in `o.vals`, visible 4 ticks after the read (R174). -/
def waddStep (k : Core) (o : Strm) (x : WaddFields) (t : Nat) : Core :=
  let z := wideAddends (wideOf k x.wide).anchor.toInt (o.vals.map valOf)
  pushPend k { due := t + 4, issued := o.issued, eff := .wide x.wide (x.row.val + o.next) z.1 z.2.1 z.2.2 (decide (0 < z.2.2)) }

/-- Integers added to the elements of a row modulo 2^128 (R68, R69). -/
def wideElems (es : List (Nat × BitVec 128)) (row : Nat) (adds : List Int) : List (Nat × BitVec 128) :=
  (List.range adds.length).foldl (fun m j =>
    let i := row * 128 + j
    cellSet 0#128 m i (cellGet 0#128 m i + BitVec.ofInt 128 (adds.getD j 0))) es

/-- WIDE_ROW_ADD: a row is added; the flags, ADDS, NUM_WAFSTAT and the job's overflow note follow (R68, R71, R174). -/
def wideAdd (k : Core) (w : Bool) (row : Nat) (adds : List Int) (ovf nans : Nat) (nan : Bool) : Core :=
  let k1 := modWide k w (fun t =>
    { t with
      nan := t.nan || nan, ovf := t.ovf || decide (0 < ovf)
      adds := BitVec.ofNat 32 (satAdd 32 t.adds.toNat 1)
      elems := wideElems t.elems row adds })
  { k1 with
    wafOvf := BitVec.ofNat 32 (satAdd 32 k1.wafOvf.toNat ovf)
    wafNan := BitVec.ofNat 32 (satAdd 32 k1.wafNan.toNat nans)
    overflow := k1.overflow || decide (0 < ovf) || nan }

/-- WCLR (R173). -/
def execWclr (c : CoreId) (w : Bool) (s : State) : Host.Outcome State Fault Refusal :=
  .next (runIssue (wclrIssue c w) (.wclr c w) s)

/-- WADD (R174). -/
def execWadd (c : CoreId) (x : WaddFields) (s : State) : Host.Outcome State Fault Refusal :=
  .next (runIssue (waddIssue c x) (.wadd c x) s)

end Sys2Proof.Machine
end

