-- ==== Sys2Proof/Machine/Combining.lean ====
section
/-! DEFINITION. Combining queues (R220 to R223). -/

namespace Sys2Proof.Machine

/-- A combining queue of a core. -/
def combOf (k : Core) (q : Fin 8) : CombQ := k.combs.get q

/-- A core with a combining queue changed. -/
def modComb (k : Core) (q : Fin 8) (f : CombQ → CombQ) : Core := { k with combs := k.combs.set q.val (f (combOf k q)) q.isLt }

/-- Is the combining unit of a core at work: a stop does not keep it (R284), a fence does. -/
def combRuns (k : Core) : Bool := !coreFencing k

/-- A fault of a combining queue: it fences the receiving core's job and nothing of the contribution is added (R220). On a core
that runs no job the contribution is dropped. -/
def combFault (c : CoreId) (q : Fin 8) (st : Status) (s : State) : State :=
  match jobOf s c with
  | some _ => raiseFault c (rankUnit (16 + q.val)) (flt st c) s
  | none => modCore s c (fun k => modComb k q (fun x => { x with entries := x.entries.drop 1, busy := false }))

/-- COUNT of a narrow contribution (spec/10, Table 3). -/
def narrowCount (d : Desc) : Nat := fieldOf d.word0.toNat 16 2 + 1

/-- The fault of a narrow contribution (R221; spec/10, Table 6). -/
def narrowFault (x : CombQ) (d : Desc) : Option Status :=
  let w := d.word0.toNat
  if narrowCount d = 4 ∨ w / 2 ^ 18 ≠ 0 then some .badParam
  else if x.awords.toNat < fieldOf w 0 16 + narrowCount d then some .bounds
  else none

/-- The addends of a narrow contribution with their local store offsets (R221). -/
def narrowAdds (x : CombQ) (d : Desc) : List (Nat × Word) :=
  let base := x.abase.toNat * 32 + 8 * fieldOf d.word0.toNat 0 16
  ([d.word1, d.word2, d.word3].take (narrowCount d)).zip (List.range 3) |>.map (fun p => (base + 8 * p.2, p.1))

/-- The head entry of a narrow queue, if it is not being added yet. -/
def narrowReady (k : Core) (q : Fin 8) : Option Desc :=
  let x := combOf k q
  match x.entries with
  | [] => none
  | e :: _ => if combRuns k && !x.mode && !x.busy then some e.words else none

/-- COMBINE_NARROW: the head entry adds its addends, visible 6 ticks later (R221). -/
def combineNarrow (c : CoreId) (q : Fin 8) (s : State) : State :=
  let k := coreAt s c
  match narrowReady k q with
  | none => s
  | some d =>
    let x := combOf k q
    match narrowFault x d with
    | some st => combFault c q st s
    | none =>
      let now := nowAt s c
      modCore s c (fun k => pushPend (modComb k q (fun x => { x with busy := true }))
        { due := now + 6, issued := issueKey now 4, eff := .comb q (narrowAdds x d) })

/-- FMT: the rows are WAF128 (spec/10, Table 3). -/
def wideIsWaf (d : Desc) : Bool := bitOf d.word0.toNat 0
/-- Bytes of a row of a wide contribution. -/
def wideRowBytes (d : Desc) : Nat := if wideIsWaf d then 2048 else 512
/-- Rows of a wide contribution. -/
def wideRows (d : Desc) : Nat := fieldOf d.word0.toNat 9 7 + 1

/-- The fault of a wide contribution at the head of its queue (R222; spec/10, Table 6). -/
def wideFault (t : WideTile) (d : Desc) : Option Status :=
  let w := d.word0.toNat
  if w / 2 ^ 27 ≠ 0 ∨ fieldOf d.word1.toNat 0 5 ≠ 0 ∨ d.word1.toNat / 2 ^ 48 ≠ 0 ∨ d.word2.toNat / 2 ^ 24 ≠ 0 ∨ d.word3 ≠ 0 then
    some .badParam
  else if wideIsWaf d = true ∧ BitVec.ofNat 10 (fieldOf w 16 10) ≠ t.anchor then some .shapeMismatch
  else if 128 < fieldOf w 2 7 + wideRows d then some .bounds
  else none

/-- The head entry of a wide queue, if rows of it are still to be added. -/
def wideReady (k : Core) (q : Fin 8) : Option CombEntry :=
  let x := combOf k q
  match x.entries with
  | [] => none
  | e :: _ => if combRuns k && x.mode && decide (e.rowsDone < wideRows e.words) then some e else none

/-- COMBINE_WIDE_ROW: the next row of the head entry is taken from SQ once it is readable and added, visible 6 ticks later
(R222). -/
def combineWideRow (c : CoreId) (q : Fin 8) (s : State) : State :=
  let k := coreAt s c
  match wideReady k q with
  | none => s
  | some e =>
    let x := combOf k q
    let t := wideOf k x.wt
    let d := e.words
    let rb := wideRowBytes d
    match wideFault t d with
    | some st => combFault c q st s
    | none =>
      if qAvail (qOf k x.sq) (periodAt s c) < rb then s
      else
        let now := nowAt s c
        let bs := qPeek k x.sq rb
        let get (i : Nat) : Byte := bs.getD i 0
        let row := fieldOf d.word0.toNat 2 7 + e.rowsDone
        let nanBit := bitOf d.word0.toNat 26
        let z := if wideIsWaf d then
            ((List.range 128).map (fun j => (BitVec.ofNat 128 (leNat ((bs.drop (16 * j)).take 16))).toInt), 0, 0)
          else wideAddends t.anchor.toInt ((List.range 128).map (fun j => valOf (BitVec.ofNat 32 (rowElem .fp32 get j))))
        let last := decide (e.rowsDone + 1 = wideRows d)
        modCore s c (fun k =>
          let k1 := modComb (modQ k x.sq (fun sq => qTake sq rb)) q (fun x =>
            { x with busy := true, entries := { e with rowsDone := e.rowsDone + 1 } :: x.entries.drop 1 })
          let key := issueKey now 4
          let add : Eff := .combWide x.wt row z.1 z.2.1 z.2.2 (nanBit || decide (0 < z.2.2))
          let k2 := pushPend k1 { due := now + 6, issued := key, eff := add }
          if last then pushPend k2 { due := now + 6, issued := key, eff := .comb q [] } else k2)

/-- The last addition of a contribution becomes visible: the entry leaves and DONE counts it (R221, R222). -/
def combDone (k : Core) (q : Fin 8) (words : List (Nat × Word)) : Core :=
  let st := words.foldl (fun m p => memWrite m p.1 (leBytes 8 (memNat m p.1 8 + p.2.toNat))) k.store
  modComb { k with store := st } q (fun x => { x with entries := x.entries.drop 1, busy := false, done := x.done + 1#32 })

/-- Is a row of the head entry readable, and free of faults. -/
def wideRowDue (s : State) (c : CoreId) (q : Fin 8) : Bool :=
  let k := coreAt s c
  match wideReady k q with
  | some e =>
    let x := combOf k q
    (wideFault (wideOf k x.wt) e.words).isNone && decide (wideRowBytes e.words ≤ qAvail (qOf k x.sq) (periodAt s c))
  | none => false

/-- The rows of the head entry that have become readable are added in one tick (R222). -/
def combineWideRows : Nat → CoreId → Fin 8 → State → State
  | 0, _, _, s => s
  | n + 1, c, q, s => if wideRowDue s c q then combineWideRows n c q (combineWideRow c q s) else s

/-- A wide queue in a tick: what is readable is added, or the head entry's fault is raised. -/
def combineWide (c : CoreId) (q : Fin 8) (s : State) : State :=
  if wideRowDue s c q then combineWideRows 128 c q s else combineWideRow c q s

/-- Every combining queue of a core in a tick. -/
def combTick (c : CoreId) (s : State) : State :=
  (List.finRange 8).foldl (fun u q =>
    if (combOf (coreAt u c) q).mode then combineWide c q u else combineNarrow c q u) s

/-- A combining unit's step as a command of its own: in a held region it changes nothing (R33, R225). -/
def combCommand (c : CoreId) (f : State → State) (s : State) : State :=
  if (regionAt s (regionOf c)).hold.isNone then settleFaults (regionOf c) (f s) else s

/-- KWAIT (R223). -/
def kwaitIssue (c : CoreId) (q : Fin 8) (rs : SReg) : Issue :=
  { core := c
    wait := fun s =>
      let k := coreAt s c
      let x := combOf k q
      if x.done.toNat < fieldOf (sreg k rs).toNat 0 32 then
        some (holdOn c 0b01#2 (if x.mode then 0x10 + x.sq.val else 0) (0x200 + q.val) noPeer)
      else none
    fault := noFault
    effect := id }

/-- KOUT (R223). -/
def koutIssue (c : CoreId) (x : KoutFields) : Issue :=
  let n := x.rowsM1.val + 1
  { core := c
    wait := noWait
    fault := fun s =>
      let k := coreAt s c
      firstFault c [(!(combOf k x.k).mode || !(qOf k x.q).write || decide (128 < x.f.val + n), .resourceConflict)]
    effect := fun s =>
      let now := nowAt s c
      modCore s c (fun k =>
        let o := strmOf k (.kout c x) (issueKey now 4) now 1 n
        { k with
          wideUse := k.wideUse ++ [wideUse (combOf k x.k).wt now n false (issueKey now 4)]
          ops := k.ops ++ [{ o with banks := BitVec.ofNat 4 (bitNat (combOf k x.k).wt) }] }) }

/-- A row of a KOUT is read and on its way to the write queue (R223). -/
def koutStep (k : Core) (o : Strm) (x : KoutFields) (t : Nat) : Core :=
  let w := wideOf k (o.banks.getLsbD 0)
  let f : Elem := if x.bf16 then .bf16 else .fp32
  pushPend k { due := t + 8, issued := o.issued, eff := .qput x.q (packRow f (wideRow w f (x.f.val + o.next))) }

/-- KWAIT (R223). -/
def execKwait (c : CoreId) (q : Fin 8) (rs : SReg) (s : State) : Host.Outcome State Fault Refusal :=
  .next (runIssue (kwaitIssue c q rs) (.kwait c q rs) s)

/-- KOUT (R223). -/
def execKout (c : CoreId) (x : KoutFields) (s : State) : Host.Outcome State Fault Refusal :=
  .next (runIssue (koutIssue c x) (.kout c x) s)

/-- COMBINE_NARROW (R221). -/
def execCombineNarrow (c : CoreId) (q : Fin 8) (s : State) : Host.Outcome State Fault Refusal :=
  .next (combCommand c (combineNarrow c q) s)

/-- COMBINE_WIDE_ROW (R222). -/
def execCombineWideRow (c : CoreId) (q : Fin 8) (s : State) : Host.Outcome State Fault Refusal :=
  .next (combCommand c (combineWideRow c q) s)

end Sys2Proof.Machine
end

