-- ==== Sys2Proof/Machine/LinkCore.lean ====
section
/-! DEFINITION. The link instructions of a core: XSEND, XWAIT and XSYNC, and its outstanding link commands (R309, R314). -/

namespace Sys2Proof.Machine

/-- VIA of a link command: IO1 (spec/14, Table 4). -/
def linkVia (d : Desc) : Bool := bitOf d.word0.toNat 4

/-- DEST of a link command. -/
def linkDest (d : Desc) : BitVec 14 := BitVec.ofNat 14 (fieldOf d.word0.toNat 5 14)

/-- Commands of a region that stand in the crossing towards an I/O region (R309). -/
def ioCrossing (s : State) (r : RegionId) (via : Bool) : Nat :=
  (coresOf r).foldl (fun n c => n + ((coreAt s c).links.filter (fun l => !l.taken && linkVia l.words == via)).length) 0

/-- Is an XSEND of the core in progress. -/
def xsendBusy (k : Core) : Bool := k.ops.any (fun o => match o.instr with | .xsend _ _ => true | _ => false)

/-- XSEND (R309, R321). -/
def xsendIssue (c : CoreId) (nM1 : Fin 32) : Issue :=
  { core := c
    wait := noWait
    fault := fun s =>
      let k := coreAt s c
      firstFault c [(decide (k.xrLen = 0) || xsendBusy k, .resourceConflict)]
    effect := fun s =>
      let now := nowAt s c
      modCore s c (fun k =>
        { k with ops := k.ops ++ [strmOf k (.xsend c nM1) (issueKey now 0) now 1 (nM1.val + 1)] }) }

/-- The command that the next step of an XSEND sends. -/
def xsendNext (k : Core) : Desc := readDesc (sentStore k) (k.xrBase.toNat * 32 + k.xrPos.toNat % Nat.max k.xrLen.toNat 1 * 32)

/-- The wait of an XSEND's step: a free entry of the crossing (R309). -/
def xsendWait (s : State) (c : CoreId) : Option HoldCond :=
  if crossingDepth ≤ ioCrossing s (regionOf c) (linkVia (xsendNext (coreAt s c))) then
    some (holdOn c 0b10#2 0x08 0x08 noPeer)
  else none

/-- A command enters the crossing (R309). -/
def xsendStep (k : Core) : Core :=
  let n := Nat.max k.xrLen.toNat 1
  { k with
    xrPos := BitVec.ofNat 10 ((k.xrPos.toNat % n + 1) % n)
    links := k.links ++ [{ words := xsendNext k, seqNo := k.linkSeq, index := k.xrPos.toNat % n, taken := false, sent := false, acked := false }]
    linkSeq := k.linkSeq + 1 }

/-- XWAIT (R314). -/
def xwaitIssue (c : CoreId) (f : Fin 8) (rs : SReg) : Issue :=
  { core := c
    wait := fun s =>
      let k := coreAt s c
      if (k.xflags.get f).toNat < fieldOf (sreg k rs).toNat 0 32 then some (holdOn c 0b01#2 0x07 0x07 noPeer) else none
    fault := noFault
    effect := id }

/-- XSYNC (R314). -/
def xsyncIssue (c : CoreId) (rs : SReg) : Issue :=
  { core := c
    wait := fun s =>
      let k := coreAt s c
      if k.xcomp.toNat < fieldOf (sreg k rs).toNat 0 32 then some (holdOn c 0b01#2 0x07 0x07 noPeer) else none
    fault := noFault
    effect := id }

/-- Completed commands leave in ring order and are counted (R314). -/
def countDone (k : Core) : Core :=
  let done := k.links.takeWhile (fun l => l.acked)
  { k with links := k.links.drop done.length, xcomp := k.xcomp + BitVec.ofNat 32 done.length }

/-- XSEND (R309). -/
def execXsend (c : CoreId) (n : Fin 32) (s : State) : Host.Outcome State Fault Refusal :=
  .next (runIssue (xsendIssue c n) (.xsend c n) s)

/-- XWAIT (R314). -/
def execXwait (c : CoreId) (f : Fin 8) (k : SReg) (s : State) : Host.Outcome State Fault Refusal :=
  .next (runIssue (xwaitIssue c f k) (.xwait c f k) s)

/-- XSYNC (R314). -/
def execXsync (c : CoreId) (k : SReg) (s : State) : Host.Outcome State Fault Refusal :=
  .next (runIssue (xsyncIssue c k) (.xsync c k) s)

end Sys2Proof.Machine
end

