-- ==== Sys2Proof/Machine/Mvu.lean ====
section
/-! DEFINITION. The matrix-vector unit (R127 to R129). -/

namespace Sys2Proof.Machine

/-- Latency of a line's update: 20 ticks in profile 1, 18 in profile 2 (R129; spec/02, Table 11). -/
def mvmLatency (p : BitVec 3) : Nat := if isProf2 p then 18 else 20

/-- A bank of the matrix-vector unit, by its absolute number (R129). -/
def mvBank (u : Mvu) (b : Bool) : AccBank := if b then u.bank1 else u.bank0

/-- A bank with the updates still on their way. -/
def mvWork (u : Mvu) (b : Bool) : AccBank := if b then u.work1 else u.work0

/-- The unit with a visible bank changed. -/
def modMvBank (u : Mvu) (b : Bool) (f : AccBank → AccBank) : Mvu :=
  if b then { u with bank1 := f u.bank1 } else { u with bank0 := f u.bank0 }

/-- The unit with a working bank changed. -/
def modMvWork (u : Mvu) (b : Bool) (f : AccBank → AccBank) : Mvu :=
  if b then { u with work1 := f u.work1 } else { u with work0 := f u.work0 }

/-- Ticks an MVLD of a configuration holds the line feed. -/
def mvldTicks (cfg : TileCfg) : Nat := ceilDiv (cfgBytes cfg) 2048

/-- The tile read of an MVLD. -/
def mvldUses (k : Core) (t : TReg) (now : Nat) : List PortUse :=
  [tileUse t.val now 1 (mvldTicks (tileOf k t).cfg) false (issueKey now 1)]

/-- The activation buffer bytes an MVLD brings: element bits and their scale bytes, by vector times 512 plus element. -/
def mvldVals (u : Tile) (e : Nat) : List (Nat × BitVec 32) × List (Nat × Byte) :=
  let f := (cfgFormat u.cfg).getD ⟨.int8, false⟩
  let at' := (List.range u.cfg.rows.toNat).flatMap (fun r => (List.range (cfgElems u.cfg)).map (fun c => (r, c)))
  (at'.map (fun p => (p.1 * 512 + e + p.2, BitVec.ofNat 32 (tileBits u f.elem p.1 p.2))),
   if f.mx then at'.map (fun p => (p.1 * 512 + e + p.2, tileScale u (scaleAt u.cfg.axis p.1 p.2))) else [])

/-- MVLD (R127): at most 8 rows within the 512 elements; block scales must run along rows, the reduction axis (R55). -/
def mvldIssue (c : CoreId) (t : TReg) (e : Fin 512) : Issue :=
  { core := c
    wait := noWait
    fault := fun s =>
      let k := coreAt s c
      let now := nowAt s c
      let u := tileOf k t
      let mx := match cfgFormat u.cfg with | some f => f.mx | none => false
      firstFault c
        [(u.empty, .tileEmpty),
         (decide (8 < u.cfg.rows.toNat) || decide (512 < e.val + cfgElems u.cfg) || (mx && u.cfg.axis), .shapeMismatch),
         (decide (now < k.mvu.feedUntil) || tilePorts k (mvldUses k t now), .resourceConflict)]
    effect := fun s =>
      let now := nowAt s c
      modCore s c (fun k =>
        let u := tileOf k t
        let n := mvldTicks u.cfg
        let v := mvldVals u e.val
        let k1 := takeTiles k (mvldUses k t now)
        let k2 := { k1 with mvu := { k1.mvu with feedUntil := now + n } }
        pushPend k2 { due := now + 2 + n, issued := issueKey now 1, eff := .mvbuf u.cfg.fmt v.1 v.2 }) }

/-- The activation buffer with an MVLD's elements: elements of another format are all replaced (R127). -/
def mvBufWrite (u : Mvu) (fmt : BitVec 5) (vals : List (Nat × BitVec 32)) (scales : List (Nat × Byte)) : Mvu :=
  let b0 := if u.bufFmt = fmt then u.buf else []
  let s0 := if u.bufFmt = fmt then u.bufScales else []
  { u with
    bufFmt := fmt
    buf := vals.foldl (fun m e => cellSet 0#32 m e.1 e.2) b0
    bufScales := scales.foldl (fun m e => cellSet 0x7F#8 m e.1 e.2) s0 }

/-- Vectors, lines and interval of an MVM: 2 ticks a line with a 16-bit format on either side, else 1 (R127). -/
def mvmInterval (k : Core) : Nat :=
  let wide (n : Nat) : Bool := match formatOfCode n with | some f => decide (elemBits f.elem = 16) | none => false
  if wide k.live.wfmt.toNat || wide k.mvu.bufFmt.toNat then 2 else 1

/-- The activation element line 0 of an MVM pairs with (R127). -/
def mvmFirst (k : Core) (x : MvmFields) : Nat :=
  let l := k.seq.loops.get x.lc
  if x.useLc then x.e0.val + (if l.active then l.iter.toNat else 0) * (x.linesM1.val + 1) else x.e0.val

/-- MVM (R127 to R129). -/
def mvmIssue (c : CoreId) (x : MvmFields) : Issue :=
  { core := c
    wait := noWait
    fault := fun s =>
      let k := coreAt s c
      let now := nowAt s c
      let wf := formatOfCode k.live.wfmt.toNat
      let bf := formatOfCode k.mvu.bufFmt.toNat
      let okClass :=
        match wf, bf with
        | some w, some b =>
          isOperand w && isOperand b && (isFloatClass w == isFloatClass b) && (!w.mx || decide (x.q.val < 15)) &&
            (x.clr || ((mvBank k.mvu x.bank).int == isIntClass w))
        | _, _ => false
      firstFault c
        [(decide (512 < mvmFirst k x + x.linesM1.val + 1) || !okClass, .shapeMismatch),
         (decide (now < k.mvu.feedUntil), .resourceConflict)]
    effect := fun s =>
      let now := nowAt s c
      modCore s c (fun k =>
        let p := mvmInterval k
        let n := x.linesM1.val + 1
        let int := match formatOfCode k.live.wfmt.toNat with | some f => isIntClass f | none => false
        let o := strmOf k (.mvm c x) (issueKey now 1) now p n
        let setInt (z : AccBank) : AccBank := if x.clr then { z with int := int } else z
        let u := modMvWork (modMvBank k.mvu x.bank setInt) x.bank setInt
        { k with
          mvu := { u with feedUntil := now + n * p, scaleCount := if x.clr then 0 else u.scaleCount }
          ops := k.ops ++ [{ o with s0 := BitVec.ofNat 64 (mvmFirst k x) }] }) }

/-- Does the next line of an MVM take a scale line from the next queue: every 32nd block-scaled weight line (R127). -/
def mvmTakesScale (k : Core) (o : Strm) : Bool :=
  match formatOfCode o.cfg.wfmt.toNat with
  | some f => f.mx && decide (k.mvu.scaleCount % 32 = 0)
  | none => false

/-- The queue that follows `q`. -/
def nextQ (q : QId) : QId := if h : q.val + 1 < 16 then ⟨q.val + 1, h⟩ else q

/-- Is a value plus or minus zero. -/
def isZeroNum (v : Num) : Bool := numIsZero v

/-- MVM_LINE: one weight line is taken and applied to every active vector (R127, R128). The line's and the scale line's
entries are present. -/
def mvmStep (k : Core) (o : Strm) (x : MvmFields) (t : Nat) : Core :=
  let f := (formatOfCode o.cfg.wfmt.toNat).getD ⟨.int8, false⟩
  let bf := (formatOfCode k.mvu.bufFmt.toNat).getD ⟨.int8, false⟩
  let line := (leNat (qHeadBytes k x.q (rowBytes f.elem 512)))
  let kq := modQ k x.q (fun q => qDropEntries q 1)
  let takes := mvmTakesScale k o
  let sc := if takes then (List.range 512).zip (qHeadBytes kq (nextQ x.q) 512) else []
  let kq2 := if takes then modQ kq (nextQ x.q) (fun q => qDropEntries q 1) else kq
  let scaleLine := if takes then sc.foldl (fun m e => cellSet 0#8 m e.1 e.2) [] else k.mvu.scaleLine
  let idx := o.s0.toNat + o.next
  let int := isIntClass f
  let first := decide (o.next = 0) && x.clr
  let work0 := mvWork k.mvu x.bank
  let w (j : Nat) : Num := scaledValue f (fieldOf line (j * elemBits f.elem) (elemBits f.elem)) (cellGet 0#8 scaleLine j).toNat
  let act (v : Nat) : Num :=
    scaledValue bf (cellGet 0#32 k.mvu.buf (v * 512 + idx)).toNat (cellGet 0x7F#8 k.mvu.bufScales (v * 512 + idx)).toNat
  let vecs := List.range (x.vecM1.val + 1)
  let upd : List (Nat × AccElem × Nat) := vecs.flatMap (fun v =>
    let a := act v
    if isZeroNum a && !first then []
    else
      (List.range 512).map (fun j =>
        let old := if first then clearElem int else storeGet work0.elems (v * 512 + j)
        if isZeroNum a then (v * 512 + j, old, 0)
        else
          let z := accumulate int old.bits [[numMul a (w j)]]
          (v * 512 + j, { bits := z.1, int := int }, z.2)))
  let vals := upd.map (fun u => (u.1, u.2.1))
  let sat := upd.foldl (fun a u => a + u.2.2) 0
  let skip := vecs.all (fun v => isZeroNum (act v))
  let u := modMvWork kq2.mvu x.bank (fun z =>
    { z with elems := vals.foldl (fun m e => storeSet m e.1 e.2) z.elems })
  let u1 := { u with
    scaleLine := scaleLine
    scaleCount := if f.mx then u.scaleCount + 1 else u.scaleCount
    skip := if skip then BitVec.ofNat 64 (satAdd 64 u.skip.toNat 1) else u.skip }
  pushPend { kq2 with mvu := u1 } { due := t + mvmLatency o.prof, issued := o.issued, eff := .mvline x.bank vals sat }

/-- MVLD (R127). -/
def execMvld (c : CoreId) (t : TReg) (e : Fin 512) (s : State) : Host.Outcome State Fault Refusal :=
  .next (runIssue (mvldIssue c t e) (.mvld c t e) s)

/-- MVM (R127). -/
def execMvm (c : CoreId) (x : MvmFields) (s : State) : Host.Outcome State Fault Refusal :=
  .next (runIssue (mvmIssue c x) (.mvm c x) s)

end Sys2Proof.Machine
end

