-- ==== Sys2Proof/Machine/Softmax.lean ====
section
/-! DEFINITION. Online softmax and the Scaler (R78, R79, R161 to R167). -/

namespace Sys2Proof.Machine

/-- A state row before its first block: m = -∞, l = +0, k = 0, NaN flag clear (R161). -/
def sxInit : SxRow := { m := bNegInf, l := 0, alpha := 0, k := 0, nan := false }

/-- A row of a softmax context. -/
def sxRow (k : Core) (ctx : Bool) (r : Nat) : SxRow := storeGet (if ctx then k.vec.sx1 else k.vec.sx0) r

/-- A core with a row of a softmax context replaced. -/
def sxWrite (k : Core) (ctx : Bool) (r : Nat) (v : SxRow) : Core :=
  modVec k (fun x => if ctx then { x with sx1 := storeSet x.sx1 r v } else { x with sx0 := storeSet x.sx0 r v })

/-- A core with a flag of VEC_SXFLAG written. -/
def sxFlagWrite (k : Core) (ctx : Bool) (r : Nat) (v : BitVec 2) : Core :=
  modVec k (fun x =>
    if ctx then { x with sxflag1 := cellSet 0#2 x.sxflag1 r v } else { x with sxflag0 := cellSet 0#2 x.sxflag0 r v })

/-- Latency of VSMX (spec/07, Table 1). -/
def latSmx (p : BitVec 3) : Nat := if isProf2 p then 32 else 34
/-- Latency of VSMXF (spec/07, Table 1). -/
def latSmxf (p : BitVec 3) : Nat := if isProf2 p then 18 else 20

/-- Is a value finite. -/
def isFin32 (b : BitVec 32) : Bool := match valOf b with | .fin _ _ _ => true | _ => false

/-- cr exp(a - b) for register values, of the exact difference (R162). -/
def expDiff (a b : BitVec 32) : BitVec 32 := BitVec.ofNat 32 (fpExp (numAdd (valOf a) (numNeg (valOf b))))

/-- The new state and the P row of a score row: unmasked entries are `some` (R162). -/
def smxRow (st : SxRow) (us : List (Option (BitVec 32))) : SxRow × List (BitVec 32) :=
  let u := us.filterMap id
  let infs := (u.filter (fun b => b == bInf)).length
  let fins := u.filter isFin32
  if st.nan || u.any isNan32 then
    ({ st with nan := true, alpha := bNan }, us.map (fun _ => bNan))
  else if 0 < st.k ∨ 0 < infs then
    let k := st.k + infs
    ({ st with alpha := (if st.k = 0 then 0#32 else bOne), k := k, m := bInf, l := rne32 (.fin false k 0) },
     us.map (fun b => if b = some bInf then bOne else 0#32))
  else
    match fins with
    | [] => ({ st with alpha := (if st.m = bNegInf then 0#32 else bOne) }, us.map (fun _ => 0#32))
    | f :: r =>
      let mb := r.foldl max32 f
      let m' := max32 st.m mb
      let alpha := if st.m = bNegInf then 0#32 else expDiff st.m m'
      let p := us.map (fun b => match b with | some x => (if isFin32 x then expDiff x m' else 0#32) | none => 0#32)
      let sum := p.foldl (fun a x => rne32 (numAdd (valOf a) (valOf x))) bNegZero
      let l := rne32 (numAdd (valOf (rne32 (numMul (valOf st.l) (valOf alpha)))) (valOf sum))
      ({ st with m := m', alpha := alpha, l := l }, p)

/-- Is the mask tile of a VSMX one of UINT8 with 128 elements per row and at least `n` rows (spec/07, Table 11). -/
def maskTileOk (t : Tile) (f : Format) (n : Nat) : Bool :=
  decide (f.elem = .uint8) && !f.mx && decide (cfgElems t.cfg = 128) && decide (n ≤ t.cfg.rows.toNat)

/-- VSMX (R162). -/
def vsmxIssue (c : CoreId) (x : VsmxFields) : Issue :=
  let n := x.nM1.val + 1
  let g := groupsOf n
  let vs (k : Core) (now : Nat) : List PortUse :=
    [vecUse x.scores now g false (vKey now), vecUse x.p (now + latSmx k.seq.latprof) g true (vKey now)]
  let ts (now : Nat) : List PortUse := if x.maskEn then [tileUse x.mask.val now 1 g false (vKey now)] else []
  { core := c
    wait := noWait
    fault := fun s =>
      let k := coreAt s c
      let now := nowAt s c
      firstFault c
        [(x.maskEn && (tileOf k x.mask).empty, .tileEmpty),
         (!vecFits x.r.val n || (x.maskEn && !tileIs k x.mask.val (fun t f => maskTileOk t f n)), .shapeMismatch),
         (vConflict k now 0x30#8 (vs k now) (ts now) [], .resourceConflict)]
    effect := fun s =>
      let now := nowAt s c
      modCore s c (fun k =>
        let o := strmOf k (.vsmx c x) (vKey now) now 1 g
        vStart k 0x30#8 (now + g) (vs k now) (ts now) [] { o with s0 := sreg k x.len }) }

/-- A VSMX's row group. -/
def vsmxStep (k : Core) (o : Strm) (x : VsmxFields) (t : Nat) : Core :=
  let due := t + latSmx o.prof
  let len := Nat.min 128 o.s0.toNat
  pushPends k ((groupRows (x.nM1.val + 1) o.next).flatMap (fun i =>
    let r := x.r.val + i
    let us := (List.range 128).map (fun j =>
      if len ≤ j ∨ (x.maskEn = true ∧ tileBits (tileOf k x.mask) .uint8 i j ≠ 0) then none else some (vecGet k x.scores r j))
    let z := smxRow (if x.init then sxInit else sxRow k x.ctx r) us
    [vecPend x.p due o.issued (rowElems r z.2), { due := due, issued := o.issued, eff := .sx x.ctx r z.1 }]))

/-- VRESC (R163). -/
def vrescIssue (c : CoreId) (x : VrescFields) : Issue :=
  let n := x.nM1.val + 1
  let vs (now : Nat) : List PortUse :=
    [vecUse x.o (now + 1) n false (vKey now), vecUse x.o (now + latRed) n true (vKey now)]
  let bs (k : Core) (now : Nat) : List PortUse := [bankUse x.mv x.arr (drainBank k x.mv x.bank x.arr) (now + 1) n (vKey now)]
  { core := c
    wait := noWait
    fault := fun s =>
      let k := coreAt s c
      let now := nowAt s c
      firstFault c
        [(!vecFits x.r.val n || decide ((if x.mv then 8 else 128) < x.acc.val + n), .shapeMismatch),
         (vConflict k now 0x31#8 (vs now) [] (bs k now), .resourceConflict)]
    effect := fun s =>
      let now := nowAt s c
      modCore s c (fun k =>
        let o := strmOf k (.vresc c x) (vKey now) (now + 1) 1 n
        vStart k 0x31#8 (now + n + 1) (vs now) [] (bs k now)
          { o with banks := BitVec.ofNat 4 (bitNat (drainBank k x.mv x.bank x.arr) * 2 ^ x.arr.val) }) }

/-- The bank row a VRESC reads in the tick of its step (R149). -/
def vrescBankRead (k : Core) (o : Strm) (x : VrescFields) : List (BitVec 32) :=
  bankRow k x.mv x.arr (o.banks.getLsbD x.arr.val) (x.acc.val + o.next)

/-- A VRESC's row, with the bank row in `o.vals` (R163). -/
def vrescStep (k : Core) (o : Strm) (x : VrescFields) (t : Nat) : Core :=
  let r := x.r.val + o.next
  let alpha := (sxRow k x.ctx r).alpha
  let es := rowElems r ((List.range 128).map (fun j =>
    let a := o.vals.getD j 0
    if alpha = 0#32 then canon32 a
    else rne32 (numAdd (valOf (rne32 (numMul (valOf (vecGet k x.o r j)) (valOf alpha)))) (valOf a))))
  pushPend k (vecPend x.o (t - 1 + latRed) o.issued es)

/-- The outcome of a row of a VSMXF: the exact outputs, the log-sum-exp and the flag (spec/07, Table 6). -/
def smxfRow (st : SxRow) (os : List (BitVec 32)) : List Num × BitVec 32 × BitVec 2 :=
  let quot := os.map (fun o => numDiv (valOf o) (valOf st.l))
  if st.nan then (os.map (fun _ => .nan), bNan, 0b01#2)
  else if 0 < st.k then (quot, bInf, 0b10#2)
  else if st.m = bNegInf then (os.map (fun _ => .fin false 0 0), bNegInf, 0b11#2)
  else (quot, rne32 (numAdd (valOf st.m) (fp32 (fpLn (valOf st.l)))), 0b00#2)

/-- VSMXF (R164). -/
def vsmxfIssue (c : CoreId) (x : VsmxfFields) : Issue :=
  let n := x.nM1.val + 1
  let g := groupsOf n
  let vs (k : Core) (now : Nat) : List PortUse :=
    let w := now + latSmxf k.seq.latprof
    [vecUse x.o now g false (vKey now), vecUse x.lse w g true (vKey now)] ++
      (if x.vdst then [vecUse (low3 x.dst.val) w g true (vKey now)] else [])
  let ts (k : Core) (now : Nat) : List PortUse :=
    if x.vdst then [] else [tileUse x.dst.val (now + latSmxf k.seq.latprof) 1 g true (vKey now)]
  { core := c
    wait := noWait
    fault := fun s =>
      let k := coreAt s c
      let now := nowAt s c
      firstFault c
        [(!vecFits x.r.val n ||
            (if x.vdst then !vecFits x.dstRow.val n
             else !tileIs k x.dst.val (fun t f => !f.mx && tileTakes k x.dst.val x.dstRow.val n false && decide (t.cfg.rows ≠ 0))),
          .shapeMismatch),
         (vConflict k now 0x32#8 (vs k now) (ts k now) [], .resourceConflict)]
    effect := fun s =>
      let now := nowAt s c
      modCore s c (fun k =>
        vStart k 0x32#8 (now + g) (vs k now) (ts k now) [] (strmOf k (.vsmxf c x) (vKey now) now 1 g)) }

/-- A VSMXF's row group. -/
def vsmxfStep (k : Core) (o : Strm) (x : VsmxfFields) (t : Nat) : Core :=
  let due := t + latSmxf o.prof
  pushPends k ((groupRows (x.nM1.val + 1) o.next).flatMap (fun i =>
    let r := x.r.val + i
    let z := smxfRow (sxRow k x.ctx r) (vecRow k x.o r)
    let d := x.dstRow.val + i
    let out :=
      if x.vdst then [vecPend (low3 x.dst.val) due o.issued (rowElems d (z.1.map rne32))]
      else
        match tileNo k x.dst.val with
        | none => []
        | some u =>
          match cfgFormat u.cfg with
          | none => []
          | some f => tileRowPends x.dst u.cfg f d due o.issued
              (convertRow f o.cfg.cvtOvf (fun _ => .rne) (z.1.take (cfgElems u.cfg)))
    out ++ [vecPend x.lse due o.issued [(x.q.val * 128 + r, z.2.1)],
            { due := due, issued := o.issued, eff := .sxflag x.ctx r z.2.2 }]))

/-! ### The Scaler -/

/-- A Scaler record with nothing observed. -/
def sclEmpty : SclRec :=
  { absmax := 0, zeros := 0, nans := 0, infs := 0, elements := 0, exps := [], lastWrite := 0 }

/-- VSCLN: the current record closes at the end of the tick (R165). It uses no lanes. -/
def vsclnIssue (c : CoreId) : Issue :=
  { core := c
    wait := noWait
    fault := noFault
    effect := fun s =>
      let now := nowAt s c
      modCore s c (fun k =>
        pushPend k { due := now + 1, issued := vKey now, eff := .sclClose now k.seq.tag k.live.sclEmin }) }

/-- The current record closes (R165): it is to be written 32 ticks after the later of the VSCLN and its last row's write. -/
def sclCloseRec (k : Core) (t : Nat) (tag : BitVec 16) (emin : BitVec 8) : Core :=
  modVec k (fun v =>
    { v with
      sclRec := sclEmpty
      sclClosed := v.sclClosed ++ [{ body := v.sclRec, tag := tag, emin := emin, due := Nat.max t v.sclRec.lastWrite + 32 }] })

/-- The bin of a value whose leading bit has exponent `x` (R166). -/
def sclBin (emin x : Int) : Nat := if x < emin then 0 else if emin + 30 ≤ x then 31 else (x - emin + 1).toNat

/-- The 256 bytes of a record (spec/07, Table 8). -/
def sclBytes (z : SclClosed) : List Byte :=
  let r := z.body
  let cap (n : Nat) : List Byte := leBytes 4 (Nat.min n 0xFFFFFFFF)
  let bin (b : Nat) : Nat :=
    r.exps.foldl (fun a e => if sclBin z.emin.toInt ((e.1 : Int) - 2048) = b then a + e.2 else a) 0
  leBytes 4 r.absmax.toNat ++ cap r.zeros ++ cap r.nans ++ cap r.infs ++ leBytes 8 (Nat.min r.elements (2 ^ 64 - 1)) ++
    leBytes 2 z.tag.toNat ++ [z.emin, 1#8] ++ leBytes 4 0 ++ (List.range 32).flatMap (fun b => cap (bin b)) ++
    List.replicate 96 0#8

/-- A closed record is written into the statistics area, and SCL_STAT moves on (R165). -/
def sclWriteRec (k : Core) (z : SclClosed) : Core :=
  let n := k.live.sclCount.toNat + 1
  let x := k.vec.sclCur.toNat % n
  let cur := (x + 1) % n
  let k1 := { k with store := memWrite k.store (k.live.sclBase.toNat * 256 + x * 256) (sclBytes z) }
  modVec k1 (fun v =>
    { v with
      sclCur := BitVec.ofNat 11 cur
      sclWraps := if cur = 0 then BitVec.ofNat 32 (satAdd 32 v.sclWraps.toNat 1) else v.sclWraps })

/-- Every closed record whose tick has come is written (R165). -/
def sclDue (k : Core) (t : Nat) : Core :=
  let k1 := (k.vec.sclClosed.filter (fun z => decide (z.due ≤ t))).foldl sclWriteRec k
  modVec k1 (fun v => { v with sclClosed := v.sclClosed.filter (fun z => decide (t < z.due)) })

/-- VSMX (R162). -/
def execVsmx (c : CoreId) (x : VsmxFields) (s : State) : Host.Outcome State Fault Refusal :=
  .next (runIssue (vsmxIssue c x) (.vsmx c x) s)

/-- VRESC (R163). -/
def execVresc (c : CoreId) (x : VrescFields) (s : State) : Host.Outcome State Fault Refusal :=
  .next (runIssue (vrescIssue c x) (.vresc c x) s)

/-- VSMXF (R164). -/
def execVsmxf (c : CoreId) (x : VsmxfFields) (s : State) : Host.Outcome State Fault Refusal :=
  .next (runIssue (vsmxfIssue c x) (.vsmxf c x) s)

/-- VSCLN (R165). -/
def execVscln (c : CoreId) (s : State) : Host.Outcome State Fault Refusal :=
  .next (runIssue (vsclnIssue c) (.vscln c) s)

end Sys2Proof.Machine
end

