-- ==== Sys2Proof/Machine/CoreRegs.lean ====
section
/-! DEFINITION. The registers of a core block: reading, the bits software and records may write, writing, clearing
(R92 to R94, R97; register tables of spec/03 to 10, 13 and 14). -/

namespace Sys2Proof.Machine

/-- Registers of a core block, by group; a number is the register's index within its group. -/
inductive CoreReg where
  | seqStat | seqPc | seqStarve | seqInfo | seqJtick | latprof
  | lc (n : Fin 8) | scalar (n : Fin 64)
  | numCtl | numStat | numWaf | seedLo | seedHi | rngStep
  | tcfg (n : Fin 32) | tsrr (n : Fin 32) | tileState
  | jtab (n : Fin 8) | jtabx (n : Fin 8)
  | arrStat (m : Fin 4) | ckctl (m : Fin 4) | ckstat (m : Fin 4) | repair (m : Fin 4)
  | rowMap (m : Fin 4) (i : Fin 128) | colMap (m : Fin 4) (i : Fin 128)
  | mvuCtl | mvuStat | mvuSkip
  | span | flmStat | flmCnt | flmErr
  | vecStat | rngctx (n : Fin 4) | sclCtl | sclStat | sxflag (ctx hi : Bool)
  | wabCtl (w : Bool) | wabStat (w : Bool)
  | sqCfg (q : Fin 16) | sqList (q : Fin 16) | sqBase (q : Fin 16) | sqNext (q : Fin 16) | sqStat (q : Fin 16)
  | sqDpos (q : Fin 16) | sqHead (q : Fin 16)
  | wheel0 | wheel1 | credwd | stall | bqStat (b : Fin 8) | bqHead (b : Fin 8)
  | chCfg (e : Fin 32) | chRing (e : Fin 32) | chStat (e : Fin 32) | chFlag (e : Fin 32) | chHead (e : Fin 32) (j : Fin 4)
  | chDiscards | chCmd
  | kCfg (q : Fin 8) | kStat (q : Fin 8) | kHead (q : Fin 8) (j : Fin 4)
  | xrRing | xrStat | xcomp | xflag (f : Fin 8)
  | bundleWord (b : Fin 4096) (j : Fin 4)
  deriving DecidableEq, Repr

/-- Index of a register in a group of `n` registers spaced by `gap` bytes from `base`. -/
def regIndex (off base gap n : Nat) : Option (Fin n) :=
  if base ≤ off ∧ (off - base) % gap = 0 then
    (if h : (off - base) / gap < n then some ⟨(off - base) / gap, h⟩ else none)
  else none

/-- The first answer of a list of tries. -/
def firstSome {α : Type} : List (Option α) → Option α
  | [] => none
  | some a :: _ => some a
  | none :: r => firstSome r

/-- The register of array block `m` at an offset within the block (spec/05, Tables 7 to 11). -/
def arrRegAt (m : Fin 4) (o : Nat) : Option CoreReg :=
  match o with
  | 0x000 => some (.arrStat m)
  | 0x008 => some (.ckctl m)
  | 0x010 => some (.ckstat m)
  | 0x018 => some (.repair m)
  | _ => firstSome [(regIndex o 0x400 8 128).map (.rowMap m), (regIndex o 0x800 8 128).map (.colMap m)]

/-- The register of a stream queue at an offset within its 0x40 bytes (spec/09, Tables 7 to 9). -/
def sqRegAt (q : Fin 16) (o : Nat) : Option CoreReg :=
  match o with
  | 0x00 => some (.sqCfg q)
  | 0x08 => some (.sqList q)
  | 0x10 => some (.sqBase q)
  | 0x18 => some (.sqNext q)
  | 0x20 => some (.sqStat q)
  | 0x28 => some (.sqDpos q)
  | 0x30 => some (.sqHead q)
  | _ => none

/-- The register of an endpoint at an offset within its 0x40 bytes (spec/10, Tables 7 and 8). -/
def chRegAt (e : Fin 32) (o : Nat) : Option CoreReg :=
  match o with
  | 0x00 => some (.chCfg e)
  | 0x08 => some (.chRing e)
  | 0x10 => some (.chStat e)
  | 0x18 => some (.chFlag e)
  | _ => (regIndex o 0x20 8 4).map (.chHead e)

/-- The register of a combining queue at an offset within its 0x40 bytes (spec/10, Table 10). -/
def kRegAt (q : Fin 8) (o : Nat) : Option CoreReg :=
  match o with
  | 0x00 => some (.kCfg q)
  | 0x08 => some (.kStat q)
  | _ => (regIndex o 0x10 8 4).map (.kHead q)

/-- The register at a byte offset of a core block, a multiple of 8; none where no register lies. -/
def coreRegAt (off : Nat) : Option CoreReg :=
  if off % 8 ≠ 0 then none
  else if 0x20000 ≤ off then
    (if h : (off - 0x20000) / 32 < 4096 then
      some (.bundleWord ⟨(off - 0x20000) / 32, h⟩ ⟨(off - 0x20000) % 32 / 8 % 4, Nat.mod_lt _ (by decide)⟩)
    else none)
  else if 0x1000 ≤ off ∧ off < 0x5000 then
    arrRegAt ⟨(off / 0x1000 - 1) % 4, Nat.mod_lt _ (by decide)⟩ (off % 0x1000)
  else if 0x9000 ≤ off ∧ off < 0x9400 then
    sqRegAt ⟨(off - 0x9000) / 0x40 % 16, Nat.mod_lt _ (by decide)⟩ (off % 0x40)
  else if 0xA000 ≤ off ∧ off < 0xA800 then
    chRegAt ⟨(off - 0xA000) / 0x40 % 32, Nat.mod_lt _ (by decide)⟩ (off % 0x40)
  else if 0xAA00 ≤ off ∧ off < 0xAC00 then
    kRegAt ⟨(off - 0xAA00) / 0x40 % 8, Nat.mod_lt _ (by decide)⟩ (off % 0x40)
  else
    match off with
    | 0x000 => some .seqStat
    | 0x008 => some .seqPc
    | 0x010 => some .seqStarve
    | 0x018 => some .seqInfo
    | 0x020 => some .seqJtick
    | 0x0F8 => some .latprof
    | 0x300 => some .numCtl
    | 0x308 => some .numStat
    | 0x310 => some .numWaf
    | 0x318 => some .seedLo
    | 0x320 => some .seedHi
    | 0x328 => some .rngStep
    | 0x600 => some .tileState
    | 0x5000 => some .mvuCtl
    | 0x5008 => some .mvuStat
    | 0x5010 => some .mvuSkip
    | 0x6000 => some .span
    | 0x6008 => some .flmStat
    | 0x6010 => some .flmCnt
    | 0x6018 => some .flmErr
    | 0x7000 => some .vecStat
    | 0x7040 => some .sclCtl
    | 0x7048 => some .sclStat
    | 0x7080 => some (.sxflag false false)
    | 0x7088 => some (.sxflag false true)
    | 0x7090 => some (.sxflag true false)
    | 0x7098 => some (.sxflag true true)
    | 0x8000 => some (.wabCtl false)
    | 0x8008 => some (.wabCtl true)
    | 0x8010 => some (.wabStat false)
    | 0x8018 => some (.wabStat true)
    | 0x9400 => some .wheel0
    | 0x9408 => some .wheel1
    | 0x9410 => some .credwd
    | 0x9418 => some .stall
    | 0xA800 => some .chDiscards
    | 0xA808 => some .chCmd
    | 0xB000 => some .xrRing
    | 0xB008 => some .xrStat
    | 0xB010 => some .xcomp
    | _ => firstSome
        [(regIndex off 0x040 8 8).map .lc, (regIndex off 0x100 8 64).map .scalar, (regIndex off 0x400 8 32).map .tcfg,
         (regIndex off 0x500 8 32).map .tsrr, (regIndex off 0x680 8 8).map .jtab, (regIndex off 0x6C0 8 8).map .jtabx,
         (regIndex off 0x7010 8 4).map .rngctx, (regIndex off 0x9480 16 8).map .bqStat,
         (regIndex off 0x9488 16 8).map .bqHead, (regIndex off 0xB040 8 8).map .xflag]

/-- Ones in bits `[lo + w - 1 : lo]`. -/
def onesAt (lo w : Nat) : Nat := (2 ^ w - 1) * 2 ^ lo

/-- The bits of a register marked RW, and WO in a register that has RW fields: those a record may set (R93). 0 for a register
without RW fields. -/
def coreRwMask : CoreReg → Nat
  | .scalar _ => onesAt 0 64
  | .numCtl => 1
  | .seedLo | .seedHi => onesAt 0 64
  | .rngStep => onesAt 0 40
  | .tcfg _ => onesAt 0 19
  | .tsrr _ => onesAt 0 9
  | .jtab _ => onesAt 0 64
  | .jtabx _ => onesAt 0 48
  | .ckctl _ => onesAt 0 7
  | .mvuCtl => onesAt 0 5
  | .rngctx _ => onesAt 0 30
  | .sclCtl => onesAt 0 15 + onesAt 16 11 + onesAt 32 8
  | .wabCtl _ => 1 + onesAt 2 11
  | .sqCfg _ => onesAt 0 41
  | .sqList _ => onesAt 0 18 + onesAt 32 18
  | .sqBase _ | .sqNext _ => onesAt 0 48
  | .wheel0 | .wheel1 => onesAt 0 64
  | .credwd => onesAt 0 32
  | .chCfg _ => onesAt 0 29
  | .chRing _ | .xrRing => onesAt 0 18 + onesAt 32 10
  | .kCfg _ => onesAt 0 6 + onesAt 8 18 + onesAt 32 16
  | .latprof => onesAt 0 3
  | .bundleWord _ _ => onesAt 0 64
  | _ => 0

/-- May a record write this register: an RW register of the core block other than SEQ_LATPROF and the schedule store (R93). -/
def recordMay (r : CoreReg) : Bool :=
  match r with
  | .latprof => false
  | .bundleWord _ _ => false
  | _ => coreRwMask r != 0

/-! ### Reading -/

/-- The state code of a sequencer (spec/04, Table 7). -/
def runCode : CoreRun → Nat
  | .idle => 0
  | .running => 1
  | .stopped => 2
  | .fenced => 3

/-- The code of a weight storage (spec/05, Table 7). -/
def weightCode : WKind → Nat
  | .empty => 0
  | .dense => 1
  | .s24 => 2
  | .s28 => 3

/-- The physical line of logical line `k`: failed lines are skipped (R121). -/
def physLine (m : LineMap) (k : Nat) : Nat :=
  let bad := (List.range 130).filter (fun p => m.badA.toNat == p || m.badB.toNat == p)
  ((List.range 130).filter (fun p => !bad.contains p)).getD k 129

/-- Failed lines of a map. -/
def badLines (m : LineMap) : Nat := bitNat (m.badA != 0xFF#8) + bitNat (m.badB != 0xFF#8)

/-- A map register: PHYS, FEED and DRAIN (R121). -/
def mapReg (m : LineMap) (k : Nat) : Nat :=
  let p := physLine m k
  packFields [(0, p), (8, p), (16, 2 - (p - k))]

/-- A tile's configuration register. -/
def tcfgReg (c : TileCfg) : Nat :=
  packFields [(0, c.rows.toNat), (8, c.rowb.toNat), (13, c.fmt.toNat), (18, bitNat c.axis)]

/-- A flag of the softmax flag registers. -/
def sxflagReg (m : List (Nat × BitVec 2)) (hi : Bool) : Nat :=
  packFields ((List.range 32).map (fun i => (2 * i, (cellGet 0#2 m (if hi then 32 + i else i)).toNat)))

/-- Word `j` of four words. -/
def descWord (d : Desc) (j : Fin 4) : Nat :=
  match j with
  | 0 => d.word0.toNat
  | 1 => d.word1.toNat
  | 2 => d.word2.toNat
  | 3 => d.word3.toNat

/-- Is the wide engine present: not on the XKN-8848-G (R3, R176, R388). -/
def hasWide (s : State) : Bool := s.part != 0x30#8

/-- The value of a register of a core (the register tables of spec/03 to 10, 13 and 14). -/
def coreRegRead (s : State) (c : CoreId) (r : CoreReg) : Nat :=
  let k := coreAt s c
  let q := k.seq
  let now := unitNow s c
  let period := periodAt s c
  match r with
  | .seqStat => packFields [(0, runCode q.run), (16, q.tag.toNat), (32, q.runq.length)]
  | .seqPc => packFields [(0, q.lastBundle.toNat), (32, q.ltick.toNat)]
  | .seqStarve => q.starve.toNat
  | .seqInfo => packFields [(0, 0x1000), (16, 0x40), (24, 8)]
  | .seqJtick => q.jtick.toNat
  | .latprof => q.latprof.toNat
  | .lc n =>
    let l := q.loops.get n
    packFields [(0, l.iter.toNat), (24, l.count.toNat), (48, bitNat l.active)]
  | .scalar n => (sreg k n).toNat
  | .numCtl => bitNat k.reg.cvtOvf
  | .numStat => packFields [(0, k.satCount.toNat), (32, k.nanZero.toNat)]
  | .numWaf => packFields [(0, k.wafOvf.toNat), (32, k.wafNan.toNat)]
  | .seedLo => fieldOf k.reg.seed.toNat 0 64
  | .seedHi => fieldOf k.reg.seed.toNat 64 64
  | .rngStep => k.reg.step.toNat
  | .tcfg n => tcfgReg (tileOf k n).cfg
  | .tsrr n => packFields [(0, (tileOf k n).nextRow.toNat), (8, bitNat (tileOf k n).pending)]
  | .tileState => packFields ((List.finRange 32).map (fun n => (n.val, bitNat (tileOf k n).empty)))
  | .jtab n =>
    let j := q.juncs.get n
    packFields [(0, j.join.toNat), (12, j.nvar.toNat), (16, (j.vars.get 0).toNat), (28, (j.vars.get 1).toNat),
      (40, (j.vars.get 2).toNat), (52, (j.vars.get 3).toNat)]
  | .jtabx n =>
    let j := q.juncs.get n
    packFields [(0, (j.vars.get 4).toNat), (12, (j.vars.get 5).toNat), (24, (j.vars.get 6).toNat), (36, (j.vars.get 7).toNat)]
  | .arrStat m =>
    let a := arrOf k m
    packFields [(0, bitNat a.fill), (1, weightCode a.active.kind), (3, weightCode a.shadow.kind), (5, bitNat a.acc0.int),
      (6, bitNat a.acc1.int), (7, bitNat (decide (now < a.feedUntil))), (8, a.active.fmt.toNat), (13, bitNat a.active.axisCols)]
  | .ckctl m =>
    let x := k.reg.ckctl.get m
    packFields [(0, bitNat x.enW), (1, bitNat x.enN), (2, x.tol.toNat)]
  | .ckstat m =>
    let a := arrOf k m
    packFields [(0, a.ckChecked.toNat), (32, a.ckRow.toNat), (39, bitNat a.ckBank), (40, bitNat a.ckMismatch)]
  | .repair m =>
    let a := arrOf k m
    packFields [(0, a.rowMap.badA.toNat), (8, a.rowMap.badB.toNat), (16, a.colMap.badA.toNat), (24, a.colMap.badB.toNat),
      (32, 2 - badLines a.rowMap), (34, 2 - badLines a.colMap)]
  | .rowMap m i => mapReg (arrOf k m).rowMap i.val
  | .colMap m i => mapReg (arrOf k m).colMap i.val
  | .mvuCtl => k.reg.wfmt.toNat
  | .mvuStat =>
    packFields [(0, bitNat (decide (now < k.mvu.feedUntil))), (1, k.mvu.bufFmt.toNat), (6, bitNat k.mvu.bank0.int),
      (7, bitNat k.mvu.bank1.int)]
  | .mvuSkip => k.mvu.skip.toNat
  | .span => packFields [(0, k.spanCw.toNat), (8, k.spanCcw.toNat)]
  | .flmStat =>
    let f (o : Option Flit) (g : Flit → Nat) : Nat := match o with | some x => g x | none => 0
    packFields [(0, bitNat (fsendBusy k .cw)), (1, bitNat (fsendBusy k .ccw)),
      (2, f k.ringCw (fun _ => 1)), (3, f k.ringCw (fun x => x.ttl.toNat)), (10, f k.ringCw (fun x => x.tag.toNat)),
      (18, f k.ringCcw (fun _ => 1)), (19, f k.ringCcw (fun x => x.ttl.toNat)), (26, f k.ringCcw (fun x => x.tag.toNat))]
  | .flmCnt => packFields [(0, k.flmSent.toNat), (32, k.flmCaptured.toNat)]
  | .flmErr => packFields [(0, bitNat k.flmCrcErr), (1, bitNat k.flmCollision), (2, bitNat k.flmDir), (32, k.flmTick.toNat)]
  | .vecStat =>
    let held := decide (now < k.vec.pipeUntil)
    packFields [(0, bitNat held), (8, if held then k.vec.opcode.toNat else 0)]
  | .rngctx n => packFields [(0, (k.reg.rngctx.get n).stream.toNat), (24, (k.reg.rngctx.get n).idx.val)]
  | .sclCtl => packFields [(0, k.reg.sclBase.toNat), (16, k.reg.sclCount.toNat), (32, k.reg.sclEmin.toNat)]
  | .sclStat => packFields [(0, k.vec.sclCur.toNat), (11, bitNat (!k.vec.sclClosed.isEmpty)), (32, k.vec.sclWraps.toNat)]
  | .sxflag ctx hi => sxflagReg (if ctx then k.vec.sxflag1 else k.vec.sxflag0) hi
  | .wabCtl w => if hasWide s then packFields [(0, bitNat (wideOf k w).mode), (2, (wideOf k w).anchor.toNat)] else 0
  | .wabStat w =>
    if hasWide s then
      packFields [(0, bitNat (wideOf k w).nan), (1, bitNat (wideOf k w).ovf), (16, (wideOf k w).adds.toNat)]
    else 0
  | .sqCfg n =>
    let x := qOf k n
    packFields [(0, x.esize.toNat), (9, x.qbase.toNat), (27, x.limit.toNat), (39, bitNat x.write), (40, bitNat x.persist)]
  | .sqList n => packFields [(0, (qOf k n).lbase.toNat), (32, (qOf k n).llen.toNat)]
  | .sqBase n => (qOf k n).base.toNat
  | .sqNext n => packFields [(0, (qOf k n).next.toNat), (63, bitNat (qOf k n).staged)]
  | .sqStat n =>
    let x := qOf k n
    packFields [(0, qReadable x period), (7, x.entries.length - qReadable x period), (14, qOutstanding x),
      (26, bitNat x.cblocked), (32, match x.entries with | e :: _ => e.tag.toNat | [] => 0)]
  | .sqDpos n => packFields [(0, (qOf k n).released.toNat), (24, (qOf k n).started.toNat)]
  | .sqHead n => if qReadable (qOf k n) period = 0 then 0 else leNat (qHeadBytes k n 8)
  | .wheel0 => k.skd.wheel0.toNat
  | .wheel1 => k.skd.wheel1.toNat
  | .credwd => k.skd.credwd.toNat
  | .stall =>
    let x := k.skd.stall
    packFields [(0, x.queue.toNat), (4, x.waited.toNat), (8, x.kind.toNat), (32, x.period.toNat)]
  | .bqStat b => (boomOf k b).length
  | .bqHead b => match boomOf k b with | h :: _ => h.toNat | [] => 0
  | .chCfg e => (epOf k e).word.toNat
  | .chRing e => packFields [(0, (epOf k e).rbase.toNat), (32, (epOf k e).rlen.toNat)]
  | .chStat e =>
    let x := epOf k e
    let waits := (regionAt s (regionOf c)).waits.any (fun h => decide (h.core = some c ∧ h.detail0.toNat = 0x100 + e.val))
    packFields [(0, bitNat x.isOpen), (1, bitNat (x.isOpen && chRecv x.word)), (2, x.credits.toNat), (9, x.occ.toNat),
      (16, x.gen.toNat), (20, bitNat x.peerClosed), (21, bitNat waits), (32, x.pos.toNat)]
  | .chFlag e => (epOf k e).flag.toNat
  | .chHead e j => match (epOf k e).held with | d :: _ => descWord d j | [] => 0
  | .chDiscards => k.chDiscards.toNat
  | .chCmd => 0
  | .kCfg n =>
    let x := combOf k n
    packFields [(0, bitNat x.mode), (1, bitNat x.wt), (2, x.sq.val), (8, x.abase.toNat), (32, x.awords.toNat)]
  | .kStat n =>
    let x := combOf k n
    packFields [(0, x.entries.length), (5, bitNat x.busy), (8, x.done.toNat)]
  | .kHead n j => match (combOf k n).entries with | e :: _ => descWord e.words j | [] => 0
  | .xrRing => packFields [(0, k.xrBase.toNat), (32, k.xrLen.toNat)]
  | .xrStat => packFields [(0, k.xrPos.toNat), (10, Nat.min (k.links.filter (fun l => !l.acked)).length 64)]
  | .xcomp => k.xcomp.toNat
  | .xflag f => (k.xflags.get f).toNat
  | .bundleWord b j => fieldOf (cellGet 0#256 q.store b.val).toNat (64 * j.val) 64

/-! ### Writing -/

/-- A core with its layer configuration registers changed. -/
def modReg (k : Core) (f : LayerCfg → LayerCfg) : Core := { k with reg := f k.reg }

/-- The junction table entry with fields 0 to 3 and NVAR, or 4 to 7, replaced. -/
def juncWrite (j : Junction) (x : Bool) (v : Nat) : Junction :=
  let f (lo : Nat) : BitVec 12 := BitVec.ofNat 12 (fieldOf v lo 12)
  if x then
    { j with vars := (((j.vars.set 4 (f 0)).set 5 (f 12)).set 6 (f 24)).set 7 (f 36) }
  else
    { join := f 0, nvar := BitVec.ofNat 4 (fieldOf v 12 4)
      vars := (((j.vars.set 0 (f 16)).set 1 (f 28)).set 2 (f 40)).set 3 (f 52) }

/-- The registers of a core after the RW fields of one take the value `v` (R10, R94). -/
def coreRegSet (k : Core) (wide : Bool) (r : CoreReg) (v : Nat) : Core :=
  match r with
  | .scalar n => setSreg k n (BitVec.ofNat 64 v)
  | .numCtl => modReg k (fun g => { g with cvtOvf := bitOf v 0 })
  | .seedLo => modReg k (fun g => { g with seed := BitVec.ofNat 128 (g.seed.toNat / 2 ^ 64 * 2 ^ 64 + v % 2 ^ 64) })
  | .seedHi => modReg k (fun g => { g with seed := BitVec.ofNat 128 (g.seed.toNat % 2 ^ 64 + v % 2 ^ 64 * 2 ^ 64) })
  | .rngStep => modReg k (fun g => { g with step := BitVec.ofNat 40 v })
  | .tcfg n =>
    modTile k n (fun t => tileConfigure t
      (tcfgOf (BitVec.ofNat 8 v) (BitVec.ofNat 5 (fieldOf v 8 5)) (BitVec.ofNat 5 (fieldOf v 13 5)) (bitOf v 18)))
  | .tsrr n => modTile k n (fun t => { t with nextRow := BitVec.ofNat 8 v, pending := bitOf v 8 })
  | .jtab n => { k with seq := { k.seq with juncs := k.seq.juncs.set n.val (juncWrite (k.seq.juncs.get n) false v) n.isLt } }
  | .jtabx n => { k with seq := { k.seq with juncs := k.seq.juncs.set n.val (juncWrite (k.seq.juncs.get n) true v) n.isLt } }
  | .ckctl m =>
    modReg k (fun g =>
      let x : CkCtl := { enW := bitOf v 0, enN := bitOf v 1, tol := BitVec.ofNat 5 (fieldOf v 2 5) }
      { g with ckctl := g.ckctl.set m.val x m.isLt })
  | .mvuCtl => modReg k (fun g => { g with wfmt := BitVec.ofNat 5 v })
  | .rngctx n =>
    modReg k (fun g =>
      let x : RngCtx := { stream := BitVec.ofNat 24 v, idx := finField v 24 6 }
      { g with rngctx := g.rngctx.set n.val x n.isLt })
  | .sclCtl =>
    modReg k (fun g => { g with sclBase := BitVec.ofNat 15 v, sclCount := BitVec.ofNat 11 (fieldOf v 16 11),
                                sclEmin := BitVec.ofNat 8 (fieldOf v 32 8) })
  | .wabCtl w => if wide then modWide k w (fun t => wabWrite t v) else k
  | .sqCfg n =>
    modQ k n (fun q => { q with esize := BitVec.ofNat 9 v, qbase := BitVec.ofNat 18 (fieldOf v 9 18),
                                limit := BitVec.ofNat 12 (fieldOf v 27 12), write := bitOf v 39, persist := bitOf v 40 })
  | .sqList n => modQ k n (fun q => { q with lbase := BitVec.ofNat 18 v, llen := BitVec.ofNat 18 (fieldOf v 32 18) })
  | .sqBase n => modQ k n (fun q => { q with base := BitVec.ofNat 48 v })
  | .wheel0 => { k with skd := { k.skd with wheel0 := BitVec.ofNat 64 v } }
  | .wheel1 => { k with skd := { k.skd with wheel1 := BitVec.ofNat 64 v } }
  | .credwd => { k with skd := { k.skd with credwd := BitVec.ofNat 32 v } }
  | .chCfg e => modEp k e (fun x => { x with word := BitVec.ofNat 29 v })
  | .chRing e => modEp k e (fun x => { x with rbase := BitVec.ofNat 18 v, rlen := BitVec.ofNat 10 (fieldOf v 32 10) })
  | .kCfg n =>
    modComb k n (fun x => { x with mode := bitOf v 0, wt := bitOf v 1, sq := finField v 2 4,
                                   abase := BitVec.ofNat 18 (fieldOf v 8 18), awords := BitVec.ofNat 16 (fieldOf v 32 16) })
  | .xrRing => { k with xrBase := BitVec.ofNat 18 v, xrLen := BitVec.ofNat 10 (fieldOf v 32 10) }
  | .latprof => { k with seq := { k.seq with latprof := BitVec.ofNat 3 v } }
  | .bundleWord b j =>
    let old := (cellGet 0#256 k.seq.store b.val).toNat
    let lo := 64 * j.val
    let new := old - fieldOf old lo 64 * 2 ^ lo + v % 2 ^ 64 * 2 ^ lo
    { k with seq := { k.seq with store := cellSet 0#256 k.seq.store b.val (BitVec.ofNat 256 new) } }
  | .seqStat | .seqPc | .seqStarve | .seqInfo | .seqJtick | .lc _ | .numStat | .numWaf | .tileState | .arrStat _ | .ckstat _
  | .repair _ | .rowMap _ _ | .colMap _ _ | .mvuStat | .mvuSkip | .span | .flmStat | .flmCnt | .flmErr | .vecStat | .sclStat
  | .sxflag _ _ | .wabStat _ | .sqNext _ | .sqStat _ | .sqDpos _ | .sqHead _ | .stall | .bqStat _ | .bqHead _ | .chStat _
  | .chFlag _ | .chHead _ _ | .chDiscards | .chCmd | .kStat _ | .kHead _ _ | .xrStat | .xcomp | .xflag _ => k

/-- A write of a wheel register by a record at period `p`: it is in force from the next period (R189). -/
def wheelWrite (k : Core) (p : Nat) : Core :=
  match k.skd.wheelSince with
  | some since =>
    if since.toNat ≤ p then
      { k with skd := { k.skd with wheelLive0 := k.skd.wheel0, wheelLive1 := k.skd.wheel1,
                                   wheelSince := some (BitVec.ofNat 64 (p + 1)) } }
    else k
  | none =>
    { k with skd := { k.skd with wheelLive0 := k.skd.wheel0, wheelLive1 := k.skd.wheel1,
                                 wheelSince := some (BitVec.ofNat 64 (p + 1)) } }

/-- One write of a record (R94). -/
def recordWrite (s : State) (c : CoreId) (k : Core) (w : Nat × Word) : Core :=
  match coreRegAt w.1 with
  | none => k
  | some r =>
    let p := periodAt s c
    let k1 := match r with | .wheel0 => wheelWrite k p | .wheel1 => wheelWrite k p | _ => k
    coreRegSet k1 (hasWide s) r w.2.toNat

/-- Does a core run a job in the sense of R97, R83 and R172: one that runs, is stopped or is being fenced. -/
def coreBusy (k : Core) : Bool := k.seq.job.isSome

/-- Registers whose direct write while a layer runs is accepted and governs later layers (R65, R76, R94; spec/05, spec/07). -/
def softLive (r : CoreReg) : Bool :=
  match r with
  | .numCtl | .seedLo | .seedHi | .rngStep | .ckctl _ | .mvuCtl | .rngctx _ | .sclCtl => true
  | _ => false

/-- Is a core stopped, or its part of a STOPPED job over (R285). -/
def coreHalted (s : State) (c : CoreId) : Bool :=
  (coreAt s c).seq.run == .stopped || (match jobOf s c with | some j => (jobAt s j).state == .stopped | none => false)

/-- A software write of a whole register, with the W1C bits that `v` clears (R10, R97, R285). On an idle core the values that R98 and
R8 bar from records and instructions are taken as written: those rules name no check of a software write (DESIGN CHOICE, log entry
106). -/
def coreSoftWrite (c : CoreId) (r : CoreReg) (v : Nat) (s : State) : State :=
  let k := coreAt s c
  if coreHalted s c then s
  else
    match r with
    | .ckstat m => if bitOf v 40 then modCore s c (fun k => modArr k m (fun a => { a with ckMismatch := false })) else s
    | .flmErr =>
      modCore s c (fun k => { k with flmCrcErr := k.flmCrcErr && !bitOf v 0, flmCollision := k.flmCollision && !bitOf v 1 })
    | _ =>
      if coreBusy k && !softLive r then s else modCore s c (fun k => coreRegSet k (hasWide s) r v)

/-- Registers with a field that a read clears. -/
def coreIsRc (r : CoreReg) : Bool :=
  match r with
  | .seqStarve | .numStat | .numWaf | .mvuSkip | .chDiscards => true
  | _ => false

/-- A core after a read of a register: RC fields become 0 (R66). -/
def coreClearRc (k : Core) (r : CoreReg) : Core :=
  match r with
  | .seqStarve => { k with seq := { k.seq with starve := 0 } }
  | .numStat => { k with satCount := 0, nanZero := 0 }
  | .numWaf => { k with wafOvf := 0, wafNan := 0 }
  | .mvuSkip => { k with mvu := { k.mvu with skip := 0 } }
  | .chDiscards => { k with chDiscards := 0 }
  | _ => k

end Sys2Proof.Machine
end

