-- ==== Sys2Proof/Machine/Layers.lean ====
section
/-! DEFINITION. Configuration records and layers: the checks at a START, its effects, the run-ahead queue and the end of a
core's part (R91 to R97, R202, R203, R390). -/

namespace Sys2Proof.Machine

/-! ### The checks of R390 -/

/-- The registers a record writes, with their values, in record order. -/
def recordWrites (rec_ : CfgRecord) : List (CoreReg × Nat) :=
  rec_.writes.filterMap (fun w => (coreRegAt w.1).map (fun r => (r, w.2.toNat)))

/-- Does a record write a stream queue's SQ_CFG or SQ_LIST with a value other than the one in force (R202, R203). -/
def queueChanged (s : State) (c : CoreId) (ws : List (CoreReg × Nat)) (q : Fin 16) : Bool :=
  ws.any (fun w =>
    match w.1 with
    | .sqCfg n => decide (n = q) && w.2 % 2 ^ 41 != coreRegRead s c (.sqCfg q)
    | .sqList n => decide (n = q) && w.2 != coreRegRead s c (.sqList q)
    | _ => false)

/-- Does a record's TCFG write break R98 or R99: an invalid configuration, or a change of a tile that an operation issued
earlier still uses. -/
def tcfgBad (k : Core) (now : Nat) (w : CoreReg × Nat) : Bool :=
  match w.1 with
  | .tcfg n =>
    let cfg := tcfgOf (BitVec.ofNat 8 w.2) (BitVec.ofNat 5 (fieldOf w.2 8 5)) (BitVec.ofNat 5 (fieldOf w.2 13 5)) (bitOf w.2 18)
    !cfgValid cfg || (decide (cfg ≠ (tileOf k n).cfg) &&
      k.tileUse.any (fun u => u.unit == n.val && decide (0 < u.count) && decide (now ≤ lastUse u)))
  | _ => false

/-- Checksum mode without a free spare line (R126). -/
def checksumBad (k : Core) : Bool :=
  (List.finRange 4).any (fun m =>
    let x := k.reg.ckctl.get m
    let a := arrOf k m
    (x.enW && decide (2 ≤ badLines a.colMap)) || (x.enN && decide (2 ≤ badLines a.rowMap)))

/-- A clearing load of a wide tile that an earlier operation still uses (R172). -/
def wideLoadBad (k : Core) (now : Nat) (w : CoreReg × Nat) : Bool :=
  match w.1 with
  | .wabCtl t => wabClears (wideOf k t) w.2 && wideBusy k t now
  | _ => false

/-- A combining queue in wide mode on a wide tile that is no combining-queue space (R175). -/
def combModeBad (k : Core) : Bool :=
  (List.finRange 8).any (fun q => (combOf k q).mode && !(wideOf k (combOf k q).wt).mode)

/-- A write that R202 or R220 forbids at this START. -/
def frozenBad (s : State) (c : CoreId) (first : Bool) (ws : List (CoreReg × Nat)) : Bool :=
  let k := coreAt s c
  ws.any (fun w =>
    match w.1 with
    | .sqCfg q => !first && queueChanged s c ws q
    | .sqList q => !first && queueChanged s c ws q
    | .kCfg q => !first && decide (w.2 ≠ coreRegRead s c (.kCfg q))
    | .sqBase q => (qOf k q).persist && decide (BitVec.ofNat 48 w.2 ≠ (qOf k q).base) && !(first && queueChanged s c ws q)
    | _ => false)

/-- Something past the end of the local store: queue storage, descriptor rings, the statistics area, the link ring (R167, R180;
spec/09 Table 8, spec/14 Table 9). -/
def storageBad (k : Core) : Bool :=
  (List.finRange 16).any (fun q => decide (storeSize < (qOf k q).qbase.toNat * 32 + 64 * qEntry (qOf k q))) ||
    (List.finRange 16).any (fun q => decide (storeSize < (qOf k q).lbase.toNat * 32 + (qOf k q).llen.toNat * 32)) ||
    decide (storeSize < k.reg.sclBase.toNat * 256 + (k.reg.sclCount.toNat + 1) * 256) ||
    decide (storeSize < k.xrBase.toNat * 32 + k.xrLen.toNat * 32)

/-- The core as a record leaves it (R94). -/
def recordApply (s : State) (c : CoreId) (k : Core) (rec_ : CfgRecord) : Core := rec_.writes.foldl (recordWrite s c) k

/-- The first failure of the START checks, in the order of R390. -/
def startCheck (s : State) (c : CoreId) (first : Bool) (rec_ : CfgRecord) : Option Status :=
  let k := coreAt s c
  let now := nowAt s c
  let ws := recordWrites rec_
  let k1 := recordApply s c k rec_
  if ws.any (tcfgBad k now) then some .tileConfig
  else if checksumBad k1 || ws.any (wideLoadBad k now) || combModeBad k1 || frozenBad s c first ws then some .resourceConflict
  else if 2048 < (List.finRange 16).foldl (fun a q => a + qLimit (qOf k1 q)) 0 then some .badParam
  else if storageBad k1 then some .bounds
  else none

/-! ### The effects of a START -/

/-- An array as a job's first START leaves it (R115). -/
def arrFresh (a : Arr) : Arr :=
  { a with fill := false, active := emptyWeights, shadow := emptyWeights
           acc0 := { a.acc0 with int := false, elems := storeOf (clearElem false), ck := [] }
           acc1 := { a.acc1 with int := false, elems := storeOf (clearElem false), ck := [] } }

/-- A stream queue at a job's first START: a queue that the first record configures afresh is reset, and the count of started
descriptors begins again (R203; spec/09, Table 9). -/
def queueFresh (s : State) (c : CoreId) (ws : List (CoreReg × Nat)) (q : Fin 16) (x : StreamQ) : StreamQ :=
  { (if queueChanged s c ws q then qReset x else x) with started := 0 }

/-- A core as a job's first START leaves it, before the record's writes (R115, R145, R161, R171, R199, R203, R220, R313). -/
def coreFresh (s : State) (c : CoreId) (ws : List (CoreReg × Nat)) (k : Core) : Core :=
  let k1 := (List.finRange 16).foldl (fun k q => modQ k q (queueFresh s c ws q)) k
  let k2 := (List.finRange 4).foldl (fun k m => modArr k m arrFresh) k1
  let k3 := (List.finRange 8).foldl (fun k q => modComb k q (fun x => { x with entries := [], busy := false, done := 0 })) k2
  { k3 with
    vec := { k3.vec with regs := Vector.replicate 8 [], sx0 := storeOf sxInit, sx1 := storeOf sxInit, sclCur := 0 }
    mvu :=
      let z (b : AccBank) : AccBank := { b with int := false, elems := storeOf (clearElem false), ck := [] }
      { k3.mvu with bank0 := z k3.mvu.bank0, bank1 := z k3.mvu.bank1, work0 := z k3.mvu.work0, work1 := z k3.mvu.work1 }
    wide := vmap (fun t : WideTile => { t with nan := false, ovf := false, adds := 0, elems := [] }) k3.wide
    skd := { k3.skd with boom := Vector.replicate 8 [] }
    xcomp := 0, xflags := Vector.replicate 8 0, overflow := false }

/-- The spans of a member core's position (R137). -/
def writeSpans (s : State) (c : CoreId) : State :=
  match (coreAt s c).seq.job with
  | none => modCore s c (fun k => { k with spanCw := 0, spanCcw := 0 })
  | some j =>
    let cw := BitVec.ofNat 7 (spanOf s j c .cw)
    let ccw := BitVec.ofNat 7 (spanOf s j c .ccw)
    modCore s c (fun k => { k with spanCw := cw, spanCcw := ccw })

/-- A START takes effect with a record that passed its checks: the writes, the values in force, and layer tick 0 (R91, R94). -/
def startApply (c : CoreId) (rec_ : CfgRecord) (s : State) : State :=
  let first := (coreAt s c).seq.firstStart
  let ws := recordWrites rec_
  let s1 := if first then modCore (writeSpans (closeAll c s) c) c (coreFresh s c ws) else s
  modCore s1 c (fun k =>
    let k1 := recordApply s c k rec_
    { k1 with
      live := k1.reg
      seq := { k1.seq with
        tag := rec_.tag, ltick := 0, entry := rec_.entry, entryDue := true, finalLayer := rec_.final, awaiting := false,
        startDue := none, firstStart := false, fresh := true, jfresh := first, runq := k1.seq.runq.drop 1
        starve := k1.seq.starve, jtick := if first then 0 else k1.seq.jtick } })

/-- Is a START due on a core: a record waits, and its tick has come (R91, R95). -/
def startIsDue (s : State) (c : CoreId) : Bool :=
  let q := (coreAt s c).seq
  q.run == .running && q.awaiting && !q.runq.isEmpty &&
    (match q.startDue with | some t => decide (t.toNat ≤ nowAt s c) | none => false)

/-- LAYER_START: the oldest record of the run-ahead queue takes effect, or its START fails and fences the job (R94, R390). A
fault is recorded with the rank of the bundle due in that tick, ahead of its slots. -/
def layerStart (c : CoreId) (s : State) : State :=
  if startIsDue s c then
    match (coreAt s c).seq.runq with
    | [] => s
    | rec_ :: _ =>
      match startCheck s c (coreAt s c).seq.firstStart rec_ with
      | some st => raiseFault c (rankIssue 0) (flt st c) s
      | none => startApply c rec_ s
  else s

/-- A record arrives at a core in the current tick: it takes effect one tick later where the core awaits one (R95). -/
def pushRecord (c : CoreId) (rec_ : CfgRecord) (s : State) : State :=
  let now := nowAt s c
  modSeq s c (fun q =>
    { q with
      runq := q.runq ++ [rec_]
      startDue := if q.awaiting && q.startDue.isNone then some (BitVec.ofNat 64 (now + 1)) else q.startDue })

/-- The records on their way to a core in its region's management crossing. -/
def recordsComing (s : State) (c : CoreId) : Nat :=
  ((regionAt s (regionOf c)).mgtIn.filter (fun m => match m with | .record d _ => decide (d = c) | .start _ => false)).length

/-- A message of the management crossing is taken by its core at a tick: a first START takes effect one tick later, and a record
arrives (R95, R263). -/
def mgtTake (m : MgtMsg) (s : State) : State :=
  match m with
  | .start c => modSeq s c (fun q => if q.awaiting then { q with startDue := some (BitVec.ofNat 64 (nowAt s c + 1)) } else q)
  | .record c rec_ => pushRecord c rec_ s

/-- The core a message goes to. -/
def mgtCore : MgtMsg → CoreId
  | .start c => c
  | .record c _ => c

/-- A region's cores that run take their messages from its management crossing, in order; those of a stopped core wait, as in a
hold, and those of a core whose job has been fenced are dropped (R29, R265, R285). -/
def mgtArrive (r : RegionId) (s : State) : State :=
  let ms := (regionAt s r).mgtIn
  let runs (m : MgtMsg) : CoreRun := (coreAt s (mgtCore m)).seq.run
  let s1 := modRegion s r (fun g => { g with mgtIn := ms.filter (fun m => runs m == .stopped) })
  (ms.filter (fun m => runs m == .running)).foldl (fun u m => mgtTake m u) s1

/-- RECORD_PUSH: the Landing pushes the next record of a member core, through the management crossing, while its run-ahead queue has
space for it (R95). -/
def recordPush (c : CoreId) (s : State) : State :=
  match (coreAt s c).seq.job with
  | none => s
  | some j =>
    let b := jobAt s j
    match b.toPush.find? (fun p => p.1 == c) with
    | some (_, rec_ :: rest) =>
      if (coreAt s c).seq.runq.length + recordsComing s c < 256 ∧ (regionAt s (regionOf c)).mgtIn.length < 32 ∧
          (b.state = .running ∨ b.state = .stopped) then
        modRegion (setJob s j { b with toPush := b.toPush.map (fun p => if p.1 = c then (c, rest) else p) }) (regionOf c)
          (fun g => { g with mgtIn := g.mgtIn ++ [.record c rec_] })
      else s
    | _ => s

/-! ### The end of a core's part -/

/-- Has every operation that a core issued completed (R96, R203, R217, R264, R314). -/
def coreQuiet (k : Core) : Bool :=
  k.ops.isEmpty && k.pend.isEmpty && k.vec.sclClosed.isEmpty && k.links.isEmpty && k.arrs.toList.all (fun a => a.rowsIn.isEmpty) &&
    (List.finRange 32).all (fun e => decide ((epOf k e).unsettled = 0)) &&
    (List.finRange 16).all (fun q =>
      let x := qOf k q
      x.persist || (x.xfers.all (fun y => y.dropped) && (!x.write || decide (x.wTail ≤ x.wHead) || (x.rel.isEmpty && x.act.isEmpty))))

/-- A core whose part of a job has ended: its endpoints close, and its non-persistent queues are reset; acknowledgements of a fenced
job's commands are still to come (R96, R203, R216, R317). -/
def partEnds (c : CoreId) (s : State) : State :=
  modCore (closeAll c s) c (fun k =>
    let k1 := (List.finRange 16).foldl (fun k q => modQ k q (fun x => if x.persist then x else qReset x)) k
    { k1 with
      spanCw := 0, spanCcw := 0, ops := [], pend := [], tileUse := [], vecUse := [], bankUse := [], wideUse := [], links := []
      lateAcks := k1.lateAcks ++ (k1.links.filter (fun l => l.taken && !l.acked)).map (fun l => (linkDest l.words, l.index))
      seq := { k1.seq with run := .idle, job := none, runq := [], awaiting := false, startDue := none, finishing := false,
                           layerOn := false, entryDue := false, trailing := 0, repeats := [], shadow := none } })

/-- CORE_COMPLETE: after the trailing bundles of the last layer, and once every operation has completed, the core reports to
the Landing through its region's management crossing (R96, R264). A region in a hold reports nothing (R33). -/
def coreComplete (c : CoreId) (s : State) : State :=
  let k := coreAt s c
  match k.seq.job with
  | none => s
  | some j =>
    if k.seq.run == .running && partOver k.seq && coreQuiet k && (regionAt s (regionOf c)).hold.isNone then
      partEnds c (modRegion s (regionOf c) (fun g => { g with mgtOut := g.mgtOut ++ [{ core := c, job := j }] }))
    else s

/-- LAYER_START; a region in a hold starts no layer (R33, R94). -/
def execLayerStart (c : CoreId) (s : State) : Host.Outcome State Fault Refusal :=
  .next (if (regionAt s (regionOf c)).hold.isSome then s else settleFaults (regionOf c) (layerStart c s))

/-- RECORD_PUSH (R95). -/
def execRecordPush (c : CoreId) (s : State) : Host.Outcome State Fault Refusal := .next (recordPush c s)

/-- CORE_COMPLETE (R96). -/
def execCoreComplete (c : CoreId) (s : State) : Host.Outcome State Fault Refusal := .next (coreComplete c s)

end Sys2Proof.Machine
end

