-- ==== Sys2Proof/Machine/Scalar.lean ====
section
/-! DEFINITION. The K-slot scalar instructions (R85; spec/04, Table 3). -/

namespace Sys2Proof.Machine

/-- A scalar result computed at issue and visible after its latency (R45, R85). -/
def scalarIssue (c : CoreId) (lat : Nat) (rd : SReg) (v : Core → Word) : Issue :=
  { core := c, wait := noWait, fault := noFault,
    effect := fun s =>
      let t := nowAt s c
      modCore s c (fun k => pushPend k { due := t + lat, issued := issueKey t 0, eff := .scalar rd (v k) }) }

/-- The 12-bit immediate, sign-extended (R85). -/
def immS (i : BitVec 12) : Word := i.signExtend 64

/-- The 12-bit immediate, zero-extended (R85, SORI). -/
def immZ (i : BitVec 12) : Word := i.zeroExtend 64

/-- A comparison's result. -/
def boolWord (b : Bool) : Word := if b then 1#64 else 0#64

/-- The shift amount of a word: bits [5:0] (R85). -/
def shiftAmt (w : Word) : Nat := w.toNat % 64

/-- The shift amount of an immediate: bits [5:0] (R85). -/
def shiftImm (i : BitVec 12) : Nat := i.toNat % 64

/-- Add modulo 2^64 (R85). -/
def saddIssue (c : CoreId) (rd rs1 rs2 : SReg) : Issue := scalarIssue c 1 rd (fun k => sreg k rs1 + sreg k rs2)

/-- Subtract modulo 2^64 (R85). -/
def ssubIssue (c : CoreId) (rd rs1 rs2 : SReg) : Issue := scalarIssue c 1 rd (fun k => sreg k rs1 - sreg k rs2)

/-- Bitwise AND (R85). -/
def sandIssue (c : CoreId) (rd rs1 rs2 : SReg) : Issue := scalarIssue c 1 rd (fun k => sreg k rs1 &&& sreg k rs2)

/-- Bitwise OR (R85). -/
def sorIssue (c : CoreId) (rd rs1 rs2 : SReg) : Issue := scalarIssue c 1 rd (fun k => sreg k rs1 ||| sreg k rs2)

/-- Bitwise XOR (R85). -/
def sxorIssue (c : CoreId) (rd rs1 rs2 : SReg) : Issue := scalarIssue c 1 rd (fun k => sreg k rs1 ^^^ sreg k rs2)

/-- Shift left by rs2[5:0] (R85). -/
def sshlIssue (c : CoreId) (rd rs1 rs2 : SReg) : Issue := scalarIssue c 1 rd (fun k => sreg k rs1 <<< shiftAmt (sreg k rs2))

/-- Shift right with zero fill by rs2[5:0] (R85). -/
def sshrIssue (c : CoreId) (rd rs1 rs2 : SReg) : Issue := scalarIssue c 1 rd (fun k => sreg k rs1 >>> shiftAmt (sreg k rs2))

/-- Shift right with sign fill by rs2[5:0] (R85). -/
def ssraIssue (c : CoreId) (rd rs1 rs2 : SReg) : Issue := scalarIssue c 1 rd (fun k => (sreg k rs1).sshiftRight (shiftAmt (sreg k rs2)))

/-- Signed less than (R85). -/
def sltIssue (c : CoreId) (rd rs1 rs2 : SReg) : Issue := scalarIssue c 1 rd (fun k => boolWord ((sreg k rs1).slt (sreg k rs2)))

/-- Unsigned less than (R85). -/
def sltuIssue (c : CoreId) (rd rs1 rs2 : SReg) : Issue := scalarIssue c 1 rd (fun k => boolWord ((sreg k rs1).ult (sreg k rs2)))

/-- Equal (R85). -/
def sseqIssue (c : CoreId) (rd rs1 rs2 : SReg) : Issue := scalarIssue c 1 rd (fun k => boolWord (sreg k rs1 == sreg k rs2))

/-- The low 64 bits of the product, after 3 ticks (R85). -/
def smulIssue (c : CoreId) (rd rs1 rs2 : SReg) : Issue := scalarIssue c 3 rd (fun k => sreg k rs1 * sreg k rs2)

/-- Add of the sign-extended immediate (R85). -/
def saddiIssue (c : CoreId) (rd rs1 : SReg) (i : BitVec 12) : Issue := scalarIssue c 1 rd (fun k => sreg k rs1 + immS i)

/-- AND with the sign-extended immediate (R85). -/
def sandiIssue (c : CoreId) (rd rs1 : SReg) (i : BitVec 12) : Issue := scalarIssue c 1 rd (fun k => sreg k rs1 &&& immS i)

/-- OR with the zero-extended immediate (R85). -/
def soriIssue (c : CoreId) (rd rs1 : SReg) (i : BitVec 12) : Issue := scalarIssue c 1 rd (fun k => sreg k rs1 ||| immZ i)

/-- Shift left by the immediate (R85). -/
def sshliIssue (c : CoreId) (rd rs1 : SReg) (i : BitVec 12) : Issue := scalarIssue c 1 rd (fun k => sreg k rs1 <<< shiftImm i)

/-- Shift right with zero fill by the immediate (R85). -/
def sshriIssue (c : CoreId) (rd rs1 : SReg) (i : BitVec 12) : Issue := scalarIssue c 1 rd (fun k => sreg k rs1 >>> shiftImm i)

/-- The sign-extended 18-bit immediate (R85). -/
def sliIssue (c : CoreId) (rd : SReg) (i : BitVec 18) : Issue := scalarIssue c 1 rd (fun _ => i.signExtend 64)

/-- The iteration index of a loop counter, 0 if it is inactive (R85). -/
def slcIssue (c : CoreId) (rd : SReg) (lc : Fin 8) : Issue :=
  scalarIssue c 1 rd (fun k =>
    let l := k.seq.loops.get lc
    if l.active then l.iter.zeroExtend 64 else 0#64)

/-- SADD (R85). -/
def execSadd (c : CoreId) (rd rs1 rs2 : SReg) (s : State) : Host.Outcome State Fault Refusal :=
  .next (runIssue (saddIssue c rd rs1 rs2) (.sadd c rd rs1 rs2) s)

/-- SSUB (R85). -/
def execSsub (c : CoreId) (rd rs1 rs2 : SReg) (s : State) : Host.Outcome State Fault Refusal :=
  .next (runIssue (ssubIssue c rd rs1 rs2) (.ssub c rd rs1 rs2) s)

/-- SAND (R85). -/
def execSand (c : CoreId) (rd rs1 rs2 : SReg) (s : State) : Host.Outcome State Fault Refusal :=
  .next (runIssue (sandIssue c rd rs1 rs2) (.sand c rd rs1 rs2) s)

/-- SOR (R85). -/
def execSor (c : CoreId) (rd rs1 rs2 : SReg) (s : State) : Host.Outcome State Fault Refusal :=
  .next (runIssue (sorIssue c rd rs1 rs2) (.sor c rd rs1 rs2) s)

/-- SXOR (R85). -/
def execSxor (c : CoreId) (rd rs1 rs2 : SReg) (s : State) : Host.Outcome State Fault Refusal :=
  .next (runIssue (sxorIssue c rd rs1 rs2) (.sxor c rd rs1 rs2) s)

/-- SSHL (R85). -/
def execSshl (c : CoreId) (rd rs1 rs2 : SReg) (s : State) : Host.Outcome State Fault Refusal :=
  .next (runIssue (sshlIssue c rd rs1 rs2) (.sshl c rd rs1 rs2) s)

/-- SSHR (R85). -/
def execSshr (c : CoreId) (rd rs1 rs2 : SReg) (s : State) : Host.Outcome State Fault Refusal :=
  .next (runIssue (sshrIssue c rd rs1 rs2) (.sshr c rd rs1 rs2) s)

/-- SSRA (R85). -/
def execSsra (c : CoreId) (rd rs1 rs2 : SReg) (s : State) : Host.Outcome State Fault Refusal :=
  .next (runIssue (ssraIssue c rd rs1 rs2) (.ssra c rd rs1 rs2) s)

/-- SLT (R85). -/
def execSlt (c : CoreId) (rd rs1 rs2 : SReg) (s : State) : Host.Outcome State Fault Refusal :=
  .next (runIssue (sltIssue c rd rs1 rs2) (.slt c rd rs1 rs2) s)

/-- SLTU (R85). -/
def execSltu (c : CoreId) (rd rs1 rs2 : SReg) (s : State) : Host.Outcome State Fault Refusal :=
  .next (runIssue (sltuIssue c rd rs1 rs2) (.sltu c rd rs1 rs2) s)

/-- SEQ (R85). -/
def execSseq (c : CoreId) (rd rs1 rs2 : SReg) (s : State) : Host.Outcome State Fault Refusal :=
  .next (runIssue (sseqIssue c rd rs1 rs2) (.sseq c rd rs1 rs2) s)

/-- SMUL (R85). -/
def execSmul (c : CoreId) (rd rs1 rs2 : SReg) (s : State) : Host.Outcome State Fault Refusal :=
  .next (runIssue (smulIssue c rd rs1 rs2) (.smul c rd rs1 rs2) s)

/-- SADDI (R85). -/
def execSaddi (c : CoreId) (rd rs1 : SReg) (i : BitVec 12) (s : State) : Host.Outcome State Fault Refusal :=
  .next (runIssue (saddiIssue c rd rs1 i) (.saddi c rd rs1 i) s)

/-- SANDI (R85). -/
def execSandi (c : CoreId) (rd rs1 : SReg) (i : BitVec 12) (s : State) : Host.Outcome State Fault Refusal :=
  .next (runIssue (sandiIssue c rd rs1 i) (.sandi c rd rs1 i) s)

/-- SORI (R85). -/
def execSori (c : CoreId) (rd rs1 : SReg) (i : BitVec 12) (s : State) : Host.Outcome State Fault Refusal :=
  .next (runIssue (soriIssue c rd rs1 i) (.sori c rd rs1 i) s)

/-- SSHLI (R85). -/
def execSshli (c : CoreId) (rd rs1 : SReg) (i : BitVec 12) (s : State) : Host.Outcome State Fault Refusal :=
  .next (runIssue (sshliIssue c rd rs1 i) (.sshli c rd rs1 i) s)

/-- SSHRI (R85). -/
def execSshri (c : CoreId) (rd rs1 : SReg) (i : BitVec 12) (s : State) : Host.Outcome State Fault Refusal :=
  .next (runIssue (sshriIssue c rd rs1 i) (.sshri c rd rs1 i) s)

/-- SLI (R85). -/
def execSli (c : CoreId) (rd : SReg) (i : BitVec 18) (s : State) : Host.Outcome State Fault Refusal :=
  .next (runIssue (sliIssue c rd i) (.sli c rd i) s)

/-- SLC (R85). -/
def execSlc (c : CoreId) (rd : SReg) (lc : Fin 8) (s : State) : Host.Outcome State Fault Refusal :=
  .next (runIssue (slcIssue c rd lc) (.slc c rd lc) s)

end Sys2Proof.Machine
end

