-- ==== Sys2Proof/Machine/Sequencer.lean ====
section
/-! DEFINITION. The sequencer's control instructions: repeats, junctions and the end of a layer (R86 to R91). -/

namespace Sys2Proof.Machine

/-- A loop counter made inactive (R86); its index and count stay as they were. -/
def loopOff (ls : Vector LoopCtr 8) (n : Fin 8) : Vector LoopCtr 8 :=
  ls.set n.val { ls.get n with active := false } n.isLt

/-- What follows bundle `b` given the repeats in progress, innermost first: the next iteration of a body that ends at `b`,
or the bundle after it (R86, R87). -/
def loopEnd (b : BitVec 12) : List Repeat → Vector LoopCtr 8 → List Repeat × Vector LoopCtr 8 × BitVec 12
  | [], ls => ([], ls, b + 1#12)
  | r :: rest, ls =>
    if b = r.last then
      let l := ls.get r.lc
      if l.iter.toNat + 1 < l.count.toNat then
        (r :: rest, ls.set r.lc.val { l with iter := l.iter + 1#24 } r.lc.isLt, r.first)
      else loopEnd b rest (loopOff ls r.lc)
    else (r :: rest, ls, b + 1#12)

/-- The sequencer after bundle `b`, where nothing else sets the next bundle. -/
def seqFall (q : Seq) (b : BitVec 12) : Seq :=
  let x := loopEnd b q.repeats q.loops
  { q with repeats := x.1, loops := x.2.1, pc := x.2.2 }

/-- A repeat opens after bundle `b`: its body is the `len` bundles that follow, run `count` times (R86). -/
def openRepeat (q : Seq) (b : BitVec 12) (lc : Fin 8) (len : Nat) (count : BitVec 24) : Seq :=
  let last := b + BitVec.ofNat 12 len
  if count = 0 then seqFall q last
  else
    { q with
      repeats := { lc := lc, first := b + 1#12, last := last } :: q.repeats
      loops := q.loops.set lc.val { iter := 0, count := count, active := true } lc.isLt
      pc := b + 1#12 }

/-- The sequencer after bundle `b` has issued: a control instruction's choice, the end of a junction's shadow, or the next
bundle in order (R86 to R90). -/
def seqNext (q : Seq) (b : BitVec 12) : Seq :=
  if q.moved then { q with moved := false }
  else
    match q.shadow with
    | none => seqFall q b
    | some (n, target) =>
      if n ≤ 1 then
        match target with
        | .variant e => { q with shadow := none, pc := e }
        | .trip lc len count => openRepeat { q with shadow := none } b lc len count
      else { q with shadow := some (n - 1, target), pc := b + 1#12 }

/-- A control instruction that reads nothing and cannot fault. -/
def seqIssue (c : CoreId) (f : Nat → Core → Seq) : Issue :=
  { core := c, wait := noWait, fault := noFault,
    effect := fun s => let t := nowAt s c; modCore s c (fun k => { k with seq := f t k }) }

/-- REP: the count is the immediate (R86). -/
def repIssue (c : CoreId) (lc : Fin 8) (bodyM1 : Fin 1024) (count : Fin 2048) : Issue :=
  seqIssue c (fun _ k => { openRepeat k.seq k.seq.lastBundle lc (bodyM1.val + 1) (BitVec.ofNat 24 count.val) with moved := true })

/-- REPS: the count is bits [23:0] of a scalar (R86). -/
def repsIssue (c : CoreId) (lc : Fin 8) (bodyM1 : Fin 1024) (rs : SReg) : Issue :=
  seqIssue c (fun _ k =>
    { openRepeat k.seq k.seq.lastBundle lc (bodyM1.val + 1) ((sreg k rs).setWidth 24) with moved := true })

/-- NEXT at tick `t`: eight trailing bundles follow, and the next record's START takes effect at `t + 1`, or after it
arrives; in a FINAL layer the core's part of the job ends (R91, R95, R96). -/
def nextSeq (q : Seq) (t : Nat) : Seq :=
  { q with
    layerOn := false, trailing := 8, pc := q.lastBundle + 1#12, moved := true
    afterNext := !q.finalLayer, finishing := q.finalLayer, awaiting := !q.finalLayer
    startDue := if q.finalLayer ∨ q.runq.isEmpty then none else some (BitVec.ofNat 64 (t + 1)) }

/-- NEXT (R91). -/
def nextIssue (c : CoreId) : Issue := seqIssue c (fun t k => nextSeq k.seq t)

/-- The number of variants in force: 0 and values above 8 act as 1 (spec/04, Table 5). -/
def nvarOf (j : Junction) : Nat := if j.nvar.toNat = 0 ∨ 8 < j.nvar.toNat then 1 else j.nvar.toNat

/-- The selector at the head of a queue: bits [31:0] of the entry (R88). -/
def selectorOf (k : Core) (q : QId) : Nat := leNat (qHeadBytes k q 4)

/-- JSEL: a waiting read that takes the head entry and selects a variant, which issues after 7 shadow bundles (R88, R90). -/
def jselIssue (c : CoreId) (q : QId) (j : Fin 8) : Issue :=
  { core := c
    wait := fun s => if qReadable (qOf (coreAt s c) q) (periodAt s c) = 0 then some (holdQueue c q) else none
    fault := fun s =>
      if selectorOf (coreAt s c) q < nvarOf ((coreAt s c).seq.juncs.get j) then none else some (flt .bounds c)
    effect := fun s => modCore s c (fun k =>
      let v := selectorOf k q
      let e := ((k.seq.juncs.get j).vars.toList).getD v 0
      let k1 := modQ k q (fun x => qDropEntries x 1)
      { k1 with seq := { k1.seq with shadow := some (7, .variant e), pc := k1.seq.lastBundle + 1#12, moved := true } }) }

/-- The trip count: the gather's count divided by 2^h, rounded up (R89). -/
def tripOf (e h : Nat) : Nat := ceilDiv e (2 ^ h)

/-- JTRIP: waits until the count of the next gather of the queue is established, and runs a repeat after 7 shadow bundles
(R89, R193). -/
def jtripIssue (c : CoreId) (q : QId) (lc : Fin 8) (bodyM1 : Fin 1024) (h : Fin 32) : Issue :=
  { core := c
    wait := fun s => if (tripCount (coreAt s c) q (periodAt s c)).isNone then some (holdQueue c q) else none
    fault := fun s =>
      match tripCount (coreAt s c) q (periodAt s c) with
      | some e => if tripOf e h.val ≤ 2 ^ 24 - 1 then none else some (flt .bounds c)
      | none => none
    effect := fun s => modCore s c (fun k =>
      let e := (tripCount k q (periodAt s c)).getD 0
      let k1 := modQ k q (fun x => { x with tripsTaken := x.tripsTaken + 1 })
      { k1 with seq := { k1.seq with
          shadow := some (7, .trip lc (bodyM1.val + 1) (BitVec.ofNat 24 (tripOf e h.val)))
          pc := k1.seq.lastBundle + 1#12, moved := true } }) }

/-- JOIN: the next bundle is the junction's join point (R90). -/
def joinIssue (c : CoreId) (j : Fin 8) : Issue :=
  seqIssue c (fun _ k => { k.seq with pc := (k.seq.juncs.get j).join, moved := true })

/-- REP (R86). -/
def execRep (c : CoreId) (lc : Fin 8) (b : Fin 1024) (n : Fin 2048) (s : State) : Host.Outcome State Fault Refusal :=
  .next (runIssue (repIssue c lc b n) (.rep c lc b n) s)

/-- REPS (R86). -/
def execReps (c : CoreId) (lc : Fin 8) (b : Fin 1024) (rs : SReg) (s : State) : Host.Outcome State Fault Refusal :=
  .next (runIssue (repsIssue c lc b rs) (.reps c lc b rs) s)

/-- NEXT (R91). -/
def execNextLayer (c : CoreId) (s : State) : Host.Outcome State Fault Refusal :=
  .next (runIssue (nextIssue c) (.nextLayer c) s)

/-- JSEL (R88). -/
def execJsel (c : CoreId) (q : QId) (j : Fin 8) (s : State) : Host.Outcome State Fault Refusal :=
  .next (runIssue (jselIssue c q j) (.jsel c q j) s)

/-- JTRIP (R89). -/
def execJtrip (c : CoreId) (q : QId) (lc : Fin 8) (b : Fin 1024) (h : Fin 32) (s : State) :
    Host.Outcome State Fault Refusal :=
  .next (runIssue (jtripIssue c q lc b h) (.jtrip c q lc b h) s)

/-- JOIN (R90). -/
def execJoin (c : CoreId) (j : Fin 8) (s : State) : Host.Outcome State Fault Refusal :=
  .next (runIssue (joinIssue c j) (.join c j) s)

end Sys2Proof.Machine
end

