-- ==== Sys2Proof/Machine/Effects.lean ====
section
/-! DEFINITION. Results that become visible, the waits and steps of operations in progress, and the meaning of every slot
instruction at its issue (R45, R46). -/

namespace Sys2Proof.Machine

/-- The issue of a slot instruction; none for a command that no slot holds. -/
def issueOf : Instr → Option Issue
  | .sadd c rd a b => some (saddIssue c rd a b)
  | .ssub c rd a b => some (ssubIssue c rd a b)
  | .sand c rd a b => some (sandIssue c rd a b)
  | .sor c rd a b => some (sorIssue c rd a b)
  | .sxor c rd a b => some (sxorIssue c rd a b)
  | .sshl c rd a b => some (sshlIssue c rd a b)
  | .sshr c rd a b => some (sshrIssue c rd a b)
  | .ssra c rd a b => some (ssraIssue c rd a b)
  | .slt c rd a b => some (sltIssue c rd a b)
  | .sltu c rd a b => some (sltuIssue c rd a b)
  | .sseq c rd a b => some (sseqIssue c rd a b)
  | .smul c rd a b => some (smulIssue c rd a b)
  | .saddi c rd a i => some (saddiIssue c rd a i)
  | .sandi c rd a i => some (sandiIssue c rd a i)
  | .sori c rd a i => some (soriIssue c rd a i)
  | .sshli c rd a i => some (sshliIssue c rd a i)
  | .sshri c rd a i => some (sshriIssue c rd a i)
  | .sli c rd i => some (sliIssue c rd i)
  | .slc c rd n => some (slcIssue c rd n)
  | .rep c lc b n => some (repIssue c lc b n)
  | .reps c lc b rs => some (repsIssue c lc b rs)
  | .nextLayer c => some (nextIssue c)
  | .jsel c q j => some (jselIssue c q j)
  | .jtrip c q lc b h => some (jtripIssue c q lc b h)
  | .join c j => some (joinIssue c j)
  | .tcfg c t rows rowb fmt axis => some (tcfgIssue c t (tcfgOf rows rowb fmt axis))
  | .trel c rs => some (trelIssue c rs)
  | .treli c t => some (treliIssue c t)
  | .wclr c w => some (wclrIssue c w)
  | .xsend c n => some (xsendIssue c n)
  | .xwait c f k => some (xwaitIssue c f k)
  | .xsync c k => some (xsyncIssue c k)
  | .mma c x => some (mmaIssue c x)
  | .wld c x => some (wldIssue c x)
  | .wswap c m => some (wswapIssue c m)
  | .absw c m => some (abswIssue c m)
  | .aclr c m b i => some (aclrIssue c m b i)
  | .mvld c t e => some (mvldIssue c t e)
  | .mvm c x => some (mvmIssue c x)
  | .wadd c x => some (waddIssue c x)
  | .vdrn c x => some (vdrnIssue c x)
  | .vld c x => some (vldIssue c x)
  | .vst c x => some (vstIssue c x)
  | .vop c x => some (vopIssue c x)
  | .vfn c x => some (vfnIssue c x)
  | .vred c x => some (vredIssue c x)
  | .vsmx c x => some (vsmxIssue c x)
  | .vresc c x => some (vrescIssue c x)
  | .vsmxf c x => some (vsmxfIssue c x)
  | .vwcv c x => some (vwcvIssue c x)
  | .vrng c x => some (vrngIssue c x)
  | .vscln c => some (vsclnIssue c)
  | .waitq c q n => some (waitqIssue c q n)
  | .sdrop c q n => some (sdropIssue c q n)
  | .sdesc c q n => some (sdescFull c q n)
  | .sarm c q => some (sarmIssue c q)
  | .sfence c q => some (sfenceIssue c q)
  | .sld c q t f m => some (sldIssue c q t f m)
  | .sput c x => some (sputIssue c x)
  | .bpush c b k => some (bpushFull c b k)
  | .fsend c x => some (fsendIssue c x)
  | .frcv c d t => some (frcvIssue c d t)
  | .fxin c d f => some (fxinIssue c d f)
  | .chOpen c e k => some (openIssue c e k)
  | .chClose c e => some (closeIssue c e)
  | .csend c e n => some (csendIssue c e n)
  | .cack c e n => some (cackIssue c e n)
  | .cwait c e k => some (cwaitIssue c e k)
  | .kwait c k rs => some (kwaitIssue c k rs)
  | .kout c x => some (koutIssue c x)
  | _ => none

/-- The slot of a slot instruction: K = 0, A = 1, V = 2, S = 3, C = 4 (R46, R81). -/
def instrSlot : Instr → Nat
  | .mma _ _ | .wld _ _ | .wswap _ _ | .absw _ _ | .aclr _ _ _ _ | .mvld _ _ _ | .mvm _ _ | .wadd _ _ => 1
  | .vdrn _ _ | .vld _ _ | .vst _ _ | .vop _ _ | .vfn _ _ | .vred _ _ | .vsmx _ _ | .vresc _ _ | .vsmxf _ _ | .vwcv _ _
  | .vrng _ _ | .vscln _ => 2
  | .waitq _ _ _ | .sdrop _ _ _ | .sdesc _ _ _ | .sarm _ _ | .sfence _ _ | .sld _ _ _ _ _ | .sput _ _ | .bpush _ _ _ | .fsend _ _
  | .frcv _ _ _ | .fxin _ _ _ => 3
  | .chOpen _ _ _ | .chClose _ _ | .csend _ _ _ | .cack _ _ _ | .cwait _ _ _ | .kwait _ _ _ | .kout _ _ => 4
  | _ => 0

/-! ### Results that become visible -/

/-- Accumulator or shadow results on one core that need no more than the core. -/
def effCore (k : Core) (e : Eff) : Core :=
  match e with
  | .scalar rd v => setSreg k rd v
  | .tcfg t cfg => modTile k t (fun u => tileConfigure u cfg)
  | .release mask =>
    (List.finRange 32).foldl (fun k t => if mask.getLsbD t.val then modTile k t (fun u => if u.empty then u else tileEmpty u) else k) k
  | .wclr w => modWide k w (fun t => wideClear t.mode t.anchor)
  | .swap mask => modArrs k mask swapWeights
  | .absw mask => modArrs k mask (fun a => { a with fill := !a.fill })
  | .aclr m bank int => modArr k m (fun a => modBank a bank (fun z => clearBank z int))
  | .acc m bank row col v sat =>
    let k1 := modArr k m (fun a => modBank a bank (fun z =>
      { z with
        elems := storeSet z.elems (row * 128 + col) v
        ck := if sat = 0 then z.ck else cellSet clearCk z.ck row { cellGet clearCk z.ck row with sat := true } }))
    { k1 with satCount := BitVec.ofNat 32 (satAdd 32 k1.satCount.toNat sat) }
  | .ck m bank row v => modArr k m (fun a => modBank a bank (fun z =>
      { z with ck := cellSet clearCk z.ck row { v with sat := v.sat || (cellGet clearCk z.ck row).sat } }))
  | .ckClear m bank row => modArr k m (fun a => modBank a bank (fun z => { z with ck := cellSet clearCk z.ck row clearCk }))
  | .rowSum m bank row tol int cols due issued => ckSum k m bank row tol int cols due issued
  | .compare m bank row made bad => ckCompare k m bank row made bad
  | .shadow mask form cells scales metas _ cw cn => modArrs k mask (fun a => shadowWrite a form cells scales metas cw cn)
  | .mvbuf fmt vals scales => { k with mvu := mvBufWrite k.mvu fmt vals scales }
  | .mvline bank vals sat =>
    { k with
      mvu := modMvBank k.mvu bank (fun z => { z with elems := vals.foldl (fun m e => storeSet m e.1 e.2) z.elems })
      satCount := BitVec.ofNat 32 (satAdd 32 k.satCount.toNat sat) }
  | .tile t bytes scales nr =>
    modTile k t (fun u =>
      let w := tileWrite u bytes scales
      match nr with
      | some (n, p) => { w with nextRow := n, pending := p }
      | none => w)
  | .vec v es => vecWrite k v es
  | .sx ctx row v => sxWrite k ctx row v
  | .sxflag ctx row v => sxFlagWrite k ctx row v
  | .counts sat nz =>
    { k with satCount := BitVec.ofNat 32 (satAdd 32 k.satCount.toNat sat),
             nanZero := BitVec.ofNat 32 (satAdd 32 k.nanZero.toNat nz) }
  | .wide w row adds ovf nans nan => wideAdd k w row adds ovf nans nan
  | .combWide w row adds ovf nans nan => wideAdd k w row adds ovf nans nan
  | .comb q words => combDone k q words
  | .bpush b v => setBoom k b (boomOf k b ++ [v])
  | .qput q bs => wqPut k q bs
  | .sclClose t tag emin => sclCloseRec k t tag emin
  | .inject _ _ => k
  | .chOpen _ _ => k
  | .chClose _ => k

/-- The fault that a result brings with it: a checksum mismatch, or invalid metadata of a sparse load (R120, R125). -/
def effFault (c : CoreId) (e : Eff) : Option FaultInfo :=
  match e with
  | .compare m bank row _ bad => if bad then some (fltD .checksumMismatch c m.val (row + bitNat bank * 128)) else none
  | .shadow _ _ _ _ _ bad _ _ => if bad then some (flt .shapeMismatch c) else none
  | _ => none

/-- A result becomes visible. -/
def applyPend (c : CoreId) (p : Pend) (s : State) : State :=
  let s1 := match effFault c p.eff with
    | some f => raiseFault c (opRank (nowAt s c) p.issued) f s
    | none => s
  match p.eff with
  | .inject d f => injectFlit c d f p.issued s1
  | .chOpen e w => openEp c e w s1
  | .chClose e => closeEp c e s1
  | _ => modCore s1 c (fun k => effCore k p.eff)

/-- Results that a unit writes after the other units of the tick have read: into a ring register and into a write queue. -/
def isLate (e : Eff) : Bool := match e with | .inject _ _ => true | .qput _ _ => true | _ => false

/-- Results in force from the tick after their issue for every reader, a START's checks included, and rows that a tile load has
written in the tick that ends: a stop or fence between ticks keeps them (R104, R142), and a configuration or release that comes
into force then finds them written (R99, R101). -/
def isEager (e : Eff) : Bool :=
  match e with
  | .tile _ _ _ (some _) => true
  | .scalar _ _ | .tcfg _ _ | .release _ | .wclr _ | .swap _ | .absw _ | .bpush _ _ | .chOpen _ _ | .chClose _ | .sclClose _ _ _ => true
  | _ => false

/-- Additions of a combining queue, which a stop does not keep (R284). -/
def isComb (e : Eff) : Bool := match e with | .combWide _ _ _ _ _ _ => true | .comb _ _ => true | _ => false

/-- The results due by tick `t` that `want` selects become visible, in order of tick and issue (R46). -/
def settlePends (want : Eff → Bool) (c : CoreId) (t : Nat) (s : State) : State :=
  let now := (coreAt s c).pend.filter (fun p => decide (p.due ≤ t) && want p.eff)
  let s1 := modCore s c (fun k => { k with pend := k.pend.filter (fun p => !(decide (p.due ≤ t) && want p.eff)) })
  now.foldl (fun u p => applyPend c p u) s1

/-! ### Operations in progress -/

/-- The tick of an operation's next step. -/
def opTick (o : Strm) : Nat := o.t0 + o.next * o.step

/-- Does an operation read accumulator banks ahead of the other reads of the tick. -/
def readsBankRow (i : Instr) : Bool :=
  match i with
  | .vdrn _ _ => true
  | .vresc _ _ => true
  | .wadd _ _ => true
  | _ => false

/-- Is an operation an FXIN. -/
def isFxin (i : Instr) : Bool := match i with | .fxin _ _ _ => true | _ => false

/-- The bank rows that an operation's step reads. -/
def bankRead (k : Core) (o : Strm) : List (BitVec 32) :=
  match o.instr with
  | .vdrn _ x => vdrnBankRead k o x
  | .vresc _ x => vrescBankRead k o x
  | .wadd _ x => waddBankRead k o x
  | _ => o.vals

/-- An operation replaced in its core's list. -/
def setOp (k : Core) (o n : Strm) : Core :=
  { k with ops := k.ops.map (fun x => if x.issued = o.issued ∧ x.instr = o.instr then n else x) }

/-- The bank reads of a core in tick `t`. -/
def bankReads (c : CoreId) (t : Nat) (s : State) : State :=
  modCore s c (fun k =>
    { k with ops := k.ops.map (fun o =>
        if readsBankRow o.instr && decide (opTick o = t) && decide (o.next < o.count) then { o with vals := bankRead k o } else o) })

/-- The wait of an MVM's line: an entry of its queue, and of the next for a scale line (R127). -/
def mvmWait (s : State) (c : CoreId) (o : Strm) (x : MvmFields) : Option HoldCond :=
  let k := coreAt s c
  let p := periodAt s c
  if qReadable (qOf k x.q) p = 0 then some (holdQueue c x.q)
  else if mvmTakesScale k o && decide (qReadable (qOf k (nextQ x.q)) p = 0) then some (holdQueue c (nextQ x.q))
  else none

/-- The wait of an operation's step. -/
def opWait (s : State) (c : CoreId) (o : Strm) : Option HoldCond :=
  match o.instr with
  | .mvm _ x => mvmWait s c o x
  | .sld _ q t f m => sldWait s c o q t f m
  | .fsend _ x => fsendWait s c x
  | .fxin _ d _ => fxinWait s c d
  | .csend _ e _ => csendWait s c e
  | .xsend _ _ => xsendWait s c
  | _ => none

/-- A step of an operation that captures a flit, with what it then does with every byte so far. -/
def captureStep (c : CoreId) (d : Dir) (o : Strm) (f : Core → Strm → Core) (s : State) : State :=
  match captureFlit c d o.issued s with
  | (s1, none) => s1
  | (s1, some bs) =>
    let o1 := { o with bytes := o.bytes ++ bs }
    modCore s1 c (fun k => f (setOp k o o1) o1)

/-- One step of an operation at tick `t`. -/
def opRun (c : CoreId) (o : Strm) (t : Nat) (s : State) : State :=
  match o.instr with
  | .mma _ x => modCore s c (fun k => (maskList x.mask).foldl (fun k m => mmaRow k o x m t) k)
  | .wld _ x =>
    if x.src.val = 0 then
      modCore s c (fun k =>
        let o1 := { o with bytes := o.bytes ++ wldTileBytes k x o.next }
        wldChunk (setOp k o o1) o1 x t (wldGot k x o1.bytes))
    else captureStep c (wldDir x) o (fun k o1 => wldChunk k o1 x t (wldGot k x o1.bytes)) s
  | .mvm _ x => modCore s c (fun k => mvmStep k o x t)
  | .wadd _ x => modCore s c (fun k => waddStep k o x t)
  | .vdrn _ x => modCore s c (fun k => vdrnStep k o x t)
  | .vld _ x => modCore s c (fun k => vldStep k o x t)
  | .vst _ x => modCore s c (fun k => vstStep k o x t)
  | .vop _ x => modCore s c (fun k => vopStep k o x t)
  | .vfn _ x => modCore s c (fun k => vfnStep k o x t)
  | .vred _ x => modCore s c (fun k => vredStep k o x t)
  | .vsmx _ x => modCore s c (fun k => vsmxStep k o x t)
  | .vresc _ x => modCore s c (fun k => vrescStep k o x t)
  | .vsmxf _ x => modCore s c (fun k => vsmxfStep k o x t)
  | .vrng _ x => modCore s c (fun k => vrngStep k o x t)
  | .vwcv _ x => modCore s c (fun k => vwcvStep k o x t)
  | .sld _ q u f m => modCore s c (fun k => sldStep k o q u f m t)
  | .sput _ x => modCore s c (fun k => sputStep k o x t)
  | .fsend _ x => modCore s c (fun k => fsendStep k o x t)
  | .frcv _ d u => captureStep c d o (fun k o1 => frcvStep k o1 u t) s
  | .fxin _ d _ => fxinTake c d o.issued s
  | .csend _ e _ => csendStep c e o.issued s
  | .kout _ x => modCore s c (fun k => koutStep k o x t)
  | .xsend _ _ => modCore s c xsendStep
  | _ => s

/-- An operation moves on by one step. -/
def opAdvance (c : CoreId) (o : Strm) (s : State) : State :=
  modCore s c (fun k => { k with ops := k.ops.map (fun x =>
    if x.issued = o.issued ∧ x.instr = o.instr then { x with next := x.next + 1 } else x) })

/-- A wait that is not met joins the region's conditions. -/
def addWait (r : RegionId) (h : HoldCond) (s : State) : State := modRegion s r (fun g => { g with waits := g.waits ++ [h] })

/-- The operations of a core, of the kind that `want` selects, whose next step is due at `t`, in the order of their issue. -/
def dueOps (want : Instr → Bool) (k : Core) (t : Nat) : List Strm :=
  k.ops.filter (fun o => want o.instr && decide (o.next < o.count) && decide (opTick o = t))

/-- One step of an operation on the tiles as it sees them, those that the tick `found` among them (R101 to R103). -/
def opStep (c : CoreId) (o : Strm) (t : Nat) (found : Vector Tile 32) (s : State) : State :=
  let tiles := (coreAt s c).tiles
  modCore (opRun c o t (modCore s c (opView o t found))) c (fun k => { k with tiles := tiles })

/-- Every step due at tick `t` of the operations that `want` selects: a step whose wait is not met joins the hold. -/
def runOps (want : Instr → Bool) (c : CoreId) (t : Nat) (found : Vector Tile 32) (s : State) : State :=
  (dueOps want (coreAt s c) t).foldl (fun u o =>
    match opWait u c o with
    | some h => addWait (regionOf c) h u
    | none => opAdvance c o (opStep c o t found u)) s

/-- Flits due into ring registers and bytes due into write queues; a full queue joins the hold (R138, R197, R223). -/
def runLate (c : CoreId) (t : Nat) (s : State) : State :=
  ((coreAt s c).pend.filter (fun p => decide (p.due ≤ t) && isLate p.eff)).foldl (fun u p =>
    let drop (v : State) : State := modCore v c (fun k => { k with pend := k.pend.erase p })
    match p.eff with
    | .qput q bs =>
      match qputWait (coreAt u c) c q bs.length with
      | some h => addWait (regionOf c) h u
      | none => applyPend c p (drop u)
    | _ => applyPend c p (drop u)) s

/-- Operations with no step left leave, and port uses that are past. -/
def pruneCore (k : Core) (t : Nat) : Core :=
  { k with
    ops := k.ops.filter (fun o => decide (o.next < o.count))
    tileUse := pruneUses k.tileUse t, vecUse := pruneUses k.vecUse t
    bankUse := pruneUses k.bankUse t, wideUse := pruneUses k.wideUse t }

end Sys2Proof.Machine
end

