-- ==== Sys2Proof/Machine/Tick.lean ====
section
/-! DEFINITION. The schedule tick of a region, its holds, and the steps of its units taken one by one (R20 to R44, R280 to
R285). -/

namespace Sys2Proof.Machine

/-! ### The phases of a tick -/

/-- A core whose pipelines advance: it is neither stopped nor fenced (R265, R284). -/
def coreAdvances (k : Core) : Bool := k.seq.run != .stopped && !coreFencing k

/-- Results due at the start of a tick: all but those of `isLate`; in a core that stands still, only combining additions
(R46, R284). -/
def startOfTick (c : CoreId) (t : Nat) (s : State) : State :=
  if coreAdvances (coreAt s c) then
    let s1 := settlePends (fun e => !isLate e) c t (bankReads c t s)
    modCore (channelTick c s1) c (fun k =>
      (List.finRange 4).foldl (fun k m => arrReads k m t) (sclDue k t))
  else channelTick c (settlePends isComb c t s)

/-- The bundle that a core's sequencer issues in this tick: a trailing bundle of the layer before, the entry bundle of a layer
at its layer tick 8, or the next bundle of the layer (R91). -/
def nextBundle (q : Seq) : Option (BitVec 12) :=
  if 0 < q.trailing then some q.pc
  else if q.entryDue && decide (q.ltick = 8) then some q.entry
  else if q.layerOn then some q.pc
  else none

/-- Layer tick, job tick and starved ticks at a tick of a running core; once its part has ended they keep their values
(R91, R95, R282). -/
def seqCount (q : Seq) : Seq :=
  if q.firstStart || partOver q then q
  else
    let q1 := { q with ltick := if q.fresh then 0 else BitVec.ofNat 32 (satAdd 32 q.ltick.toNat 1) }
    let idle := (nextBundle q1).isNone && q.afterNext
    { q1 with
      jtick := if q.jfresh then 0 else if idle then q1.jtick else q1.jtick + 1
      starve := if idle then q1.starve + 1 else q1.starve
      fresh := false, jfresh := false }

/-- The sequencer as it fetches bundle `b`. -/
def seqFetch (q : Seq) (b : BitVec 12) : Seq :=
  if 0 < q.trailing then { q with lastBundle := b, moved := false, trailing := q.trailing - 1 }
  else { q with lastBundle := b, moved := false, entryDue := false, layerOn := true, afterNext := if q.entryDue then false else q.afterNext }

/-- The instructions of a bundle issue in slot order: a wait that is not met joins the hold, a fault is recorded with the rank
of its slot, and otherwise the instruction has its effect (R32, R280, R281). -/
def issueOps (c : CoreId) : List (Nat × Instr) → State → State
  | [], s => s
  | (slot, i) :: rest, s =>
    match issueOf i with
    | none => issueOps c rest s
    | some x =>
      match x.wait s with
      | some h => issueOps c rest (addWait (regionOf c) h s)
      | none =>
        match x.fault s with
        | some f => issueOps c rest (raiseFault c (rankIssue (slot + 1)) f s)
        | none => issueOps c rest (x.effect s)

/-- The sequencer of a core issues the bundle due in this tick; a masked core's bundle takes no effect (R82, R91, R280). -/
def issueBundle (mask : List CoreId) (c : CoreId) (s : State) : State :=
  if (coreAt s c).seq.run = .running then
    let s1 := modSeq s c seqCount
    let q := (coreAt s1 c).seq
    match nextBundle q with
    | none => s1
    | some b =>
      let s2 := modSeq s1 c (fun q => seqFetch q b)
      if mask.contains c then s2
      else
        let w := (cellGet 0#256 q.store b.toNat).toNat
        if parityChecks w then modSeq (issueOps c (bundleOps c w) s2) c (fun q => seqNext q b)
        else raiseFault c rankEcc (fltD .eccUncorrected c 0x11 0) s2
  else s

/-- A START due at this tick takes effect, or its fault is recorded; a masked core's START does not (R94, R390). -/
def startPhase (mask : List CoreId) (c : CoreId) (s : State) : State :=
  if mask.contains c then
    match (coreAt s c).seq.runq with
    | rec_ :: _ =>
      if startIsDue s c && (startCheck s c (coreAt s c).seq.firstStart rec_).isNone then layerStart c s else s
    | [] => s
  else layerStart c s

/-- Operations in progress of a core, those that read the inbound crossing apart (R135). -/
def corePhase (want : Instr → Bool) (c : CoreId) (t : Nat) (found : Vector Tile 32) (s : State) : State :=
  if coreAdvances (coreAt s c) then runOps want c t found s else s

/-- The flit at a region's exit is written into the outbound crossing, or joins the hold where that is full; an all-bypass
region never holds, nor does a flit of a fenced job (R36, R134, R136). -/
def exitPhase (r : RegionId) (d : Dir) (s : State) : State :=
  if exitDue s r d then
    if exitFull s r d then (if exitHolds s r d then addWait r (exitHold s r d) s else s) else exitWrite r d s
  else s

/-- What is in force from the next tick on, once the tick's count has moved (R45). -/
def endOfTick (c : CoreId) (t : Nat) (s : State) : State :=
  if coreAdvances (coreAt s c) then
    modCore (settlePends isEager c (t + 1) s) c (fun k => pruneCore k (t + 1))
  else s

/-- One period of a region's own clock that goes on in holds: the source lanes of the message lane, the memory request crossings,
and the Skidder, whose state a stop keeps (R27, R33, R284). -/
def regionPeriod (r : RegionId) (s : State) : State :=
  (coresOf r).foldl (fun u c =>
    requestPass c (modCore u c (fun k => if k.seq.run = .stopped then k else creditPeriod k (periodAt u c))))
    (lanePeriod r (modRegion s r (fun g => { g with periods := g.periods + 1 })))

/-- A first FXIN read that finds a failing flit, or collides: its core and direction. -/
abbrev BadRead := CoreId × Dir

/-- Every unit of a region in one tick: messages of the management crossing, results that become visible, STARTs, bundles, then the
units' steps, with the waits and faults that the tick meets (R20). The cores of `mask` issue nothing, but for the flits that the
FXIN reads of `bad` pass on all the same (R141, R280). -/
def tickBody (mask : List CoreId) (bad : List BadRead) (r : RegionId) (s : State) : State :=
  let t := tickOf s r
  let cs := coresOf r
  let allDo (f : CoreId → State → State) (u : State) : State := cs.foldl (fun v c => f c v) u
  let found (c : CoreId) : Vector Tile 32 := (coreAt s c).tiles
  let s0 := mgtArrive r s
  let s1 := allDo (fun c => startOfTick c t) s0
  let s2 := allDo (startPhase mask) s1
  let s3 := allDo (issueBundle mask) s2
  let s3' := bad.foldl (fun u x => fxinTake x.1 x.2 (issueKey t 3) u) s3
  let s4 := allDo (fun c => corePhase isFxin c t (found c)) s3'
  let s5 := allDo (fun c u => if coreAdvances (coreAt u c) then runLate c t u else u) s4
  let s6 := allDo (fun c => corePhase (fun i => !isFxin i) c t (found c)) s5
  let s7 := allDo combTick s6
  let s8 := exitPhase r .ccw (exitPhase r .cw s7)
  autoForward r .ccw (autoForward r .cw s8)

/-- The end of a tick: flits hop, the counts move, and results of the next tick's start are in force (R20, R131). -/
def tickEnd (r : RegionId) (s : State) : State :=
  let t := tickOf s r
  let s1 := modRegion (ringHop r s) r (fun g => { g with tick := g.tick + 1 })
  (coresOf r).foldl (fun u c => endOfTick c t (modCore u c keepPast)) (regionPeriod r s1)

/-! ### Stops -/

/-- The first row that a tile load in progress has still to write: of its rows read and not written, else of its next step; a load
with only its scale plane left is at its last row (R104). -/
def loadNext (k : Core) (t : TReg) : Option Nat :=
  let rb := Nat.max 1 (cfgRowBytes (tileOf k t).cfg)
  let read := k.pend.filterMap (fun p =>
    match p.eff with
    | .tile u bytes _ (some _) => if u = t then some (match bytes with | b :: _ => b.1 / rb | [] => (tileOf k t).cfg.rows.toNat) else none
    | _ => none)
  let step := k.ops.filterMap (fun o =>
    if o.next < o.count then
      match o.instr with
      | .sld _ _ u f _ => if u = t then some (f.val + 4 * o.next) else none
      | .frcv _ _ u => if u = t then some (Nat.min (2048 * o.next / rb) (tileOf k t).cfg.rows.toNat) else none
      | _ => none
    else none)
  (read ++ step).head?

/-- A member core stops, or its stop withdraws the conditions on which its region holds. A tile load stopped part-way keeps its next
row (R104, R284). -/
def stopCore (c : CoreId) (s : State) : State :=
  let now := BitVec.ofNat 64 (nowAt s c)
  let s1 := modCore s c (fun k =>
    { k with
      seq := { k.seq with run := .stopped, stoppedAt := now }
      tiles := Vector.ofFn (fun t =>
        match loadNext k t with
        | some n => { tileOf k t with pending := true, nextRow := BitVec.ofNat 8 n }
        | none => tileOf k t) })
  modRegion s1 (regionOf c) (fun g =>
    { g with
      waits := g.waits.filter (fun h => decide (h.core ≠ some c))
      heldOps := g.heldOps.filter (fun i => match issueOf i with | some x => decide (x.core ≠ c) | none => true) })

/-- A tick-valued field moved by the ticks of a stop. -/
def shiftUse (n : Nat) (u : PortUse) : PortUse := { u with first := u.first + n }

/-- A stopped core resumes: what its pipelines still had to do comes as many ticks later as the stop lasted (R285). -/
def resumeCore (c : CoreId) (s : State) : State :=
  let k := coreAt s c
  if k.seq.run = .stopped then
    let n := nowAt s c - k.seq.stoppedAt.toNat
    let arr (a : Arr) : Arr :=
      { a with feedUntil := a.feedUntil + n, rowsIn := a.rowsIn.map (fun r => { r with t := r.t + n }) }
    modCore s c (fun k =>
      { k with
        seq := { k.seq with run := .running, startDue := k.seq.startDue.map (fun d => d + BitVec.ofNat 64 n) }
        arrs := vmap arr k.arrs
        weightFeedUntil := k.weightFeedUntil + n
        mvu := { k.mvu with feedUntil := k.mvu.feedUntil + n }
        vec := { k.vec with
          pipeUntil := k.vec.pipeUntil + n
          sclRec := { k.vec.sclRec with lastWrite := k.vec.sclRec.lastWrite + n }
          sclClosed := k.vec.sclClosed.map (fun z => { z with due := z.due + n }) }
        ops := k.ops.map (fun o => { o with t0 := o.t0 + n })
        pend := k.pend.map (fun p => if isComb p.eff then p else { p with due := p.due + n })
        tileUse := k.tileUse.map (shiftUse n), vecUse := k.vecUse.map (shiftUse n)
        bankUse := k.bankUse.map (shiftUse n), wideUse := k.wideUse.map (shiftUse n) })
  else s

/-- Does the armed match of a region fire: a member core that runs has reached the job tick (R283). -/
def stopMatches (s : State) (r : RegionId) : Bool :=
  let g := regionAt s r
  g.stopEn && (coresOf r).any (fun c =>
    let q := (coreAt s c).seq
    decide (q.run = .running) && !q.firstStart && !partOver q &&
      (match q.job with | some j => decide (j.val = g.stopJob.toNat) | none => false) &&
      decide (q.jtick.toNat = Nat.max g.stopAt.toNat 1))

/-- The stop match of a region fires: the job's member cores in the region stop, FIRED is set and EN cleared, and the debug
trigger drives AUX_SYNC where it is enabled; a fence of the job in the same tick takes precedence (R283, R374). -/
def stopFire (r : RegionId) (s : State) : State :=
  if stopMatches s r then
    let g := regionAt s r
    let s0 := { s with power := { s.power with auxPulse := if s.power.auxDbg && decide (s.power.auxPulse = 0) then 100 else s.power.auxPulse } }
    let s1 := modRegion s0 r (fun g => { g with stopEn := false, stopFired := true })
    (coresOf r).foldl (fun u c =>
      let q := (coreAt u c).seq
      let mine := match q.job with | some j => decide (j.val = g.stopJob.toNat) | none => false
      if mine && decide (q.run = .running) && !partOver q then stopCore c u else u) s1
  else s

/-! ### SCHEDULE_TICK and holds -/

/-- The waits of held slot commands that are still not met. -/
def heldUnmet (s : State) (r : RegionId) : List HoldCond :=
  (regionAt s r).heldOps.filterMap (fun i => (issueOf i).bind (fun x => x.wait s))

/-- The crossing conditions that are unmet now: those of the held commands, else those of the tick due (R32, R34). -/
def unmetNow (s : State) (r : RegionId) : List HoldCond :=
  if (regionAt s r).heldOps.isEmpty then
    (regionAt (tickBody [] [] r (modRegion s r (fun g => { g with waits := [] }))) r).waits
  else heldUnmet s r

/-- A held period of a region: it counts, and the conditions that are unmet after it stay (R33, R34, R37, R41). -/
def heldPeriod (r : RegionId) (s : State) : State :=
  let s1 := countHolds r 0 1 (regionPeriod r s)
  let ws := unmetNow s1 r
  modRegion s1 r (fun g =>
    { g with
      tallyTicks := BitVec.ofNat 64 (satAdd 64 g.tallyTicks.toNat 1)
      waits := ws
      hold := g.hold.map (fun h => { h with periods := h.periods + 1, crossing := if ws.isEmpty then 0 else h.crossing + 1 }) })

/-- A hold ends. An event is at least one held period: one that ends in the period in which it began counts that period (R37). -/
def holdOver (r : RegionId) (s : State) : State :=
  match (regionAt s r).hold with
  | some h => holdEnd r (if h.periods = 0 then heldPeriod r s else s)
  | none => s

/-- Cores of the faults recorded in a region. -/
def faultCores (s : State) (r : RegionId) : List CoreId := ((regionAt s r).faults.map (fun f => f.core)).eraseDups

/-- The first FXIN reads of this tick, among the cores that a fault reaches, that found a failing flit or collided: the flit moves on,
or both are lost, although the bundle takes no effect (R141, R280). -/
def badReads (r : RegionId) (s s1 : State) : List BadRead :=
  let t := tickOf s r
  (faultCores s1 r).flatMap (fun c => [Dir.cw, Dir.ccw].filterMap (fun d =>
    let mine := (coreAt s1 c).ops.any (fun o => decide (o.issued / 8 = t) && (match o.instr with | .fxin _ e _ => decide (e = d) | _ => false))
    let fails := match inboundOf (regionAt s r) d with | f :: _ => !flitOk f | [] => false
    if mine && (fails || (ringOf (coreAt s1 (entryPos r d)) d).isNone) then some (c, d) else none))

/-- What a tick's first pass noted in FLM_ERR of a position stays, although the bundle takes no effect (R141). -/
def keepFlmErr (s1 : State) (c : CoreId) (s : State) : State :=
  let x := coreAt s1 c
  modCore s c (fun k =>
    { k with
      flmCrcErr := k.flmCrcErr || x.flmCrcErr, flmCollision := k.flmCollision || x.flmCollision
      flmDir := x.flmDir, flmTick := x.flmTick })

/-- A tick that met no wait: the cores that a fault reaches issue nothing, the faults fence their jobs, and the stop match
fires (R265, R280, R283). -/
def tickCommit (r : RegionId) (s s1 : State) : State :=
  let fs := (regionAt s1 r).faults
  let s2 :=
    if fs.isEmpty then s1
    else (coresOf r).foldl (fun u c => keepFlmErr s1 c u) (tickBody (faultCores s1 r) (badReads r s s1) r s)
  let s3 := modRegion s2 r (fun g => { g with faults := fs, waits := [] })
  stopFire r (tickEnd r (settleFaults r s3))

/-- Does a region's clock run schedule ticks: it is awake and switches no clock (R20, R43). -/
def regionTicks (s : State) (r : RegionId) : Bool := regionRuns s r && !(regionAt s r).switching

/-- A period of a region that sleeps: ring registers, Flume crossings and the message lane forward, and nothing else runs
(R339). -/
def sleepPeriod (r : RegionId) (s : State) : State :=
  let s1 := exitPhase r .ccw (exitPhase r .cw s)
  lanePeriod r (ringHop r (autoForward r .ccw (autoForward r .cw s1)))

/-- The cores that a tick's accesses find an error in, that the check detects and does not correct, fault in that tick (R237, R281;
spec/12, Table 12). -/
def storeErrors (r : RegionId) (errs : List StoreError) (s : State) : State :=
  errs.foldl (fun u x =>
    if regionOf x.core = r ∧ coreAdvances (coreAt u x.core) = true then
      raiseFault x.core rankEcc (fltD .eccUncorrected x.core (if x.localStore then 0x12 else 0x13) 0) u
    else u) s

/-- SCHEDULE_TICK: one period of a region that does not hold. Where the tick meets an unmet wait, the region holds instead and the
period is the first of the hold (R20, R32, R33). -/
def scheduleTick (r : RegionId) (errs : List StoreError) (s : State) : State :=
  if regionTicks s r && (regionAt s r).hold.isNone then
    let s1 := storeErrors r errs (tickBody [] [] r s)
    let ws := (regionAt s1 r).waits
    if ws.isEmpty then tickCommit r s s1 else heldPeriod r (holdBegin r ws s)
  else if regionRuns s r then s
  else sleepPeriod r s

/-- The hold of held slot commands ends, and they issue together. -/
def issueHeld (r : RegionId) (s : State) : State :=
  settleFaults r ((regionAt s r).heldOps.foldl (fun u i =>
    match issueOf i with
    | none => u
    | some x =>
      match x.fault u with
      | some f => raiseFault x.core (rankIssue (instrSlot i + 1)) f u
      | none => x.effect u) (holdOver r s))

/-- HOLD_RELEASE: once every condition is met, the hold ends and the held bundles issue (R34, R37). -/
def holdRelease (r : RegionId) (s : State) : State :=
  let g := regionAt s r
  if g.hold.isSome && regionTicks s r && (unmetNow s r).isEmpty then
    if g.heldOps.isEmpty then
      let s0 := holdOver r s
      tickCommit r s0 (tickBody [] [] r s0)
    else issueHeld r s
  else s

/-- The channel wait of a peer's region that R219 names beside this one, as DETAIL1 of the fence record. -/
def secondWait (s : State) (h : HoldCond) : Nat :=
  if h.detail0.toNat / 0x100 = 1 ∧ h.detail1.toNat ≠ noPeer then
    let peer := physicalOf s (h.detail1.toNat / 256)
    match peer with
    | none => h.detail1.toNat
    | some p =>
      match (regionAt s (regionOf p)).waits.find? (fun x => decide (x.detail0.toNat / 0x100 = 1)) with
      | some x => (logicalOf s (x.core.getD p)).getD 0 * 256 + (x.detail0.toNat - 0x100)
      | none => h.detail1.toNat
  else h.detail1.toNat

/-- Has the credit watchdog of the queue that a condition waits on expired too (R36, R201). -/
def creditToo (s : State) (h : HoldCond) : Option (QId × BitVec 3 × BitVec 4) :=
  match h.core with
  | none => none
  | some c =>
    let n := h.queue.toNat
    if hq : 0x10 ≤ n ∧ n < 0x20 then
      let qi : QId := ⟨n - 0x10, by omega⟩
      let k := coreAt s c
      if creditLimit k < (qOf k qi).cperiods then (creditBlock k qi (periodAt s c)).map (fun b => (qi, b)) else none
    else none

/-- The fence of one unmet crossing cause; where the credit watchdog fires for the same queue, SKD_STALL notes it (R36, R201, R219). -/
def watchdogFence (s : State) (h : HoldCond) (u : State) : State :=
  match h.core with
  | none => u
  | some c =>
    match creditToo s h with
    | some (q, b) => fenceCore c (fltD .creditStall c q.val b.2.toNat) (stallNote c q b u)
    | none => fenceCore c (fltD .flagTimeout c h.detail0.toNat (secondWait s h)) u

/-- HOLD_WATCHDOG: a region held beyond its limit with a crossing cause unmet fences the jobs that own such causes, and their
conditions are withdrawn (R36). Of several unmet causes of one job the record names the first of the waits, in the order in which the
tick met them (DESIGN CHOICE, log entry 109). -/
def holdWatchdog (r : RegionId) (s : State) : State :=
  let g := regionAt s r
  match g.hold with
  | none => s
  | some h =>
    if Nat.max g.holdwd.toNat 0x1000 < h.crossing then
      let ws := unmetNow s r
      let s1 := ws.foldl (fun u w => watchdogFence s w u) s
      let gone (w : HoldCond) : Bool := match w.core.bind (jobOf s1) with | some j => (jobAt s1 j).state == .fencing | none => false
      modRegion s1 r (fun g =>
        { g with
          waits := g.waits.filter (fun w => !gone w)
          heldOps := g.heldOps.filter (fun i => match issueOf i with
            | some x => !coreFencing (coreAt s1 x.core)
            | none => false) })
    else s

/-! ### The steps of units taken one by one -/

/-- Results of a core that are due and of the kind `want` become visible, and what they bring with them is settled. -/
def settleKind (want : Eff → Bool) (c : CoreId) (s : State) : State :=
  if coreAdvances (coreAt s c) && (regionAt s (regionOf c)).hold.isNone then
    settleFaults (regionOf c) (settlePends want c (nowAt s c) s)
  else s

/-- The steps due in this tick of the operations that `want` selects; an unmet wait holds the region (R32). -/
def runKind (want : Instr → Bool) (c : CoreId) (s : State) : State :=
  let r := regionOf c
  if coreAdvances (coreAt s c) && (regionAt s r).hold.isNone then
    let t := nowAt s c
    let s1 := runOps want c t (coreAt s c).tiles s
    let ws := (regionAt s1 r).waits
    if ws.isEmpty then settleFaults r s1 else holdBegin r ws s
  else s

/-- ACCUMULATOR_WRITE: the sums due at this tick are written into an array's banks (R110, R111). -/
def accumulatorWrite (c : CoreId) (m : Fin 4) (s : State) : State :=
  settleKind (fun e => match e with
    | .acc n _ _ _ _ _ => decide (n = m)
    | .ck n _ _ _ => decide (n = m)
    | .ckClear n _ _ => decide (n = m)
    | .aclr n _ _ => decide (n = m)
    | .rowSum n _ _ _ _ _ _ _ => decide (n = m)
    | _ => false) c s

/-- CHECKSUM_COMPARE: the comparisons due at this tick are made (R125). -/
def checksumCompare (c : CoreId) (m : Fin 4) (s : State) : State :=
  settleKind (fun e => match e with | .compare n _ _ _ _ => decide (n = m) | _ => false) c s

/-- SHADOW_WEIGHT_WRITE: the chunks due at this tick are written into shadow storage (R113). -/
def shadowWeightWrite (c : CoreId) (s : State) : State :=
  settleKind (fun e => match e with | .shadow _ _ _ _ _ _ _ _ => true | _ => false) c s

/-- MVM_LINE: the weight line due at this tick is consumed (R127). -/
def mvmLine (c : CoreId) (s : State) : State := runKind (fun i => match i with | .mvm _ _ => true | _ => false) c s

/-- VECTOR_RESULT_WRITE: vector results due at this tick are written (R147). -/
def vectorResultWrite (c : CoreId) (s : State) : State :=
  settleKind (fun e => match e with
    | .vec _ _ => true
    | .sx _ _ _ => true
    | .sxflag _ _ _ => true
    | .counts _ _ => true
    | .tile _ _ _ none => true
    | _ => false) c s

/-- SCALER_RECORD_WRITE: the closed records due at this tick are written (R165). -/
def scalerRecordWrite (c : CoreId) (s : State) : State :=
  if coreAdvances (coreAt s c) && (regionAt s (regionOf c)).hold.isNone then modCore s c (fun k => sclDue k (nowAt s c)) else s

/-- WIDE_ROW_ADD: the row additions due at this tick are made (R174). -/
def wideRowAdd (c : CoreId) (s : State) : State :=
  settleKind (fun e => match e with | .wide _ _ _ _ _ _ => true | _ => false) c s

/-- FLIT_EXIT_WRITE: the flit at the exit is written into the outbound crossing; where that is full, the region holds (R134). -/
def flitExitWrite (r : RegionId) (d : Dir) (s : State) : State :=
  if regionTicks s r && (regionAt s r).hold.isNone && exitDue s r d then
    if exitFull s r d then (if exitHolds s r d then holdBegin r [exitHold s r d] s else s) else exitWrite r d s
  else s

/-- FXIN_READ: the inbound reads due at this tick in a direction (R135). -/
def fxinRead (r : RegionId) (d : Dir) (s : State) : State :=
  (coresOf r).foldl (fun u c => runKind (fun i => match i with | .fxin _ e _ => decide (e = d) | _ => false) c u) s

/-- FSEND_FLIT_INJECT: the flits due at this tick in a direction enter the sender's ring register (R138). -/
def fsendFlitInject (c : CoreId) (d : Dir) (s : State) : State :=
  let s1 := settleKind (fun e => match e with | .inject f _ => decide (f = d) | _ => false) c s
  runKind (fun i => match i with | .fsend _ x => decide (x.dir = d) | _ => false) c s1

/-- FLIT_CAPTURE: the captures due at this tick in a direction (R140). -/
def flitCapture (c : CoreId) (d : Dir) (s : State) : State :=
  runKind (fun i => match i with
    | .frcv _ e _ => decide (e = d)
    | .wld _ x => decide (x.src.val ≠ 0) && decide (wldDir x = d)
    | _ => false) c s

/-- SLD_GROUP_LOAD: the row groups due at this tick are taken (R196). -/
def sldGroupLoad (c : CoreId) (s : State) : State := runKind (fun i => match i with | .sld _ _ _ _ _ => true | _ => false) c s

/-- SPUT_GROUP_WRITE: the row groups due at this tick are read, and those that have reached the write port enter the queue; a
full queue holds the region (R197). -/
def sputGroupWrite (c : CoreId) (s : State) : State :=
  let r := regionOf c
  if coreAdvances (coreAt s c) && (regionAt s r).hold.isNone then
    let s0 := runLate c (nowAt s c) s
    let ws := (regionAt s0 r).waits
    if ws.isEmpty then runKind (fun i => match i with | .sput _ _ => true | .kout _ _ => true | _ => false) c (settleFaults r s0)
    else holdBegin r ws s
  else s

end Sys2Proof.Machine
end

