-- ==== Sys2Proof/Machine/Device.lean ====
section
/-! DEFINITION. The named operations of the device outside the cores: status codes, alerts, replies, the taking of packets,
retirement and cancellation of jobs, fences of other units, and wake requests. -/

namespace Sys2Proof.Machine

/-- The status codes (spec/00, Table 5; R6). -/
def statusCode : Status → Nat
  | .ok => 0x00 | .engineAbsent => 0x01 | .badOpcode => 0x02 | .badParam => 0x03
  | .shapeMismatch => 0x10 | .tileEmpty => 0x11 | .tileConfig => 0x12
  | .queueOverrun => 0x20 | .queueUnderrun => 0x21 | .creditStall => 0x22 | .flagTimeout => 0x23 | .channelClosed => 0x24
  | .bounds => 0x30 | .length => 0x31
  | .windowOverflow => 0x40 | .latencyProfile => 0x50
  | .eccUncorrected => 0x60 | .checksumMismatch => 0x61 | .linkDown => 0x62 | .peerLost => 0x63 | .capacityReduced => 0x64
  | .refLost => 0x70 | .thermalTrip => 0x71 | .supplyFault => 0x72
  | .commitAborted => 0x80 | .resourceConflict => 0x81 | .signatureInvalid => 0x82 | .lifecycleDenied => 0x83
  | .cancelled => 0xF0

/-- A status from its code; a code that Table 5 of spec/00 does not list reads as BAD_PARAM. -/
def statusOf (n : Nat) : Status :=
  (([.ok, .engineAbsent, .badOpcode, .badParam, .shapeMismatch, .tileEmpty, .tileConfig, .queueOverrun, .queueUnderrun,
    .creditStall, .flagTimeout, .channelClosed, .bounds, .length, .windowOverflow, .latencyProfile, .eccUncorrected,
    .checksumMismatch, .linkDown, .peerLost, .capacityReduced, .refLost, .thermalTrip, .supplyFault, .commitAborted,
    .resourceConflict, .signatureInvalid, .lifecycleDenied, .cancelled] : List Status).find?
      (fun st => decide (statusCode st = n))).getD .badParam

/-- The state with the power block changed. -/
def modPower (s : State) (f : Power → Power) : State := { s with power := f s.power }

/-- The state with the rings changed. -/
def modRings (s : State) (f : Rings → Rings) : State := { s with rings := f s.rings }

/-- The state with the host interface changed. -/
def modHost (s : State) (f : HostIf → HostIf) : State := { s with host := f s.host }

/-- The state with the snapshot engine changed. -/
def modSnap (s : State) (f : Snap → Snap) : State := { s with snap := f s.snap }

/-- The state with the repair engine changed. -/
def modSpare (s : State) (f : Spare → Spare) : State := { s with spare := f s.spare }

/-- The state with the fabric changed. -/
def modFabric (s : State) (f : Fabric → Fabric) : State := { s with fabric := f s.fabric }

/-- A port. -/
def portAt (s : State) (p : PortId) : Port := s.ports.get p

/-- The state with a port changed. -/
def modPort (s : State) (p : PortId) (f : Port → Port) : State := { s with ports := s.ports.set p.val (f (portAt s p)) p.isLt }

/-- A commit group. -/
def groupAt (s : State) (g : Fin 16) : Group := s.groups.get g

/-- The state with a commit group changed. -/
def modGroup (s : State) (g : Fin 16) (f : Group → Group) : State :=
  { s with groups := s.groups.set g.val (f (groupAt s g)) g.isLt }

/-- The device part is an XKN-8848-G, which has none of the engines of CAP_ENGINES (R388). -/
def noEngines (s : State) : Bool := s.part == 0x30#8

/-- MGT runs: registers and rings can be reached (R338, R355). -/
def mgtRuns (s : State) : Bool := s.power.regs.get 26 == .running && s.power.regs.get 27 == .running

/-! ### Packets towards the ports -/

/-- The class of a packet kind (spec/14, Tables 2 and 3). -/
def pktClass (pk : BitVec 4) : Fin 4 :=
  if pk = 1 then 0 else if pk = 2 then 1 else if pk = 3 then 2 else 3

/-- A link packet as it is laid into flits: its header, and its data in whole units of 32 bytes (R296; spec/14, Table 3). -/
def pktBytes (x : LinkPkt) : List Byte :=
  let units := ceilDiv x.data.length 32
  leBytes 8 (packFields [(0, x.pk.toNat), (4, x.dst.toNat), (18, x.src.toNat), (32, units), (39, x.core.val), (45, x.cmd.toNat)]) ++
    leBytes 8 (packFields [(0, x.addr.toNat), (48, x.status.toNat)]) ++ x.data ++ List.replicate (32 * units - x.data.length) 0

/-- A packet joins a port's queue (R296). -/
def queuePkt (p : PortId) (came : Option PortId) (x : LinkPkt) (owner : Option (CoreId × Nat)) (final : Bool) (s : State) : State :=
  modPort s p (fun q =>
    { q with queue := q.queue ++
      [{ pkt := x, cls := pktClass x.pk, owner := owner, left := 16 + 32 * ceilDiv x.data.length 32, final := final, came := came }] })

/-- A control message of this device: packet kind, and the parameters in its ADDR and data (spec/14, Table 3). -/
def ctlPkt (s : State) (pk : Nat) (dst : BitVec 14) (params : Nat) (data : List Byte) : LinkPkt :=
  { pk := BitVec.ofNat 4 pk, dst := dst, src := s.fabric.id, core := 0, cmd := 0, addr := BitVec.ofNat 48 params, status := 0
    data := data }

/-- A message to the parent (R306, R308). -/
def sendUp (pk params : Nat) (data : List Byte) (s : State) : State :=
  if h : s.fabric.parent.toNat < 10 then queuePkt ⟨s.fabric.parent.toNat, h⟩ none (ctlPkt s pk 0 params data) none true s else s

/-- A message to every tree child (R306, R308, R319). -/
def sendDown (pk params : Nat) (data : List Byte) (s : State) : State :=
  s.fabric.kids.foldl (fun u p => queuePkt p none (ctlPkt s pk 0 params data) none true u) s

/-- Is a group fabric-wide (R308). -/
def fabricWide (s : State) (g : Fin 16) : Bool := s.fabric.grp.getLsbD g.val

/-! ### Alerts and the Waton chain -/

/-- An In-Band Interrupt signals an alert on the chain, once the target has an address and its events are enabled: the
mandatory data byte and the status code (R298, R299). -/
def signalIbi (st : Status) (s : State) : State :=
  if s.wtn.valid ∧ s.wtn.events.getLsbD 0 then
    { s with wtn := { s.wtn with ibi := 0x00#8 :: leBytes 2 (statusCode st) } }
  else s

/-- Waiting alerts with one raised: merged where one of its status waits (R254). -/
def alertJoin (st : Status) (detail : Word) : List Alert → List Alert
  | [] => [{ status := st, detail := detail, merged := 0 }]
  | a :: r =>
    if a.status = st then { a with detail := detail, merged := BitVec.ofNat 16 (satAdd 16 a.merged.toNat 1) } :: r
    else a :: alertJoin st detail r

/-- ALERT_RAISE and IBI_ALERT: an alert is raised (R254, R255, R299). -/
def raiseAlert (st : Status) (detail : Word) (s : State) : State :=
  let merges := s.rings.alerts.any (fun a => decide (a.status = st))
  signalIbi st (modRings s (fun r =>
    { r with
      alerts := alertJoin st detail r.alerts
      evtMerged := if merges then BitVec.ofNat 32 (satAdd 32 r.evtMerged.toNat 1) else r.evtMerged }))

/-! ### Packets and replies -/

/-- The result bytes 8 to 31 of a reply from (byte, value) fields. -/
def resultOf (fs : List (Nat × Nat)) : BitVec 192 := BitVec.ofNat 192 (packFields (fs.map (fun f => ((f.1 - 8) * 8, f.2))))

/-- A command's reply is ready and joins the internal store (R253). -/
def putReply (op : Nat) (tag : BitVec 16) (irq : Bool) (st : Status) (result : BitVec 192) (s : State) : State :=
  modRings s (fun r =>
    { r with store := r.store ++ [{ status := st, opcode := BitVec.ofNat 8 op, kind := 0x00, tag := tag, merged := 0,
                                    result := result, irq := irq }] })

/-- Is stream 0 keyed, or IDE_ONLY clear (R366). -/
def ringsKeyed (s : State) : Bool := !s.ident.ideOnly || (s.spdm.ide.get 0).isSome

/-- Does the firmware read the next packet from the ring (R251, R253, R366). -/
def mayRead (h : PktHdr) (s : State) : Bool :=
  let r := s.rings
  mgtRuns s && r.enable && !r.stopped && s.host.linkUp && ringsKeyed s && decide (r.head ≠ r.tail) &&
    decide (r.store.length < 256) && (!h.ordered || r.waiting.isEmpty)

/-- Does the firmware take the next packet: its read succeeds (R251). -/
def canTake (h : PktHdr) (s : State) : Bool := mayRead h s && h.readOk

/-- CR_HEAD advances as the packet is taken (R251). -/
def takeHead (s : State) : State := modRings s (fun r => { r with head := r.head + 1 })

/-- What a packet does once taken: it replies, or it waits. -/
inductive PktResult where
  | done (st : Status) (result : BitVec 192) (s : State)
  | waits (a : Awaits) (s : State)

/-- A refusal: the reply's result bytes are zero (R253). -/
def refuse (st : Status) (s : State) : PktResult := .done st 0 s

/-- A packet of opcode `op`: it is taken where the firmware takes packets; a reserved field is answered BAD_PARAM with the
result bytes `none_` (R252, R253), before an engine that the part lacks is looked for (R2; DESIGN CHOICE, log entry 105). A read of the
ring that fails stops the taking of packets (R251). -/
def onPacket (op : Nat) (h : PktHdr) (none_ : BitVec 192) (body : State → PktResult) (s : State) : State :=
  if canTake h s then
    let s1 := takeHead s
    if h.rsv then putReply op h.tag h.irq .badParam none_ s1
    else
      match body s1 with
      | .done st res s2 => putReply op h.tag h.irq st res s2
      | .waits a s2 =>
        modRings s2 (fun r => { r with waiting := r.waiting ++ [{ opcode := BitVec.ofNat 8 op, tag := h.tag, irq := h.irq, awaits := a }] })
  else if mayRead h s then modRings s (fun r => { r with dmaErr := true, stopped := true })
  else s

/-- Packets that waited for `a` reply. -/
def answer (a : Awaits) (st : Status) (result : BitVec 192) (s : State) : State :=
  let hits := s.rings.waiting.filter (fun c => decide (c.awaits = a))
  let s1 := modRings s (fun r => { r with waiting := r.waiting.filter (fun c => decide (c.awaits ≠ a)) })
  hits.foldl (fun u c => putReply c.opcode.toNat c.tag c.irq st result u) s1

/-! ### Jobs -/

/-- A job that has retired (R259). -/
def jobRetired (b : Job) : Bool :=
  match b.state with
  | .done | .fenced | .cancelled => true
  | _ => false

/-- A job not retired and not FREE. -/
def jobLive (b : Job) : Bool := !jobRetired b && b.state != .free

/-- An image slot (R257). -/
def imageAt (s : State) (slot : Nat) : Option Image := (s.images.find? (fun e => e.1 == slot)).map (fun e => e.2)

/-- A job's windows: the window set of its image slot (R257). -/
def jobWindows (s : State) (b : Job) : List Window :=
  match imageAt s b.slot.toNat with
  | some i => i.windows
  | none => []

/-- Does a DRAM range hold a byte of a stack (R18). -/
def rangeTouches (s : State) (base size : Nat) (k : Fin 8) : Bool :=
  if size = 0 then false
  else if s.stackLocal then decide (base / stackBytes ≤ k.val ∧ k.val ≤ (base + size - 1) / stackBytes)
  else (List.range (Nat.min 8 ((base + size - 1) / 4096 - base / 4096 + 1))).any (fun i =>
    decide (fieldOf (base / 4096 * 4096 + i * 4096) 12 3 = k.val))

/-- Does a window of a job hold a byte of a stack (R232, R236, R242). -/
def jobTouches (s : State) (b : Job) (k : Fin 8) : Bool := (jobWindows s b).any (fun w => rangeTouches s w.base w.size k)

/-- MGT periods as the job table records them (R389). -/
def nowPeriod (s : State) : BitVec 32 := BitVec.ofNat 32 s.mgtPeriods.toNat

/-- A job as it retires (R254, R259). -/
def retired (s : State) (st : JobState) (b : Job) : Job :=
  { b with state := st, endPeriod := nowPeriod s, evt := b.notify, taken := false, toPush := [], preds := [], pred := 0 }

/-- Jobs that wait for a predecessor in `js`: their outstanding predecessors name one of them. -/
def successorsOf (s : State) (js : List JobId) : List JobId :=
  jobsWhere s (fun b => (b.state == .waiting || b.state == .held) && b.preds.any (fun p => js.contains p))

/-- A job CANCELLED because of job `cause`; 0xFFFF for a FENCE (R260, R267; spec/12, Table 11). -/
def cancelJob (j : JobId) (cause : Nat) (s : State) : State :=
  modJob s j (fun b =>
    { retired s .cancelled b with
      status := .cancelled
      fence := { pcore := 0xFF#8, region := 0xFF#8, ltag := 0, bundle := 0, ltick := 0,
                 detail0 := BitVec.ofNat 32 cause, detail1 := 0 } })

/-- The successors of a job that was fenced or cancelled are cancelled, and their successors in turn (R260). -/
def cancelAfter : Nat → JobId → State → State
  | 0, _, s => s
  | fuel + 1, j, s =>
    (successorsOf s [j]).foldl (fun u k =>
      if (jobAt u k).state = .cancelled then u else cancelAfter fuel k (cancelJob k j.val u)) s

/-- SUCCESSOR_CANCEL (R260). -/
def cancelSuccessors (j : JobId) (s : State) : State := cancelAfter (s.jobs.length + 1) j s

/-- SUCCESSOR_DECREMENT: a DONE retirement decrements its successors' counts; a WAITING job at 0 is READY (R260). -/
def satisfySuccessors (j : JobId) (s : State) : State :=
  (successorsOf s [j]).foldl (fun u k => modJob u k (fun b =>
    let n := (b.preds.filter (fun p => decide (p = j))).length
    let left := b.pred.toNat - n
    { b with
      preds := b.preds.filter (fun p => decide (p ≠ j)), pred := BitVec.ofNat 16 left
      state := if b.state = .waiting ∧ left = 0 then .ready else b.state })) s

/-- A fence by a unit outside the cores (spec/12, Tables 10 and 11). -/
def unitFault (st : Status) (region : Nat) (d0 d1 : Nat) : FaultInfo :=
  { status := st, pcore := none, region := BitVec.ofNat 8 region, detail0 := BitVec.ofNat 32 d0, detail1 := BitVec.ofNat 32 d1 }

/-- Fence every job that satisfies `p` (R265). -/
def fenceWhere (p : Job → Bool) (i : FaultInfo) (s : State) : State :=
  (jobsWhere s p).foldl (fun u j => fenceJob j i u) s

/-- Cancel every HELD, WAITING and READY job (R337, R347). -/
def cancelWaiting (s : State) : State :=
  (jobsWhere s (fun b => b.state == .held || b.state == .waiting || b.state == .ready)).foldl
    (fun u j => cancelJob j 0xFFFF u) s

/-- A job refused at its first START becomes FENCED with a status, and its successors are cancelled (R261). -/
def refuseStart (j : JobId) (st : Status) (c : Option CoreId) (s : State) : State :=
  cancelSuccessors j (modJob s j (fun b =>
    { retired s .fenced b with
      status := st
      fence := { pcore := (match c with | some c => BitVec.ofNat 8 c.val | none => 0xFF#8)
                 region := (match c with | some c => BitVec.ofNat 8 (regionOf c).val | none => 0x40#8)
                 ltag := 0, bundle := 0, ltick := 0, detail0 := 0, detail1 := 0 } }))

/-! ### Power states -/

/-- The power state of a region (R338). -/
def powAt (s : State) (n : Fin 28) : RegPower := s.power.regs.get n

/-- The state with a region's power state set. -/
def setPow (s : State) (n : Fin 28) (p : RegPower) : State :=
  modPower s (fun w => { w with regs := w.regs.set n.val p n.isLt })

/-- The region number of a compute region (R338). -/
def powCg (r : RegionId) : Fin 28 := ⟨r.val, by omega⟩

/-- The region number of a memory region (R338). -/
def powMem (k : Fin 8) : Fin 28 := ⟨17 + k.val, by omega⟩

/-- Does a memory region run. -/
def memRuns (s : State) (k : Fin 8) : Bool := powAt s (powMem k) == .running

/-- The order of the governor's queue: MGT and IO0 first, then by region number (R343, R344). -/
def govKey : GovReq → Nat
  | .wake n => if 26 ≤ n.val then 0 else n.val + 1
  | .raise r _ => r.val + 1

/-- A request joins the governor's queue (R343). -/
def govInsert (x : GovReq) : List GovReq → List GovReq
  | [] => [x]
  | y :: r => if govKey x < govKey y then x :: y :: r else y :: govInsert x r

/-- May the governor admit wakes: neither a VDD_CORE nor a VDD_SRAM fault is set (R352). -/
def wakesAllowed (s : State) : Bool := !(s.power.supply.getLsbD 0) && !(s.power.supply.getLsbD 1)

/-- A sleeping region joins the governor's queue; a region queued, waking or running ignores the request (R343). HARD puts the
regions to sleep and bars no wake that is asked for later (R351; DEDUCED, log entry 99). -/
def wakeQueue (n : Fin 28) (s : State) : State :=
  if powAt s n = .asleep then
    modPower (setPow s n .queued) (fun w => { w with queue := govInsert (.wake n) w.queue })
  else s

/-- WAKE_REQUEST of the Landing, the host path or firmware, which no sleep request withdraws (R341, R342). -/
def wakeRegion (n : Fin 28) (s : State) : State :=
  let s1 := wakeQueue n s
  if powAt s1 n = .queued then modPower s1 (fun w => { w with kept := w.kept ||| BitVec.ofNat 28 (2 ^ n.val) }) else s1

end Sys2Proof.Machine
end

