-- ==== Sys2Proof/Machine/Access.lean ====
section
/-! DEFINITION. Register accesses from the host: when they arrive, and which bits of a register they cover (R10, R246, R248,
R366). -/

namespace Sys2Proof.Machine

/-- Do requests from the host reach the device: MGT and IO0 run and the PCIe link is up (R246, R355). -/
def hostReaches (s : State) : Bool := mgtRuns s && s.host.linkUp

/-- May a request be served: under IDE_ONLY only one that arrived in a keyed selective stream (R366). -/
def ideAllows (keyed : Bool) (s : State) : Bool := keyed || !s.ident.ideOnly

/-- Is a BAR 0 access served: its TLP is not poisoned, and it came as IDE_ONLY asks (R245, R366). -/
def barServes (b : BarAcc) (s : State) : Bool := !b.poisoned && ideAllows b.keyed s

/-- The state with the answer to the last access from the host. -/
def answerHost (x : Completion) (s : State) : State := modHost s (fun h => { h with out := x })

/-- A poisoned TLP is an Unsupported Request, which AER reports (R245). -/
def poisonedWrite (s : State) : State := answerHost .unsupported (modHost s (fun h => { h with aerPoisoned := true }))

/-- A BAR 0 write with effect `f` (R245, R248, R366). -/
def barWrite (b : BarAcc) (f : State → State) (s : State) : State :=
  if hostReaches s then
    if barServes b s then f (answerHost .done s)
    else if b.poisoned then poisonedWrite s
    else answerHost .unsupported s
  else s

/-- A 64-bit value of which a write covers the bits of `v` that its bytes hold, and the others are those of `old` (R248). -/
def lanesOf (l : Lanes) (old v : Nat) : Nat :=
  match l with
  | .all => v % 2 ^ 64
  | .low => fieldOf old 32 32 * 2 ^ 32 + v % 2 ^ 32
  | .high => fieldOf v 32 32 * 2 ^ 32 + old % 2 ^ 32

/-- The bits that a write sets in the WO and W1C fields it covers: the others are not written. -/
def strobes (b : BarAcc) (v : Word) : Nat := lanesOf b.lanes 0 v.toNat

/-- The RW fields of a register that held `old` after a write. -/
def merged (b : BarAcc) (old : Nat) (v : Word) : Nat := lanesOf b.lanes old v.toNat

end Sys2Proof.Machine
end

