-- ==== Sys2Proof/Machine/Events.lean ====
section
/-! DEFINITION. The commands of a compute region's clock and of its units' steps: schedule ticks, holds, stretches and the results
of operations in progress (spec/02, 04 to 09). -/

namespace Sys2Proof.Machine

/-- SCHEDULE_TICK (R20). -/
def execScheduleTick (x : TickOf) (s : State) : Host.Outcome State Fault Refusal :=
  .next (scheduleTick x.region x.errs s)

/-- HOLD_WATCHDOG (R36). -/
def execHoldWatchdog (r : RegionId) (s : State) : Host.Outcome State Fault Refusal := .next (holdWatchdog r s)

/-- ACCUMULATOR_WRITE (R110, R111). -/
def execAccumulatorWrite (c : CoreId) (m : Fin 4) (s : State) : Host.Outcome State Fault Refusal := .next (accumulatorWrite c m s)

/-- CHECKSUM_COMPARE (R125). -/
def execChecksumCompare (c : CoreId) (m : Fin 4) (s : State) : Host.Outcome State Fault Refusal := .next (checksumCompare c m s)

/-- SHADOW_WEIGHT_WRITE (R113). -/
def execShadowWeightWrite (c : CoreId) (s : State) : Host.Outcome State Fault Refusal := .next (shadowWeightWrite c s)

/-- MVM_LINE (R127). -/
def execMvmLine (c : CoreId) (s : State) : Host.Outcome State Fault Refusal := .next (mvmLine c s)

/-- VECTOR_RESULT_WRITE (R147). -/
def execVectorResultWrite (c : CoreId) (s : State) : Host.Outcome State Fault Refusal := .next (vectorResultWrite c s)

/-- SCALER_RECORD_WRITE (R165). -/
def execScalerRecordWrite (c : CoreId) (s : State) : Host.Outcome State Fault Refusal := .next (scalerRecordWrite c s)

/-- WIDE_ROW_ADD (R174). -/
def execWideRowAdd (c : CoreId) (s : State) : Host.Outcome State Fault Refusal := .next (wideRowAdd c s)

/-- FLIT_EXIT_WRITE (R134). -/
def execFlitExitWrite (r : RegionId) (d : Dir) (s : State) : Host.Outcome State Fault Refusal := .next (flitExitWrite r d s)

/-- FXIN_READ (R135). -/
def execFxinRead (r : RegionId) (d : Dir) (s : State) : Host.Outcome State Fault Refusal := .next (fxinRead r d s)

/-- FSEND_FLIT_INJECT (R138). -/
def execFsendFlitInject (c : CoreId) (d : Dir) (s : State) : Host.Outcome State Fault Refusal := .next (fsendFlitInject c d s)

/-- FLIT_CAPTURE (R140). -/
def execFlitCapture (c : CoreId) (d : Dir) (s : State) : Host.Outcome State Fault Refusal := .next (flitCapture c d s)

/-- AUTO_FORWARD (R136). -/
def execAutoForward (r : RegionId) (d : Dir) (s : State) : Host.Outcome State Fault Refusal := .next (autoForward r d s)

/-- SLD_GROUP_LOAD (R196). -/
def execSldGroupLoad (c : CoreId) (s : State) : Host.Outcome State Fault Refusal := .next (sldGroupLoad c s)

/-- SPUT_GROUP_WRITE (R197). -/
def execSputGroupWrite (c : CoreId) (s : State) : Host.Outcome State Fault Refusal := .next (sputGroupWrite c s)

end Sys2Proof.Machine
end

