-- ==== Sys2Proof/Machine/Jobs.lean ====
section
/-! DEFINITION. The Landing: graphs, starts, stops, completion and fences of jobs (R48, R232, R259 to R267, R283, R285, R306,
R327, R342, R350). -/

namespace Sys2Proof.Machine

/-! ### Graph nodes -/

/-- A graph node as its 64 bytes give it (spec/12, Table 9). -/
structure GraphNode where
  index : JobId
  slot : Nat
  tag : BitVec 16
  hold : Bool
  notify : Bool
  cores : Word
  preds : List JobId
  reserved : Bool
  deriving DecidableEq, Repr

/-- A 16-bit number as a job table index (R259). -/
def jobIx (n : Nat) : JobId := Fin.ofNat 65536 n

/-- A graph node from its bytes (spec/12, Table 9). -/
def parseNode (bs : List Byte) : GraphNode :=
  let n (i k : Nat) : Nat := leNat ((bs.drop i).take k)
  let flags := n 6 1
  let np := n 7 1
  { index := jobIx (n 0 2), slot := n 2 2, tag := BitVec.ofNat 16 (n 4 2), hold := bitOf flags 0, notify := bitOf flags 1
    cores := BitVec.ofNat 64 (n 8 8)
    preds := (List.range (Nat.min np 16)).map (fun i => jobIx (n (16 + 2 * i) 2))
    reserved := decide (4 ≤ flags) || decide (16 < np) || decide (1024 ≤ n 2 2) || decide (n 48 16 ≠ 0) ||
      (List.range 16).any (fun i => decide (np ≤ i) && decide (n (16 + 2 * i) 2 ≠ 0)) }

/-- The first check of R260 that a node of the graph fails; `earlier` and `later` are the indices around it in the array. -/
def nodeCheck (s : State) (earlier later : List JobId) (x : GraphNode) : Option Status :=
  let b := jobAt s x.index
  if !((b.state == .free || jobRetired b) && !b.evt) || earlier.contains x.index || later.contains x.index then
    some .resourceConflict
  else if (match imageAt s x.slot with | some i => decide (i.cores ≠ x.cores) | none => true) || x.reserved then some .badParam
  else if x.preds.any (fun p => later.contains p) then some .badParam
  else if x.preds.any (fun p => decide (p = x.index) || ((jobAt s p).state == .free && !earlier.contains p)) then some .badParam
  else none

/-- The first node refused, with its place in the array (R260). -/
def graphCheck (s : State) : Nat → List JobId → List GraphNode → Option (Nat × Status)
  | _, _, [] => none
  | i, earlier, x :: r =>
    match nodeCheck s earlier (r.map (fun y => y.index)) x with
    | some st => some (i, st)
    | none => graphCheck s (i + 1) (earlier ++ [x.index]) r

/-- A node is entered into the job table (R260). -/
def enterNode (s : State) (x : GraphNode) : State :=
  let st (p : JobId) : JobState := (jobAt s p).state
  let open_ := x.preds.filter (fun p => decide (st p ≠ .done))
  let fresh : Job :=
    { freeJob with
      pred := BitVec.ofNat 16 open_.length, preds := open_, tag := x.tag, cores := x.cores, slot := BitVec.ofNat 10 x.slot
      notify := x.notify
      state := if x.hold then .held else if open_.isEmpty then .ready else .waiting }
  let s1 := setJob s x.index fresh
  match open_.find? (fun p => decide (st p = .fenced) || decide (st p = .cancelled)) with
  | some p => cancelJob x.index p.val s1
  | none => s1

/-- SUBMIT_GRAPH: all nodes are entered, or none (R260). -/
def submitGraph (addr count : Nat) (s : State) : PktResult :=
  let none_ : BitVec 192 := resultOf [(10, 0xFFFF)]
  if addr % 64 ≠ 0 ∨ count = 0 ∨ 4096 < count ∨ isDram s addr (64 * count) = false then .done .badParam none_ s
  else
    let nodes := (List.range count).map (fun i => parseNode (dramRead s (addr + 64 * i) 64))
    match graphCheck s 0 [] nodes with
    | some (i, st) => .done st (resultOf [(10, i)]) s
    | none => .done .ok (resultOf [(8, count), (10, 0xFFFF)]) (nodes.foldl enterNode s)

/-! ### Starting a job -/

/-- A barrier that is armed with a job, or whose release has come for it (R306). -/
def barrierHolds (s : State) (j : JobId) : Bool :=
  s.fabric.barm.toList.any (fun b => decide (b.job.toNat = j.val) && (decide (b.mode = 0b10) || b.release.isSome))

/-- The supported latency profiles, CAP_LATPROF.SUPPORTED (spec/02, Table 10). -/
def profilesOf (s : State) : Nat := if s.fuses.stepping = 0 then 0x01 else 0x03

/-- Does the Landing start any job (R326, R337, R347, R352; spec/17). -/
def startsAllowed (s : State) : Bool :=
  s.power.ready && !s.snap.halted && !s.power.lost && !(s.power.supply.getLsbD 2) && !s.spare.draining &&
    decide (s.ident.lcState ≠ 0b100)

/-- Does an array repair of a core wait to commit. -/
def arrayWaits (s : State) (c : CoreId) : Bool :=
  s.spare.repairs.any (fun g => match g with | .array d _ _ _ => decide (d = c) | _ => false)

/-- May a core take a new job: it runs none, no self-test, fill or array repair names it, and it has not failed (R261, R324, R325,
R327). -/
def coreFree (s : State) (c : CoreId) : Bool :=
  (jobOf s c).isNone && !s.spare.testing.contains c && !s.spare.fills.any (fun f => decide (f.2 = c)) && !arrayWaits s c &&
    (!s.spare.failed.contains c || s.spare.unshed.contains c)

/-- Is a core held by a job that the Landing has taken and that waits for its regions (R342). -/
def coreTaken (s : State) (j : JobId) (c : CoreId) : Bool :=
  (jobsWhere s (fun b => b.taken)).any (fun k => decide (k ≠ j) && (jobCores s (jobAt s k)).contains c)

/-- May a READY job start: its cores are free, and no barrier holds it. -/
def jobCan (s : State) (j : JobId) : Bool :=
  (jobAt s j).state == .ready && !barrierHolds s j && (jobCores s (jobAt s j)).all (fun c => coreFree s c && !coreTaken s j c)

/-- Is it a job's turn: no READY job of a lower index that may start shares a core with it (R261). -/
def jobTurn (s : State) (j : JobId) : Bool :=
  jobCan s j && (jobsWhere s (fun b => b.state == .ready)).all (fun k =>
    !(decide (k.val < j.val) && jobCan s k && decide ((jobAt s k).cores &&& (jobAt s j).cores ≠ 0)))

/-- The section of an image for a logical core. -/
def sectionOf (i : Image) (l : Nat) : Option ImageSection := i.sections.find? (fun x => x.logical == l)

/-- The first record of a core's part of a job. -/
def firstRecord (s : State) (b : Job) (c : CoreId) : Option CfgRecord :=
  match imageAt s b.slot.toNat, logicalOf s c with
  | some i, some l => (sectionOf i l).bind (fun x => x.records.head?)
  | _, _ => none

/-- Wheel entries that a logical core owns in a memory region, reserve entries apart (R232). -/
def wheelOwns (s : State) (k : Fin 8) (l : Nat) : Bool := (memAt s k).wheel.toList.any (fun e => decide (e.toNat = l))

/-- R232: a member core with a stream queue of LIMIT above 0, as its first record leaves it, owns no entry of a memory region
whose stack holds a byte of the job's windows. -/
def wheelLacks (s : State) (b : Job) (c : CoreId) (rec_ : CfgRecord) : Bool :=
  let k := recordApply s c (coreAt s c) rec_
  (List.finRange 16).any (fun q => decide (0 < (qOf k q).limit.toNat)) &&
    (List.finRange 8).any (fun m => jobTouches s b m && !wheelOwns s m ((logicalOf s c).getD 64))

/-- The first of some cores whose configuration, as its first record leaves it, satisfies `p`. -/
def firstLeft (s : State) (b : Job) (cs : List CoreId) (p : Core → Bool) : Option CoreId :=
  cs.find? (fun c => match firstRecord s b c with | some r => p (recordApply s c (coreAt s c) r) | none => false)

/-- The refusals of R261 in its order, with that of R327 before the wheel check and that of R350 beside that of R236, and then the
START checks of R390 for every member core (R390). -/
def startRefusal (s : State) (j : JobId) : Option (Status × Option CoreId) :=
  let b := jobAt s j
  let cs := jobCores s b
  match imageAt s b.slot.toNat with
  | none => some (.badParam, none)
  | some i =>
    if !bitOf (profilesOf s) (i.profile - 1) then some (.latencyProfile, none)
    else if i.coreMap ≠ s.capCores.toList then some (.badParam, none)
    else if s.spare.unshed.any (fun c => cs.contains c) then some (.resourceConflict, none)
    else
      match cs.find? (fun c => match firstRecord s b c with | some r => wheelLacks s b c r | none => false) with
      | some c => some (.resourceConflict, some c)
      | none =>
        match (firstLeft s b cs checksumBad).or (firstLeft s b cs combModeBad) with
        | some c => some (.resourceConflict, some c)
        | none =>
          if s.power.trip || (List.finRange 8).any (fun m => (memAt s m).trip && jobTouches s b m) then some (.thermalTrip, none)
          else if s.wiping then some (.badParam, none)
          else firstSome (cs.map (fun c =>
            match firstRecord s b c with
            | some r => (startCheck s c true r).map (fun st => (st, some c))
            | none => some (.badParam, some c)))

/-- A member core receives its job: the loader has written its schedule store, junction table and latency profile, and the first
record awaits the start, which comes through the management crossing (R48, R83, R261, R263). -/
def coreLoads (s : State) (j : JobId) (i : Image) (c : CoreId) : State :=
  match (logicalOf s c).bind (sectionOf i) with
  | none => s
  | some x =>
    let jw (n : Nat) : Nat := (x.jtab.getD n 0).toNat
    let s1 := modRegion s (regionOf c) (fun g => { g with mgtIn := g.mgtIn ++ [.start c] })
    modCore s1 c (fun k =>
      let juncs := Vector.ofFn (fun (n : Fin 8) =>
        juncWrite (juncWrite (k.seq.juncs.get n) false (jw n.val)) true (jw (8 + n.val)))
      { k with
        seq := { k.seq with
          run := .running, job := some j, runq := x.records.take 1, awaiting := true, startDue := none, firstStart := true
          afterNext := false, layerOn := false, entryDue := false, trailing := 0, repeats := [], shadow := none
          finishing := false, finalLayer := false, store := x.bundles, juncs := juncs
          latprof := BitVec.ofNat 3 (i.profile - 1) }
        skd := { k.skd with windows := i.windows } })

/-- FIRST_START: the Landing sends the start to every member core (R263). -/
def sendStart (j : JobId) (s : State) : State :=
  let b := jobAt s j
  match imageAt s b.slot.toNat with
  | none => s
  | some i =>
    let cs := jobCores s b
    let s1 := cs.foldl (fun u c => coreLoads u j i c) s
    let rest := cs.filterMap (fun c => ((logicalOf s c).bind (sectionOf i)).map (fun x => (c, x.records.drop 1)))
    modJob s1 j (fun b =>
      { b with state := .running, startPeriod := nowPeriod s, taken := false, toPush := rest
               holdEvents := 0, holdTicks := 0 })

/-- The regions that a job needs awake: those of its member cores and of its windows (R342). -/
def jobRegions (s : State) (b : Job) : List (Fin 28) :=
  ((jobCores s b).map (fun c => powCg (regionOf c))).eraseDups ++
    ((List.finRange 8).filter (fun k => jobTouches s b k)).map powMem

/-- Another READY job shares a member core with this one (R262). -/
def orderChoice (s : State) (j : JobId) : Bool :=
  (jobsWhere s (fun b => b.state == .ready)).any (fun k =>
    decide (k ≠ j) && decide ((jobAt s k).cores &&& (jobAt s j).cores ≠ 0))

/-- A job that the Landing takes starts once every region it needs runs; until then it keeps its cores and wakes them
(R261, R262, R342). -/
def takeJob (j : JobId) (s : State) : State :=
  match startRefusal s j with
  | some (st, c) => refuseStart j st c s
  | none =>
    let b := jobAt s j
    let need := jobRegions s b
    if need.all (fun n => powAt s n == .running) then
      let s1 := if orderChoice s j then { s with orderChoices := BitVec.ofNat 64 (satAdd 64 s.orderChoices.toNat 1) } else s
      sendStart j s1
    else need.foldl (fun u n => wakeRegion n u) (modJob s j (fun b => { b with taken := true }))

/-- JOB_START (R261). -/
def jobStart (j : JobId) (s : State) : State := if startsAllowed s && jobTurn s j then takeJob j s else s

/-! ### Stops -/

/-- Stop the member cores of a job that run and satisfy `p`; a core whose part has ended is not stopped (R267, R283, R284). -/
def stopMembers (j : JobId) (p : CoreId → Bool) (s : State) : State :=
  (membersOf s j).foldl (fun u c =>
    if p c && decide ((coreAt u c).seq.run = .running) && !partOver (coreAt u c).seq then stopCore c u else u) s

/-- STOP_AT_TICK_MATCH: the match of a region fires, and the Landing stops the job's cores in regions not armed for it (R283). -/
def stopAtMatch (r : RegionId) (s : State) : State :=
  let s1 := stopFire r s
  let g := regionAt s1 r
  let j := jobIx g.stopJob.toNat
  let armed (c : CoreId) : Bool :=
    let x := regionAt s1 (regionOf c)
    x.stopEn && decide (x.stopJob = g.stopJob)
  if g.stopFired && !g.stopEn && (membersOf s1 j).any (fun c => decide (regionOf c = r) && (coreAt s1 c).seq.run == .stopped) then
    stopMembers j (fun c => !armed c) s1
  else s1

/-- JOB_STOPPED: every member core whose part has not ended has stopped (R267, R283). -/
def jobStopped (j : JobId) (s : State) : State :=
  let ms := (membersOf s j).filter (fun c => !partOver (coreAt s c).seq)
  if (jobAt s j).state = .running ∧ ms ≠ [] ∧ ms.all (fun c => (coreAt s c).seq.run == .stopped) = true then
    answer (.fence j) .ok 0 (modJob s j (fun b => { b with state := .stopped }))
  else s

/-- START with mode release (R267). -/
def startRelease (j : JobId) (s : State) : PktResult :=
  let b := jobAt s j
  if b.state = .held then
    .done .ok 0 (setJob s j { b with state := if b.pred.toNat = 0 then .ready else .waiting })
  else refuse .badParam s

/-- START with mode resume (R267, R285). -/
def startResume (j : JobId) (s : State) : PktResult :=
  if (jobAt s j).state = .stopped then
    .done .ok 0 ((membersOf s j).foldl (fun u c => resumeCore c u) (modJob s j (fun b => { b with state := .running })))
  else refuse .badParam s

/-- FENCE with mode stop (R267). -/
def fenceStop (j : JobId) (s : State) : PktResult :=
  if (jobAt s j).state = .running then .waits (.fence j) (stopMembers j (fun _ => true) s) else refuse .badParam s

/-- FENCE with mode cancel (R267). -/
def fenceCancel (j : JobId) (s : State) : PktResult :=
  match (jobAt s j).state with
  | .held | .waiting | .ready => .done .ok 0 (cancelSuccessors j (cancelJob j 0xFFFF s))
  | .running | .stopped => .waits (.fence j) (fenceJob j (unitFault .cancelled 0xFF 0xFFFF 0) s)
  | _ => refuse .badParam s

/-! ### Completion and fences -/

/-- Has a core's report for a job come through its management crossing (R96). -/
def reported (s : State) (j : JobId) (c : CoreId) : Bool := (regionAt s (regionOf c)).mgtOut.contains { core := c, job := j }

/-- The Landing has taken a job's reports. -/
def takeReports (j : JobId) (s : State) : State :=
  { s with regions := vmap (fun g => { g with mgtOut := g.mgtOut.filter (fun x => decide (x.job ≠ j)) }) s.regions }

/-- Has every member core of a running job reported completion (R264). -/
def jobAllDone (s : State) (j : JobId) : Bool :=
  let b := jobAt s j
  b.state == .running && (membersOf s j).isEmpty && (jobCores s b).all (reported s j)

/-- Has an addition on behalf of a job saturated or met a NaN, in any of its cores, up to its retirement (R71). -/
def jobOverflow (s : State) (j : JobId) : Bool := (jobCores s (jobAt s j)).any (fun c => (coreAt s c).overflow)

/-- JOB_DONE: the job retires DONE in the MGT period after its last core's report (R71, R260, R264). -/
def jobDone (j : JobId) (s : State) : State :=
  if jobAllDone s j then
    let s1 := modJob s j (fun b =>
      { retired s .done b with status := if jobOverflow s j then .windowOverflow else .ok })
    answer (.fence j) .ok 0 (satisfySuccessors j (takeReports j s1))
  else s

/-- A core of a fenced job: its part ends, every queue and Boom queue is reset, persistent queues included, and its state reads
fenced until its next job (R203, R216; spec/04, Table 7). -/
def coreFenced (s : State) (c : CoreId) : State :=
  modCore (partEnds c s) c (fun k =>
    let k1 := (List.finRange 16).foldl (fun k q => modQ k q qReset) k
    { k1 with skd := { k1.skd with boom := Vector.replicate 8 [] }, seq := { k1.seq with run := .fenced } })

/-- A core that fences with a fault of R324 is tested, where SPR_CTL.AUTO is set. -/
def autoTest (b : Job) (s : State) : State :=
  let d := b.fence.detail0.toNat
  let bad := (b.status == .eccUncorrected && (decide (d = 0x11) || decide (d = 0x13))) || b.status == .checksumMismatch
  if s.spare.auto && bad then
    (if h : b.fence.pcore.toNat < 68 then
      let c : CoreId := ⟨b.fence.pcore.toNat, h⟩
      modSpare s (fun x => { x with testing := (x.testing ++ [c]).eraseDups })
    else s)
  else s

/-- The queue whose SQ_NEXT a register offset names (R269). -/
def nextQueue (off : Nat) : Option (Fin 16) :=
  match coreRegAt off with
  | some (.sqNext q) => some q
  | _ => none

/-- Does a wait belong to a SARM whose queue's SQ_NEXT a group stages (R204, R271). -/
def groupArms (s : State) (x : Group) (h : HoldCond) : Bool :=
  match h.core, h.arm with
  | some c, some q => x.regs.any (fun r => decide (r.core = logicalOf s c) && decide (nextQueue r.off = some q))
  | _, _ => false

/-- A group's abort before its decision: its staged writes are dropped, and the cores that wait at a SARM for it are fenced; the
abort of a fabric-wide group goes to the other devices (R204, R270, R308). -/
def abortGroup (g : Fin 16) (l : Nat) (s : State) : State :=
  let x := groupAt s g
  let s1 := modGroup s g (fun x =>
    { x with state := .aborted, status := .commitAborted, detail := BitVec.ofNat 16 l, regs := [], mems := [], journalUsed := 0
             prepared := [], applied := [], kids := [], busy := false, reported := false, applyAt := none })
  let waitsOn (c : CoreId) : Bool :=
    (regionAt s (regionOf c)).waits.any (fun h => decide (h.core = some c) && groupArms s x h)
  let s2 := (allCores.filter waitsOn).foldl (fun u c => fenceCore c (fltD .commitAborted c g.val l) u) s1
  let s3 := if fabricWide s g then sendDown 7 (0x30 + g.val) (leBytes 2 l) (sendUp 7 (0x30 + g.val) (leBytes 2 l) s2) else s2
  answer (.commit g) .commitAborted (resultOf [(8, l)]) s3

/-- The lowest member of a PREPARING group whose job is being fenced (R270). -/
def groupFenced (s : State) (x : Group) : Option Nat :=
  (bitList 64 x.mask.toNat).find? (fun l =>
    match physicalOf s l with
    | some c => (match jobOf s c with | some j => (jobAt s j).state == .fencing | none => false)
    | none => false)

/-- JOB_FENCED: every member has stopped; flits, queues and endpoints are cleared, groups that were preparing with a member of it
abort, and the job retires (R142, R203, R216, R265, R270). -/
def jobFenced (j : JobId) (s : State) : State :=
  let b := jobAt s j
  if b.state = .fencing then
    let s0 := (List.finRange 16).foldl (fun u g =>
      match (groupAt u g).state, groupFenced u (groupAt u g) with
      | .preparing, some l => abortGroup g l u
      | _, _ => u) s
    let s1 := takeReports j ((jobCores s0 b).foldl (fun u c => coreFenced u c) (removeFlits j s0))
    let s2 := modJob s1 j (fun b => retired s .fenced b)
    answer (.fence j) .ok 0 (autoTest b (cancelSuccessors j s2))
  else s

/-! ### The commands -/

/-- STOP_AT_TICK_MATCH (R283). -/
def execStopAtTickMatch (r : RegionId) (s : State) : Host.Outcome State Fault Refusal := .next (stopAtMatch r s)

/-- JOB_STOPPED (R283). -/
def execJobStopped (j : JobId) (s : State) : Host.Outcome State Fault Refusal := .next (jobStopped j s)

/-- JOB_START (R261). -/
def execJobStart (j : JobId) (s : State) : Host.Outcome State Fault Refusal := .next (jobStart j s)

/-- JOB_DONE (R264). -/
def execJobDone (j : JobId) (s : State) : Host.Outcome State Fault Refusal := .next (jobDone j s)

/-- JOB_FENCED (R265). -/
def execJobFenced (j : JobId) (s : State) : Host.Outcome State Fault Refusal := .next (jobFenced j s)

/-- SUBMIT_GRAPH (R260). -/
def execSubmitGraph (h : PktHdr) (addr : Word) (count : BitVec 16) (s : State) : Host.Outcome State Fault Refusal :=
  .next (onPacket 0x02 h (resultOf [(10, 0xFFFF)]) (submitGraph addr.toNat count.toNat) s)

/-- START, mode release (R267). -/
def execStartRelease (h : PktHdr) (j : JobId) (s : State) : Host.Outcome State Fault Refusal :=
  .next (onPacket 0x03 h 0 (startRelease j) s)

/-- START, mode resume (R267, R285). -/
def execStartResume (h : PktHdr) (j : JobId) (s : State) : Host.Outcome State Fault Refusal :=
  .next (onPacket 0x03 h 0 (startResume j) s)

/-- FENCE, mode cancel (R267). -/
def execFenceCancel (h : PktHdr) (j : JobId) (s : State) : Host.Outcome State Fault Refusal :=
  .next (onPacket 0x20 h 0 (fenceCancel j) s)

/-- FENCE, mode stop (R267). -/
def execFenceStop (h : PktHdr) (j : JobId) (s : State) : Host.Outcome State Fault Refusal :=
  .next (onPacket 0x20 h 0 (fenceStop j) s)

end Sys2Proof.Machine
end

