-- ==== Sys2Proof/Machine/Pieces.lean ====
section
/-! DEFINITION. What an access to the stacks finds and does beside moving bytes: checks and their counts, declared repairs, failing dies
and stacks, slots, and wakes (R229, R236 to R242, R323, R328, R330, R340). -/

namespace Sys2Proof.Machine

/-! ### Repair groups (R323) -/

/-- Is a core under test as the spare that replaces another. -/
def filling (s : State) (f : CoreId) : Bool := s.spare.fills.any (fun x => decide (x.1 = f))

/-- Does a repair group that has prepared need the device quiet (R326, R327). -/
def needsQuiet (s : State) (g : Repair) : Bool :=
  match g with
  | .replace f _ => !filling s f
  | .shed _ => true
  | _ => false

/-- The Landing withholds starts while such a group waits (R326). -/
def setDraining (s : State) : State := modSpare s (fun z => { z with draining := z.repairs.any (needsQuiet s) })

/-- A repair group is declared (R323). -/
def declareRepair (g : Repair) (s : State) : State := setDraining (modSpare s (fun z => { z with repairs := z.repairs ++ [g] }))

/-- A repair group has decided and applied, or is gone. -/
def dropRepair (g : Repair) (s : State) : State := setDraining (modSpare s (fun z => { z with repairs := z.repairs.erase g }))

/-- An alert of R331: kind, unit, spare, and the new ACTIVE_CORES; SPR_STAT shows kind and unit. -/
def repairAlert (st : Status) (kind unit spare : Nat) (s : State) : State :=
  raiseAlert st (BitVec.ofNat 64 (packFields [(0, kind), (8, unit), (16, spare), (24, s.activeCores.toNat)]))
    (modSpare s (fun z => { z with lastKind := BitVec.ofNat 8 kind, lastUnit := BitVec.ofNat 8 unit }))

/-! ### Wakes and slots -/

/-- The stacks that hold bytes of a range. -/
def stacksOf (s : State) (a n : Nat) : List (Fin 8) := (List.finRange 8).filter (rangeTouches s a n)

/-- A wake request of firmware or the host path for the stacks of a range (R340 to R342). -/
def wakeStacks (a n : Nat) (s : State) : State := (stacksOf s a n).foldl (fun u k => wakeRegion (powMem k) u) s

/-- A wake request of the link engine or the snapshot engine, which a sleep request withdraws (R340 to R342). -/
def nudgeStacks (a n : Nat) (s : State) : State := (stacksOf s a n).foldl (fun u k => wakeQueue (powMem k) u) s

/-- Is an entry a reserve slot (spec/11, Table 1). -/
def isReserve (e : Byte) : Bool := e == 0xC0 || e == 0xC1 || e == 0xC4 || e == 0xC5 || e == 0xFF

/-- The owner of the slot of a wheel entry at the refresh rate in force: none in a refresh slot; after a trip only the host path is
served (R229, R236; spec/11, Table 1). -/
def slotOwner (m : MemRegion) (e : Fin 128) : Option Byte :=
  let x := m.wheel.get e
  let y : Byte := if isReserve x then x &&& 0x7F else x
  if isReserve x && (m.rate2x || m.trip) then none
  else if y = 0x42 then none
  else if m.trip && decide (y ≠ 0x40) then none
  else some y

/-- The client served in a slot: none in a refresh or idle slot. -/
def slotClient (m : MemRegion) (e : Fin 128) : Option Byte :=
  match slotOwner m e with
  | some y => if y = 0x7F then none else some y
  | none => none

/-- Does a running stack give an owner slots (R229, R236): idle slots are 0x7F's. -/
def ownsSlots (s : State) (owner : Byte) (k : Fin 8) : Bool :=
  memRuns s k && (List.finRange 128).any (fun e => decide (slotOwner (memAt s k) e = some owner))

/-- Do all stacks of a range serve an owner now (R229, R236, R340). -/
def rangeServed (s : State) (owner : Byte) (a n : Nat) : Bool := (stacksOf s a n).all (ownsSlots s owner)

/-- The owner codes of spec/11, Table 1. -/
def hostOwner : Byte := 0x40
def snapOwner : Byte := 0x41
def linkOwner (io1 : Bool) : Byte := if io1 then 0x45 else 0x44
def idleOwner : Byte := 0x7F

/-! ### Dies and stacks (R240, R242, R330) -/

/-- A stack has failed: a rebuild in it aborts, its addresses are unmapped, and every job with a byte in it is fenced (R242, R330,
R331). -/
def stackFails (k : Fin 8) (s : State) : State :=
  let s1 := fenceWhere (fun b => canFence b && jobTouches s b k) (unitFault .capacityReduced (0x20 + k.val) 0 0) s
  let s2 := modMem s1 k (fun m => { m with queue := [], dieState := if m.dieState = 2 then 1 else m.dieState })
  let s3 := modSpare s2 (fun z => { z with repairs := z.repairs.filter (fun g => match g with
    | .rebuild j => decide (j ≠ k)
    | .row j _ _ => decide (j ≠ k)
    | _ => true) })
  repairAlert .capacityReduced 5 k.val 0 { s3 with memcFailed := s3.memcFailed ||| BitVec.ofNat 8 (2 ^ k.val) }

/-- A die is declared failed: it is rebuilt into the spare die, for which the stack wakes, or the stack fails. Die 16 is the spare
die; its loss in the normal state leaves a stack without stack-level correction (R240, R330, R342). -/
def dieFails (k : Fin 8) (die : Fin 17) (s : State) : State :=
  let m := memAt s k
  if s.memcFailed.getLsbD k.val then s
  else if m.dieState = 0 then
    (if die.val = 16 then modMem s k (fun m => { m with dieState := 3 })
      else wakeRegion (powMem k) (declareRepair (.rebuild k)
        (modMem s k (fun m => { m with dieState := 1, badDie := BitVec.ofNat 5 die.val, rebuilt := 0 }))))
  else if m.badDie.toNat = die.val then s
  else if m.dieState = 3 ∧ m.badDie = 0x1F ∧ die.val = 16 then s
  else stackFails k s

/-- MGT periods in 1 s (R240). -/
def periodsPerSecond : Nat := 1000000000

/-- A correction, or an error, that counts towards a die's failure: at 64 within 1 s the die is declared failed (R240, R241, R330). -/
def countDie (k : Fin 8) (die : Fin 17) (s : State) : State :=
  let now := s.mgtPeriods.toNat
  let log := (memAt s k).dieLog.filter (fun x => decide (now < x.2 + periodsPerSecond)) ++ [(die, now)]
  let s1 := modMem s k (fun m => { m with dieLog := log })
  if 64 ≤ (log.filter (fun x => decide (x.1 = die))).length then
    dieFails k die (modMem s1 k (fun m => { m with dieLog := log.filter (fun x => decide (x.1 ≠ die)) }))
  else s1

/-! ### Rows (R241, R328) -/

/-- The place of a bank in the count of its spare rows used. -/
def rowKey (ch : Fin 32) (die : Fin 17) (bank : Nat) : Nat := (ch.val * 17 + die.val) * 65536 + bank

/-- Spare rows of a bank used or claimed by repairs that have not committed. -/
def sparesTaken (s : State) (k : Fin 8) (x : RowId) : Nat :=
  cellGet 0 (memAt s k).sparesUsed (rowKey x.ch x.die x.bank) +
    (s.spare.repairs.filter (fun g => match g with
      | .row j y _ => decide (j = k ∧ y.ch = x.ch ∧ y.die = x.die ∧ y.bank = x.bank)
      | _ => false)).length

/-- Is the repair of a row declared and not committed. -/
def rowDeclared (s : State) (k : Fin 8) (x : RowId) : Bool :=
  s.spare.repairs.any (fun g => match g with | .row j y _ => decide (j = k ∧ y = x) | _ => false)

/-- A row's corrected errors reach 16: its repair is declared, for which the stack wakes; in a bank without a spare row left the
fault counts towards the die's failure (R241, R342). -/
def rowFails (k : Fin 8) (x : RowId) (s : State) : State :=
  if rowDeclared s k x then s
  else if 4 ≤ sparesTaken s k x then countDie k x.die s
  else wakeRegion (powMem k) (declareRepair (.row k x false) s)

/-- The corrected errors of a row. -/
def rowCount (m : MemRegion) (x : RowId) : Nat := ((m.rowErrs.find? (fun e => decide (e.1 = x))).map (fun e => e.2)).getD 0

/-- A corrected error in a row counts (R241). -/
def countRow (k : Fin 8) (x : RowId) (s : State) : State :=
  let n := rowCount (memAt s k) x + 1
  let rest := (memAt s k).rowErrs.filter (fun e => decide (e.1 ≠ x))
  if n < 16 then modMem s k (fun m => { m with rowErrs := (x, n) :: rest })
  else rowFails k x (modMem s k (fun m => { m with rowErrs := rest }))

/-! ### Checks (R237 to R240) -/

/-- The channel of a stack offset (R227). -/
def channelOf (off : Nat) : Fin 32 := Fin.ofNat 32 (fieldOf off 7 5)

/-- Is the piece at a stack offset rebuilt into the spare die: pieces of a channel are rebuilt in increasing order (R240; DESIGN
CHOICE, log entry 101). -/
def isRebuilt (m : MemRegion) (off : Nat) : Bool := decide (off / 4096 < m.rebuilt.toNat)

/-- What a check finds in the state that the stack's dies are in: in the normal state parity corrects a die; while a failed die is
reconstructed it takes part no longer, an error in another die is corrected only where SECDED alone sees it, on a piece rebuilt;
with the spare die spent nothing corrects two bits (R240). -/
def dieCheck (m : MemRegion) (off : Nat) (chk : PieceCheck) : PieceCheck :=
  match m.dieState.toNat with
  | 0 => chk
  | 3 => (match chk with | .parity _ => .uncorrected | c => c)
  | _ =>
    match chk with
    | .parity d => if d.val = m.badDie.toNat then .clean else .uncorrected
    | .corrected d b r => if d.val = m.badDie.toNat then .clean else if isRebuilt m off then .corrected d b r else .uncorrected
    | c => c

/-- What an access's checks find: a write of a whole piece detects no error of its old contents, and a piece found uncorrected is
found so again until such a write (R227, R238). -/
def effectiveCheck (m : MemRegion) (off : Nat) (covers : Bool) (chk : PieceCheck) : PieceCheck :=
  match chk with
  | .retried _ | .bondFailed => if m.badPieces.contains off && !covers && decide (chk ≠ .bondFailed) then .uncorrected else chk
  | _ => if covers then .clean else if m.badPieces.contains off then .uncorrected else dieCheck m off chk

/-- The counts of corrected errors and retries (spec/11, Table 5). -/
def countCheck (chk : PieceCheck) (m : MemRegion) : MemRegion :=
  match chk with
  | .corrected _ _ _ => { m with corrected := BitVec.ofNat 32 (satAdd 32 m.corrected.toNat 1) }
  | .parity _ => { m with parityCorr := BitVec.ofNat 16 (satAdd 16 m.parityCorr.toNat 1) }
  | .retried n => { m with bondRetry := BitVec.ofNat 16 (satAdd 16 m.bondRetry.toNat n.val) }
  | .bondFailed => { m with bondRetry := BitVec.ofNat 16 (satAdd 16 m.bondRetry.toNat 3) }
  | .clean | .uncorrected => m

/-- MEM_ERRLOG.KIND of an error that is not corrected (R238, R239). -/
def errorKind (chk : PieceCheck) : Option Nat :=
  match chk with
  | .uncorrected => some 1
  | .bondFailed => some 2
  | _ => none

/-- A piece with an uncorrected error, recorded in MEM_ERRLOG (R238). -/
def logError (s : State) (k : Fin 8) (off kind : Nat) : State :=
  modMem s k (fun m => { m with errOffset := BitVec.ofNat 48 off, errKind := BitVec.ofNat 3 kind })

/-- What a finding counts towards: its row, or its die; a two-bit error in a die other than the one being rebuilt counts towards that
die's failure too (R240, R241, R330). -/
def countCause (k : Fin 8) (off : Nat) (found chk : PieceCheck) (s : State) : State :=
  match chk, found with
  | .corrected d b r, _ => countRow k { ch := channelOf off, die := d, bank := b, row := r } s
  | .parity d, _ => countDie k d s
  | .uncorrected, .parity d => if (memAt s k).dieState = 1 ∨ (memAt s k).dieState = 2 then countDie k d s else s
  | _, _ => s

/-- One piece is accessed: what its check finds is counted, and an error not corrected is recorded, with `scrub` as found by the
patrol; the answer is the kind of such an error (R238 to R241). -/
def checkPiece (k : Fin 8) (off : Nat) (covers scrub : Bool) (found : PieceCheck) (s : State) : Option Nat × State :=
  let m := memAt s k
  let chk := effectiveCheck m off covers found
  let s1 := countCause k off found chk (modMem s k (countCheck chk))
  match errorKind chk with
  | some kind =>
    (some kind, logError (modMem s1 k (fun m =>
      { m with badPieces := if kind = 1 ∧ m.badPieces.contains off = false then m.badPieces ++ [off] else m.badPieces }))
      k off (if scrub then 3 else kind))
  | none => (none, if covers then modMem s1 k (fun m => { m with badPieces := m.badPieces.erase off }) else s1)

/-! ### Ranges -/

/-- The device address of a place in the DRAM contents (R18). -/
def dramAddr (s : State) (key : Nat) : Nat :=
  if s.stackLocal then key
  else
    let off := key % stackBytes
    off / 0x1000 * 0x8000 + key / stackBytes * 0x1000 + off % 0x1000

/-- The addresses of the pieces that a read would find uncorrected. -/
def badAddrs (s : State) : List Nat :=
  (List.finRange 8).flatMap (fun k => (memAt s k).badPieces.map (fun o => dramAddr s (k.val * stackBytes + o)))

/-- Do the ranges `[a, a + n)` and `[b, b + m)` meet. -/
def rangesMeet (a n b m : Nat) : Bool := decide (a < b + m ∧ b < a + n ∧ 0 < n ∧ 0 < m)

/-- An access of a range other than a transfer's: its pieces are checked, `chks` saying what the checks of some find. The answer is
the pieces with an error not corrected, with its kind (R227, R238, R239). Pieces in `skip` are not accessed. -/
def accessRange (write : Bool) (a n : Nat) (skip : List Nat) (chks : List (Nat × PieceCheck)) (s : State) : List (Nat × Nat) × State :=
  let hit (p : Nat) : Bool := decide (p % 128 = 0) && rangesMeet p 128 a n && !skip.contains p
  let known := (badAddrs s).filter (fun p => hit p && !chks.any (fun x => decide (x.1 = p)))
  let all : List (Nat × PieceCheck) := chks.filter (fun x => hit x.1) ++ known.map (fun p => (p, .clean))
  all.foldl (fun z x =>
    match checkPiece (stackOf z.2 x.1) (offsetOf z.2 x.1) (write && decide (a ≤ x.1 ∧ x.1 + 128 ≤ a + n)) false x.2 z.2 with
    | (some kind, u) => (z.1 ++ [(x.1, kind)], u)
    | (none, u) => (z.1, u)) ([], s)

/-- Bytes are written to DRAM but for those of pieces with an error (R238). -/
def dramWriteBut (bads : List Nat) (a : Nat) (bs : List Byte) (s : State) : State :=
  if bads.isEmpty then dramWrite s a bs
  else (List.range bs.length).foldl (fun u i =>
    if bads.contains ((a + i) / 128 * 128) then u else dramWrite u (a + i) [bs.getD i 0]) s

end Sys2Proof.Machine
end

