-- ==== Sys2Proof/Machine/Images.lean ====
section
/-! DEFINITION. Images: their layout, the loader's checks and LOAD_CONFIG (R3, R16, R48, R83, R87, R90 to R93, R257, R258). -/

namespace Sys2Proof.Machine

/-- A little-endian number in DRAM. -/
def dramNat (s : State) (a n : Nat) : Nat := leNat (dramRead s a n)

/-! ### Configuration records (R92, R93) -/

/-- May a record write a value to a register (R93)? On a part without wide tiles one that writes WAB_STAT passes here, to be
refused as a use of an absent engine (R176; DEDUCED, log entry 103). -/
def recordValueOk (g : Bool) (r : CoreReg) (v : Word) : Bool :=
  (recordMay r && decide (Nat.land v.toNat (coreRwMask r) = v.toNat)) || (g && (match r with | .wabStat _ => true | _ => false))

/-- The words of a record's write groups as (offset, value), from word `i` of its `ws` on; none where a group runs past the
record, has a reserved bit set, or writes what no record may (R92, R93). `g` is a part without engines. -/
def recordGroups (g : Bool) (ws : List Nat) : Nat → Nat → Option (List (Nat × Word))
  | 0, i => if i = ws.length then some [] else none
  | fuel + 1, i =>
    if ws.length ≤ i then (if i = ws.length then some [] else none)
    else
      let h := ws.getD i 0
      let off := fieldOf h 0 18
      let n := fieldOf h 18 5 + 1
      let vals := (List.range n).map (fun k => (off + 8 * k, BitVec.ofNat 64 (ws.getD (i + 1 + k) 0)))
      let ok (w : Nat × Word) : Bool :=
        match coreRegAt w.1 with
        | some r => recordValueOk g r w.2
        | none => false
      if 2 ^ 23 ≤ h ∨ off % 8 ≠ 0 ∨ ws.length < i + 1 + n ∨ vals.all ok = false then none
      else (recordGroups g ws fuel (i + 1 + n)).map (fun r => vals ++ r)

/-- The record at an address, with its length in bytes; none where it breaks R92 or R93. -/
def parseRecord (s : State) (a : Nat) : Option (CfgRecord × Nat) :=
  let h := dramNat s a 8
  let len := fieldOf h 0 16
  if len = 0 ∨ 128 < len ∨ 2 ^ 45 ≤ h then none
  else
    let ws := (List.range len).map (fun i => dramNat s (a + 8 * i) 8)
    (recordGroups (noEngines s) ws 128 1).map (fun w =>
      ({ tag := BitVec.ofNat 16 (fieldOf h 16 16), entry := BitVec.ofNat 12 (fieldOf h 32 12), final := bitOf h 44, writes := w },
       8 * len))

/-- `n` records laid end to end that end at or before `stop` (spec/12, Table 7). -/
def parseRecords (s : State) (stop : Nat) : Nat → Nat → Option (List CfgRecord)
  | 0, _ => some []
  | n + 1, a =>
    match parseRecord s a with
    | some (r, len) => if stop < a + len then none else (parseRecords s stop n (a + len)).map (fun rs => r :: rs)
    | none => none

/-- FINAL stands on the last record and on no other (R96, R258). -/
def finalOnce : List CfgRecord → Bool
  | [] => false
  | [r] => r.final
  | r :: rs => !r.final && finalOnce rs

/-! ### Headers, sections and windows -/

/-- The section of a logical core, at address `a` of the image in `[base, stop)`; none where a value in it is reserved. -/
def parseSection (s : State) (base stop a l : Nat) : Option ImageSection :=
  let n (i k : Nat) : Nat := dramNat s (a + i) k
  let nb := n 8 2
  let bun := base + n 0 8
  let jt := base + n 16 8
  let rc := base + n 24 8
  if n 0 8 % 32 ≠ 0 ∨ nb = 0 ∨ 4096 < nb ∨ n 10 6 ≠ 0 ∨ n 32 4 = 0 ∨ n 36 28 ≠ 0 ∨ stop < bun + 32 * nb ∨ stop < jt + 128 then none
  else
    let words := (List.range 16).map (fun i => BitVec.ofNat 64 (dramNat s (jt + 8 * i) 8))
    if (words.drop 8).any (fun w => decide (2 ^ 48 ≤ w.toNat)) then none
    else
      match parseRecords s stop (n 32 4) rc with
      | none => none
      | some rs =>
        if finalOnce rs then
          some { logical := l
                 bundles := ((List.range nb).map (fun b => (b, BitVec.ofNat 256 (dramNat s (bun + 32 * b) 32)))).filter
                   (fun e => decide (e.2 ≠ 0))
                 jtab := words, records := rs }
        else none

/-- The sections of the cores `ls`, in order, from address `a`. -/
def parseSections (s : State) (base stop : Nat) : List Nat → Nat → Option (List ImageSection)
  | [], _ => some []
  | l :: ls, a =>
    match parseSection s base stop a l with
    | some x => (parseSections s base stop ls (a + 64)).map (fun xs => x :: xs)
    | none => none

/-- One window of a window set (R257): none where a bit of it is reserved, some none where it is unused. -/
def parseWindow (s : State) (a : Nat) : Option (Option Window) :=
  let b := dramNat s a 8
  let z := dramNat s (a + 8) 4
  let acc := dramNat s (a + 12) 4
  if b % 4096 ≠ 0 ∨ 2 ^ 48 ≤ b ∨ 4 ≤ acc then none
  else if z = 0 then some none
  else some (some { base := b, size := z * 4096, read := bitOf acc 0, write := bitOf acc 1 })

/-- The window set at an address (R257). -/
def parseWindows (s : State) (a : Nat) : Option (List Window) :=
  ((List.range 8).foldr (fun i acc =>
    match parseWindow s (a + 16 * i), acc with
    | some w, some ws => some (w :: ws)
    | _, _ => none) (some [])).map (fun ws => ws.filterMap id)

/-- The image at an address with its window set; none where a value in it is reserved (check 2 of R258). -/
def parseImage (s : State) (addr len wset : Nat) : Option Image :=
  let n (i k : Nat) : Nat := dramNat s (addr + i) k
  let cores := n 8 8
  let prof := n 4 1
  if addr % 256 ≠ 0 ∨ isDram s addr len = false ∨ isDram s wset 128 = false ∨ n 0 4 ≠ 1 ∨ prof = 0 ∨ 8 < prof ∨ n 5 3 ≠ 0 ∨
      cores = 0 ∨ 8 ≤ n 16 8 ∨ n 92 164 ≠ 0 ∨ len < 256 + 64 * popCount 64 cores then none
  else
    match parseSections s addr (addr + len) (bitList 64 cores) (addr + 256), parseWindows s wset with
    | some xs, some ws =>
      some { addr := addr, len := len, profile := prof, cores := BitVec.ofNat 64 cores, engines := BitVec.ofNat 8 (n 16 8)
             coreMap := dramRead s (addr + 24) 68, windows := ws, sections := xs }
    | _, _ => none

/-! ### The schedule's structure (R83, R87, R90, R91) -/

/-- An open construct on a path: a repeat body with its loop counter and last bundle, or a variant of a junction. -/
inductive Open where
  | body (lc : Fin 8) (last : Nat)
  | variant (j : Fin 8)
  deriving DecidableEq, Repr

/-- What runs before the next jump on a path: nothing, a shadow of `left` bundles, or the bundles after a NEXT. -/
inductive Tail where
  | none_
  | select (left : Nat) (j : Fin 8)
  | trip (left : Nat) (lc : Fin 8) (len : Nat)
  | after (left : Nat)
  deriving DecidableEq, Repr

/-- A place on a path through a schedule. -/
structure PathAt where
  pc : Nat
  opens : List Open
  tail : Tail
  deriving DecidableEq, Repr

/-- Is a loop counter named by an enclosing body (R87). -/
def lcOpen (lc : Fin 8) (os : List Open) : Bool := os.any (fun o => match o with | .body l _ => decide (l = lc) | .variant _ => false)

/-- Does a body that ends at `last` fit in the innermost enclosing body (R87). -/
def bodyFits (last : Nat) : List Open → Bool
  | .body _ l :: _ => decide (last ≤ l)
  | _ => true

/-- Bodies that end at bundle `pc` close, innermost first. -/
def closeBodies (pc : Nat) : List Open → List Open
  | .body lc l :: r => if l = pc then closeBodies pc r else .body lc l :: r
  | os => os

/-- Does the innermost body end at bundle `pc`. -/
def endsBody (pc : Nat) : List Open → Bool
  | .body _ l :: _ => decide (l = pc)
  | _ => false

/-- Falling from bundle `pc` to the next one. -/
def pathFall (pc : Nat) (os : List Open) : PathAt := { pc := pc + 1, opens := closeBodies pc os, tail := .none_ }

/-- The control instruction of a bundle (spec/04, Table 4). -/
def controlOf (b : Nat) : Option Instr :=
  match (bundleOps 0 b).head? with
  | some (0, .rep c lc n k) => some (.rep c lc n k)
  | some (0, .reps c lc n rs) => some (.reps c lc n rs)
  | some (0, .nextLayer c) => some (.nextLayer c)
  | some (0, .jsel c q j) => some (.jsel c q j)
  | some (0, .jtrip c q lc n h) => some (.jtrip c q lc n h)
  | some (0, .join c j) => some (.join c j)
  | _ => none

/-- Entering a repeat body after bundle `pc`, of `len` bundles that start at `first`: the path through it, and past it. -/
def bodyPaths (pc first len : Nat) (lc : Fin 8) (taken skipped : Bool) (os : List Open) : Option (List PathAt) :=
  let last := first + len - 1
  if lcOpen lc os || !bodyFits last os || endsBody pc os then none
  else
    some ((if taken then [{ pc := first, opens := .body lc last :: os, tail := .none_ }] else []) ++
      (if skipped then [{ pc := last + 1, opens := closeBodies last os, tail := .none_ }] else []))

/-- The places that follow a place; none where the schedule breaks R83. `juncs` are the junctions in force. -/
def pathNext (bundle : Nat → Nat) (juncs : Vector Junction 8) (p : PathAt) : Option (List PathAt) :=
  if 4096 ≤ p.pc then none
  else
    let ctl := controlOf (bundle p.pc)
    match p.tail, ctl with
    | .none_, none => some [pathFall p.pc p.opens]
    | .none_, some (.rep _ lc n k) => bodyPaths p.pc (p.pc + 1) (n.val + 1) lc (decide (0 < k.val)) (decide (k.val = 0)) p.opens
    | .none_, some (.reps _ lc n _) => bodyPaths p.pc (p.pc + 1) (n.val + 1) lc true true p.opens
    | .none_, some (.jsel _ _ j) =>
      if endsBody p.pc p.opens then none else some [{ pc := p.pc + 1, opens := p.opens, tail := .select 7 j }]
    | .none_, some (.jtrip _ _ lc n _) =>
      if endsBody p.pc p.opens || lcOpen lc p.opens then none
      else some [{ pc := p.pc + 1, opens := p.opens, tail := .trip 7 lc (n.val + 1) }]
    | .none_, some (.join _ j) =>
      match p.opens with
      | .variant i :: r => if i = j then some [{ pc := (juncs.get j).join.toNat, opens := r, tail := .none_ }] else none
      | _ => none
    | .none_, some (.nextLayer _) => if p.opens.isEmpty then some [{ pc := p.pc + 1, opens := [], tail := .after 8 }] else none
    | .none_, some _ => none
    | _, some _ => none
    | .select left j, none =>
      if endsBody p.pc p.opens then none
      else if 1 < left then some [{ p with pc := p.pc + 1, tail := .select (left - 1) j }]
      else
        let x := juncs.get j
        let nv := if x.nvar.toNat = 0 ∨ 8 < x.nvar.toNat then 1 else x.nvar.toNat
        some ((List.range nv).map (fun v =>
          { pc := (x.vars.toList.getD v 0).toNat, opens := .variant j :: p.opens, tail := .none_ }))
    | .trip left lc len, none =>
      if endsBody p.pc p.opens then none
      else if 1 < left then some [{ p with pc := p.pc + 1, tail := .trip (left - 1) lc len }]
      else bodyPaths p.pc (p.pc + 1) len lc true true p.opens
    | .after left, none => some (if 1 < left then [{ p with pc := p.pc + 1, tail := .after (left - 1) }] else [])

/-- A step of the walk over the paths: a place to follow, or one whose paths have all been followed. -/
inductive PathStep where
  | enter (p : PathAt)
  | leave (p : PathAt)
  deriving DecidableEq, Repr

/-- Every path is followed and ends: places `seen` need not be followed again, and one met again on its own path, `above`, begins a
path that never reaches NEXT (R83). -/
def pathsOk (bundle : Nat → Nat) (juncs : Vector Junction 8) : Nat → List PathStep → List PathAt → List PathAt → Bool
  | 0, todo, _, _ => todo.isEmpty
  | _ + 1, [], _, _ => true
  | fuel + 1, .leave p :: todo, above, seen => pathsOk bundle juncs fuel todo (above.erase p) (p :: seen)
  | fuel + 1, .enter p :: todo, above, seen =>
    if above.contains p then false
    else if seen.contains p then pathsOk bundle juncs fuel todo above seen
    else
      match pathNext bundle juncs p with
      | none => false
      | some ps => pathsOk bundle juncs fuel (ps.map .enter ++ .leave p :: todo) (p :: above) seen

/-- The junctions after a record's writes. -/
def juncsAfter (js : Vector Junction 8) (r : CfgRecord) : Vector Junction 8 :=
  r.writes.foldl (fun js w =>
    match coreRegAt w.1 with
    | some (.jtab n) => js.set n.val (juncWrite (js.get n) false w.2.toNat) n.isLt
    | some (.jtabx n) => js.set n.val (juncWrite (js.get n) true w.2.toNat) n.isLt
    | _ => js) js

/-- Every layer of a section keeps the schedule rules (R83): each record's entry under the junctions then in force. -/
def layersOk (bundle : Nat → Nat) : List CfgRecord → Vector Junction 8 → Bool
  | [], _ => true
  | r :: rs, js =>
    let js1 := juncsAfter js r
    pathsOk bundle js1 (2 ^ 24) [.enter { pc := r.entry.toNat, opens := [], tail := .none_ }] [] [] && layersOk bundle rs js1

/-- The junctions that a section's table sets. -/
def sectionJuncs (x : ImageSection) : Vector Junction 8 :=
  Vector.ofFn (fun n =>
    juncWrite (juncWrite (resetSeq.juncs.get n) false (x.jtab.getD n.val 0).toNat) true (x.jtab.getD (8 + n.val) 0).toNat)

/-- A valid slot of a section's bundles holds what `p` finds (R82, R83). -/
def slotsAny (x : ImageSection) (p : SlotDec → Bool) : Bool := x.bundles.any (fun b => (bundleSlots 0 b.2.toNat).any p)

/-- A section's schedule breaks R83 in a way answered BAD_PARAM. -/
def sectionBad (x : ImageSection) : Bool :=
  slotsAny x (fun d => d == .reserved) || x.bundles.any (fun b => decide (fieldOf b.2.toNat 5 3 ≠ 0)) ||
    !layersOk (fun b => (cellGet 0#256 x.bundles b).toNat) x.records (sectionJuncs x)

/-- Does a slot use an engine that CAP_ENGINES may lack (R3, R73, R388). A slot with a reserved bit set holds no instruction and counts
as no use, so check 6 of R258 refuses it (DESIGN CHOICE, log entry 104). -/
def slotUses (d : SlotDec) : Bool :=
  match d with
  | .op (.wadd _ _) => true
  | .op (.wclr _ _) => true
  | .op (.vwcv _ _) => true
  | .op (.kout _ _) => true
  | _ => false

/-- Does a record use such an engine: it writes a WAB_CTL or WAB_STAT, or sets a combining queue to wide mode (R176, R388). -/
def recordUses (r : CfgRecord) : Bool :=
  r.writes.any (fun w =>
    match coreRegAt w.1 with
    | some (.wabCtl _) => true
    | some (.wabStat _) => true
    | some (.kCfg _) => bitOf w.2.toNat 0
    | _ => false)

/-! ### LOAD_CONFIG -/

/-- Is an image slot in use by a job that is not retired (R258). -/
def slotUsed (s : State) (slot : Nat) : Bool := (jobsWhere s (fun b => jobLive b && decide (b.slot.toNat = slot))) != []

/-- Does a range touch a sealed image range, the image of slot `but` apart (R258). -/
def touchesSealed (s : State) (a n : Nat) (but : Option Nat) : Bool :=
  s.images.any (fun e => decide (some e.1 ≠ but) && rangesMeet a n e.2.addr e.2.len)

/-- Checks 3 to 7 of R258. -/
def imageCheck (s : State) (slot : Nat) (i : Image) : Option Status :=
  if !bitOf (profilesOf s) (i.profile - 1) then some .latencyProfile
  else if noEngines s && (decide (i.engines ≠ 0) ||
      i.sections.any (fun x => slotsAny x slotUses || x.records.any recordUses)) then some .engineAbsent
  else if (bitList 64 i.cores.toNat).any (fun l => decide (s.activeCores.toNat ≤ l)) || decide (i.coreMap ≠ s.capCores.toList) then
    some .badParam
  else if i.sections.any (fun x => slotsAny x (fun d => d == .undefined)) then some .badOpcode
  else if i.sections.any sectionBad then some .badParam
  else if i.windows.any (fun w => !isDram s w.base w.size ||
      (w.write && (rangesMeet w.base w.size i.addr i.len || touchesSealed s w.base w.size (some slot)))) then some .badParam
  else none

/-- LOAD_CONFIG load: the checks of R258 in order; on success the slot holds the image and its range is sealed. -/
def loadConfig (addr len slot wset : Nat) (ecc : Bool) (s : State) : PktResult :=
  if slotUsed s slot then refuse .resourceConflict s
  else if ecc then refuse .eccUncorrected s
  else if 1024 ≤ slot then refuse .badParam s
  else
    match parseImage s addr len wset with
    | none => refuse .badParam s
    | some i =>
      match imageCheck s slot i with
      | some st => refuse st s
      | none =>
        .done .ok (resultOf [(8, slot), (10, i.profile)])
          { s with images := s.images.filter (fun e => decide (e.1 ≠ slot)) ++ [(slot, i)] }

/-- LOAD_CONFIG unload (R258). -/
def unloadConfig (slot : Nat) (s : State) : PktResult :=
  if slotUsed s slot then refuse .resourceConflict s
  else if 1024 ≤ slot then refuse .badParam s
  else .done .ok (resultOf [(8, slot)]) { s with images := s.images.filter (fun e => decide (e.1 ≠ slot)) }

/-- LOAD_CONFIG, op load (R258). -/
def execLoadConfigLoad (h : PktHdr) (addr len : Word) (slot : BitVec 16) (wset : Word) (ecc : Bool) (s : State) :
    Host.Outcome State Fault Refusal :=
  .next (onPacket 0x01 h 0 (loadConfig addr.toNat len.toNat slot.toNat wset.toNat ecc) s)

/-- LOAD_CONFIG, op unload (R258). -/
def execLoadConfigUnload (h : PktHdr) (slot : BitVec 16) (s : State) : Host.Outcome State Fault Refusal :=
  .next (onPacket 0x01 h 0 (unloadConfig slot.toNat) s)

end Sys2Proof.Machine
end

