-- ==== Sys2Proof/Machine/Commit.lean ====
section
/-! DEFINITION. Commit groups (R204, R268 to R272, R308) and the taking of a snapshot at an epoch (R332 to R334). -/

namespace Sys2Proof.Machine

/-! ### Opening and staging -/

/-- The result bytes of COMMIT that name no core. -/
def noCore : BitVec 192 := resultOf [(8, 0xFFFF)]

/-- A refused COMMIT: it names no core (R253). -/
def refuseCommit (st : Status) (s : State) : PktResult := .done st noCore s

/-- A group in progress (R268). -/
def groupBusy (x : Group) : Bool := x.state == .preparing || x.state == .applying

/-- Is logical core `l` a member. -/
def isMember (x : Group) (l : Nat) : Bool := bitOf x.mask.toNat l

/-- Is a range clear of every window of a job that is not retired (R255, R268). -/
def clearOfWindows (s : State) (a n : Nat) : Bool :=
  !(jobsWhere s jobLive).any (fun j => (jobWindows s (jobAt s j)).any (fun w => rangesMeet a n w.base w.size))

/-- COMMIT open (R268). -/
def commitOpen (g : Fin 16) (mask : Word) (journal jlen : Nat) (s : State) : PktResult :=
  let x := groupAt s g
  let openWith (l : Nat) : Nat := (s.groups.toList.filter (fun y => y.state == .isOpen && isMember y l)).length
  if x.state = .isOpen ∨ groupBusy x = true then refuseCommit .resourceConflict s
  else if (bitList 64 mask.toNat).any (fun l => decide (2 ≤ openWith l)) then refuseCommit .resourceConflict s
  else if isDram s journal jlen = false ∨ clearOfWindows s journal jlen = false ∨
      (bitList 64 mask.toNat).any (fun l => decide (s.activeCores.toNat ≤ l)) = true then refuseCommit .badParam s
  else
    .done .ok noCore (modGroup s g (fun x =>
      { x with state := .isOpen, mask := mask, journal := journal, journalLen := jlen, journalUsed := 0, regs := [], mems := []
               prepared := [], applied := [], kids := [], busy := false, reported := false, applyAt := none }))

/-- A register that a group may write (R269): core registers by offset in the core block, SNAP_EPOCH in the MGT block. -/
def mayStage (mgt : Bool) (off : Nat) : Bool :=
  if mgt then decide (off = 0x4000)
  else
    match coreRegAt off with
    | some (.sqNext _) => true
    | some .seedLo => true
    | some .seedHi => true
    | some .rngStep => true
    | some .numCtl => true
    | _ => false

/-- A staging list entry (spec/12, Table 13): its kind, core, register offset, value or destination, source and length, and
whether it has a reserved bit set. -/
structure StageEntry where
  isMem : Bool
  core : Nat
  off : Nat
  value : Nat
  src : Nat
  len : Nat
  reserved : Bool
  deriving DecidableEq, Repr

/-- A staging list entry from DRAM (spec/12, Table 13). -/
def parseStage (s : State) (a : Nat) : StageEntry :=
  let w (i : Nat) : Nat := dramNat s (a + 8 * i) 8
  { isMem := bitOf (w 0) 0, core := fieldOf (w 0) 1 7, off := fieldOf (w 0) 8 18, value := w 1, src := fieldOf (w 2) 0 48
    len := fieldOf (w 3) 0 25
    reserved := decide (2 ^ 26 ≤ w 0) || decide (2 ^ 48 ≤ w 2) || decide (2 ^ 25 ≤ w 3) ||
      (bitOf (w 0) 0 && decide (2 ^ 48 ≤ w 1)) }

/-- A BAD_PARAM entry (R269). A LENGTH of 0, or no multiple of 32, counts as one (DEDUCED, log entry 52); one above 16 MiB exceeds a
limit. -/
def stageBad (s : State) (x : Group) (e : StageEntry) : Bool :=
  let mgt := decide (e.core = 0x7F)
  e.reserved || (!mgt && !(decide (e.core < 64) && isMember x e.core)) ||
    (if e.isMem then
      mgt || decide (e.len = 0 ∨ e.len % 32 ≠ 0) || !isDram s e.src e.len || !isDram s e.value e.len
    else !mayStage mgt e.off)

/-- The register writes of a list. -/
def stagedRegs (es : List StageEntry) : List StagedReg :=
  (es.filter (fun e => !e.isMem)).map (fun e =>
    { core := if e.core = 0x7F then none else some e.core, off := e.off, value := BitVec.ofNat 64 e.value, step := false })

/-- Does a list of staged writes exceed a limit of R269: 256 register writes, 64 memory writes and 16 MiB for each core, and the
journal's length. -/
def stageOver (x : Group) (regs : List StagedReg) (mems : List (Nat × Nat)) : Bool :=
  let memOf (l : Nat) : List Nat :=
    ((x.mems.map (fun m => (m.core, m.len))) ++ mems).filterMap (fun m => if m.1 = l then some m.2 else none)
  (List.range 64).any (fun l =>
      decide (256 < ((x.regs ++ regs).filter (fun r => decide (r.core = some l))).length) ||
      decide (64 < (memOf l).length) || decide (2 ^ 24 < (memOf l).sum)) ||
    decide (x.journalLen < x.journalUsed + (mems.map (fun m => m.2)).sum)

/-- Is a register written twice (R269). -/
def stageTwice (regs : List StagedReg) : Bool :=
  let keys := regs.map (fun r => (r.core, r.off))
  decide (keys.eraseDups.length ≠ keys.length)

/-- Would a staged increment or value take RNG_STEP past 2^40 - 1 (R76, R269). -/
def stepPast (s : State) (r : StagedReg) : Bool :=
  match r.core with
  | none => false
  | some l =>
    if r.step then
      (match physicalOf s l with | some c => decide (2 ^ 40 - 1 ≤ (coreAt s c).reg.step.toNat) | none => false)
    else decide (coreRegAt r.off = some .rngStep) && decide (2 ^ 40 ≤ r.value.toNat)

/-- The bytes of memory writes are copied into the journal, in order (R268). -/
def journalWrites (g : Fin 16) (es : List StageEntry) (s : State) : State :=
  (es.filter (fun e => e.isMem)).foldl (fun u e =>
    let x := groupAt u g
    let at_ := x.journal + x.journalUsed
    modGroup (dramWrite u at_ (dramRead u e.src e.len)) g (fun x =>
      { x with journalUsed := x.journalUsed + e.len
               mems := x.mems ++ [{ core := e.core, dst := e.value, src := at_, len := e.len }] })) s

/-- COMMIT stage: the whole list is added, or none of it (R268, R269). -/
def commitStage (g : Fin 16) (addr count : Nat) (s : State) : PktResult :=
  let x := groupAt s g
  if x.state ≠ .isOpen ∨ count = 0 ∨ 1024 < count ∨ isDram s addr (32 * count) = false then refuseCommit .badParam s
  else
    let es := (List.range count).map (fun i => parseStage s (addr + 32 * i))
    let regs := stagedRegs es
    if es.any (stageBad s x) then refuseCommit .badParam s
    else if stageOver x regs ((es.filter (fun e => e.isMem)).map (fun e => (e.core, e.len))) then refuseCommit .bounds s
    else if stageTwice (x.regs ++ regs) then refuseCommit .resourceConflict s
    else if regs.any (stepPast s) then refuseCommit .badParam s
    else .done .ok noCore (journalWrites g es (modGroup s g (fun x => { x with regs := x.regs ++ regs })))

/-- STEP_ADVANCE: an increment of RNG_STEP is staged for each named core (R76, R268, R269). -/
def stepAdvance (g : Fin 16) (mask : Word) (s : State) : PktResult :=
  let x := groupAt s g
  let ls := bitList 64 mask.toNat
  let regs : List StagedReg := ls.map (fun l => { core := some l, off := 0x328, value := 0, step := true })
  if x.state ≠ .isOpen ∨ ls.all (isMember x) = false then refuse .badParam s
  else if stageOver x regs [] then refuse .bounds s
  else if stageTwice (x.regs ++ regs) then refuse .resourceConflict s
  else if regs.any (stepPast s) then refuse .badParam s
  else .done .ok 0 (modGroup s g (fun x => { x with regs := x.regs ++ regs }))

/-- COMMIT discard (R268). -/
def commitDiscard (g : Fin 16) (s : State) : PktResult :=
  if (groupAt s g).state = .isOpen then
    .done .ok noCore (modGroup s g (fun x => { x with state := .closed, regs := [], mems := [], journalUsed := 0 }))
  else refuseCommit .badParam s

/-! ### Prepare and decision -/

/-- COMMIT commit: the group prepares; one with no staged writes commits at once (R270, R272). -/
def commitCommit (g : Fin 16) (s : State) : PktResult :=
  let x := groupAt s g
  if x.state ≠ .isOpen then refuseCommit .badParam s
  else if x.regs.isEmpty && x.mems.isEmpty && !fabricWide s g then
    .done .ok noCore (modGroup s g (fun x => { x with state := .committed, status := .ok }))
  else
    .waits (.commit g) (modGroup s g (fun x =>
      { x with state := .preparing, prepared := [], applied := [], reported := false, applyAt := none }))

/-- Does a member fail the second or third condition of R270. -/
def prepareFails (s : State) (x : Group) (l : Nat) : Bool :=
  match physicalOf s l with
  | none => false
  | some c =>
    let k := coreAt s c
    x.regs.any (fun r => decide (r.core = some l) &&
      ((match nextQueue r.off with | some q => (qOf k q).staged | none => false) ||
        (r.step && decide (2 ^ 40 - 1 ≤ k.reg.step.toNat))))

/-- MEMBER_PREPARE: a member answers prepared, or causes the abort (R270). -/
def memberPrepare (g : Fin 16) (l : Nat) (s : State) : State :=
  let x := groupAt s g
  if x.state = .preparing ∧ isMember x l = true ∧ x.prepared.contains l = false then
    match groupFenced s x with
    | some f => abortGroup g f s
    | none =>
      if prepareFails s x l then abortGroup g l s
      else modGroup s g (fun x => { x with prepared := x.prepared ++ [l] })
  else s

/-- Has every member answered prepared. -/
def allPrepared (x : Group) : Bool := (bitList 64 x.mask.toNat).all (fun l => x.prepared.contains l)

/-- The register record of a logical core: seeds, step and the staged SQ_NEXTs, with the values in force (R334; spec/15,
Table 5). -/
def registerRecord (s : State) (x : Group) (l : Nat) : List Byte :=
  match physicalOf s l with
  | none => List.replicate 160 0
  | some c =>
    let k := coreAt s c
    let q (i : Nat) : Option Nat :=
      (x.regs.find? (fun r => decide (r.core = some l) && decide ((nextQueue r.off).map (fun f => f.val) = some i))).map
        (fun r => r.value.toNat % 2 ^ 48)
    let mask := (List.range 16).foldl (fun m i => if (q i).isSome then m + 2 ^ i else m) 0
    let v := if k.seq.layerOn then (k.live.seed, k.live.step) else (k.reg.seed, k.reg.step)
    leBytes 2 l ++ leBytes 2 mask ++ leBytes 4 0 ++ leBytes 8 (fieldOf v.1.toNat 0 64) ++
      leBytes 8 (fieldOf v.1.toNat 64 64) ++ leBytes 8 v.2.toNat ++
      ((List.range 16).map (fun i => leBytes 8 ((q i).getD 0))).flatten

/-- Is a snapshot in progress. -/
def snapBusy (s : State) : Bool := s.snap.state == .capturing || s.snap.state == .sending

/-- Do the conditions of R332 hold for a take at this decision. -/
def takeDue (s : State) (take : Bool) : Bool :=
  let z := s.snap
  z.en && !snapBusy s && !noEngines s &&
    (take || (decide (0 < z.period.toNat) &&
      (match z.lastTake with
        | none => true
        | some t => decide (z.period.toNat * 1000000000 ≤ (s.mgtPeriods - t).toNat))))

/-- SNAPSHOT_TAKE: the capture begins, into the slot that does not hold the complete epoch; the records of cores that are no
members are taken now, those of members as they apply; the stacks of the plan wake (R332 to R334, R342). -/
def snapTake (g : Fin 16) (s : State) : State :=
  let x := groupAt s g
  let z := s.snap
  let slot := match z.completeSlot with | some b => !b | none => z.epoch.getLsbD 0
  let ls := (List.range s.activeCores.toNat).filter (fun l => !isMember x l)
  let s1 := (z.plan.elim [] (fun p => p.ranges)).foldl (fun u r => nudgeStacks r.1 r.2 u) s
  modSnap s1 (fun z =>
    { z with state := .capturing, slot := slot, lastTake := some s.mgtPeriods, takeEpoch := z.epoch, takeGroup := some g
             records := ls.map (fun l => (l, registerRecord s x l)), before := s.dram, reports := [] })

/-- The writes with CORE = 0x7F apply: the epoch moves, and a snapshot is taken or counted as skipped (R271, R332). `force` is
the manager's choice in a fabric-wide group, which every device follows. -/
def applyEpoch (g : Fin 16) (force : Option Bool) (s : State) : State :=
  match (groupAt s g).regs.find? (fun r => decide (r.core = none)) with
  | none => s
  | some r =>
    let s1 := modSnap s (fun z =>
      { z with epoch := BitVec.ofNat 32 (fieldOf r.value.toNat 0 32), take := bitOf r.value.toNat 32 })
    let goes := match force with
      | some f => f && !noEngines s
      | none => takeDue s1 s1.snap.take
    if goes then snapTake g s1
    else modSnap s1 (fun z => { z with skips := BitVec.ofNat 32 (satAdd 32 z.skips.toNat 1) })

/-- The decision: from here nothing aborts the group (R270, R271). -/
def decideGroup (g : Fin 16) (t : Option Word) (force : Option Bool) (s : State) : State :=
  applyEpoch g force (modGroup s g (fun x => { x with state := .applying, applied := [], applyAt := t }))

/-- COMMIT_DECISION: the last prepared has arrived; a fence notice of the same period aborts the group first (R270). -/
def commitDecision (g : Fin 16) (s : State) : State :=
  let x := groupAt s g
  if x.state = .preparing ∧ allPrepared x = true ∧ fabricWide s g = false then
    match groupFenced s x with
    | some f => abortGroup g f s
    | none => decideGroup g none none s
  else s

/-- PREP_TIMEOUT: not every member, or at the manager not every device, has answered in time; a fence notice of the same period is
processed first (R270, R308). -/
def prepTimeout (g : Fin 16) (s : State) : State :=
  let x := groupAt s g
  if x.state = .preparing then
    match (groupFenced s x).or ((bitList 64 x.mask.toNat).find? (fun l => !x.prepared.contains l)) with
    | some l => abortGroup g l s
    | none =>
      if fabricWide s g && s.fabric.mgr && !s.fabric.kids.all (fun p => x.kids.contains p) then abortGroup g 0xFFFF s else s
  else s

/-! ### Apply and completion -/

/-- A seed with its upper or lower half replaced. -/
def seedHalf (upper : Bool) (v : Nat) (seed : BitVec 128) : BitVec 128 :=
  BitVec.ofNat 128 (if upper then v * 2 ^ 64 + fieldOf seed.toNat 0 64 else fieldOf seed.toNat 64 64 * 2 ^ 64 + v)

/-- One staged register write takes effect on a core, at once also in the values in force (R65, R76, R204, R271). -/
def applyReg (k : Core) (r : StagedReg) : Core :=
  let v := r.value.toNat
  match coreRegAt r.off with
  | some (.sqNext q) => modQ k q (fun x => { x with next := BitVec.ofNat 48 v, staged := true })
  | some .rngStep =>
    let n : BitVec 40 := if r.step then k.reg.step + 1 else BitVec.ofNat 40 v
    { k with reg := { k.reg with step := n }, live := { k.live with step := n } }
  | some .seedLo =>
    { k with reg := { k.reg with seed := seedHalf false v k.reg.seed }, live := { k.live with seed := seedHalf false v k.live.seed } }
  | some .seedHi =>
    { k with reg := { k.reg with seed := seedHalf true v k.reg.seed }, live := { k.live with seed := seedHalf true v k.live.seed } }
  | some .numCtl => { k with reg := { k.reg with cvtOvf := bitOf v 0 }, live := { k.live with cvtOvf := bitOf v 0 } }
  | _ => k

/-- May a member apply now: its region is not held, or the hold waits only on SARMs whose SQ_NEXT the group stages; and the time
of a fabric-wide apply has come (R204, R271, R305, R308). -/
def applyReady (s : State) (x : Group) (c : CoreId) : Bool :=
  let g := regionAt s (regionOf c)
  (g.hold.isNone || (!g.waits.isEmpty && g.waits.all (groupArms s x) && !g.switching)) &&
    (match x.applyAt with | some t => !s.fabric.tsync || decide (t.toNat ≤ s.fabric.time.toNat) | none => true)

/-- COMMIT_APPLY: a member applies its staged register writes at its apply tick (R271, R334). -/
def commitApply (g : Fin 16) (l : Nat) (s : State) : State :=
  let x := groupAt s g
  match physicalOf s l with
  | none => s
  | some c =>
    if x.state = .applying ∧ isMember x l = true ∧ x.applied.contains l = false ∧ applyReady s x c = true then
      let s1 := modCore s c (fun k => (x.regs.filter (fun r => decide (r.core = some l))).foldl applyReg k)
      let s2 := modGroup s1 g (fun x => { x with applied := x.applied ++ [l] })
      if s.snap.state = .capturing ∧ s.snap.takeGroup = some g then
        modSnap s2 (fun z => { z with records := z.records ++ [(l, registerRecord s1 x l)] })
      else s2
    else s

/-- The destination pieces of a staged memory write that take bytes of journal pieces in `lost` (R272). -/
def lostPieces (m : StagedMem) (lost : List Nat) : List Nat :=
  ((List.range m.len).filterMap (fun i =>
    if lost.contains ((m.src + i) / 128 * 128) then some ((m.dst + i) / 128 * 128) else none)).eraseDups

/-- A staged memory write is made from its journal bytes, but for pieces that meet an uncorrected error; the answer tells whether one
did (R272). -/
def commitMem (chks : List (Nat × PieceCheck)) (s : State) (m : StagedMem) : Bool × State :=
  let r := accessRange false m.src m.len [] chks s
  let lost := lostPieces m (r.1.map (fun x => x.1))
  let w := accessRange true m.dst m.len lost chks r.2
  let bads := lost ++ w.1.map (fun x => x.1)
  (!bads.isEmpty, dramWriteBut bads m.dst (dramRead s m.src m.len) w.2)

/-- The staged memory writes are made in staging order; the answer is the first that met an error (R272). -/
def commitMems (chks : List (Nat × PieceCheck)) (ms : List StagedMem) (s : State) : Option StagedMem × State :=
  ms.foldl (fun z m =>
    match commitMem chks z.2 m with
    | (bad, u) => (z.1.or (if bad then some m else none), u)) (none, s)

/-- Do the host-path slots serve every stack that staged memory writes touch (R272, R340). -/
def memsServed (s : State) (ms : List StagedMem) : Bool :=
  ms.all (fun m => rangeServed s hostOwner m.dst m.len && rangeServed s hostOwner m.src m.len)

/-- The stacks that staged memory writes touch wake (R340). -/
def memsWake (ms : List StagedMem) (s : State) : State :=
  ms.foldl (fun u m => wakeStacks m.src m.len (wakeStacks m.dst m.len u)) s

/-- COMMIT_COMPLETE: every member has applied and memory has accepted every write; `chks` tell what the checks of some pieces find.
Writes to a stack that sleeps wait for it (R272, R340). -/
def commitComplete (g : Fin 16) (chks : List (Nat × PieceCheck)) (s : State) : State :=
  let x := groupAt s g
  if x.state = .applying ∧ (bitList 64 x.mask.toNat).all (fun l => x.applied.contains l) = true then
    if memsServed s x.mems then
      match commitMems chks x.mems s with
      | (some m, s1) =>
        answer (.commit g) .eccUncorrected (resultOf [(8, m.core)])
          (modGroup s1 g (fun x => { x with state := .committed, status := .eccUncorrected, detail := BitVec.ofNat 16 m.core }))
      | (none, s1) => answer (.commit g) .ok noCore (modGroup s1 g (fun x => { x with state := .committed, status := .ok }))
    else memsWake x.mems s
  else s

/-! ### The commands -/

/-- COMMIT open (R268). -/
def execCommitOpen (h : PktHdr) (g : Fin 16) (mask journal : Word) (jlen : BitVec 32) (s : State) :
    Host.Outcome State Fault Refusal :=
  .next (onPacket 0x10 h noCore (commitOpen g mask journal.toNat jlen.toNat) s)

/-- COMMIT stage (R269). -/
def execCommitStage (h : PktHdr) (g : Fin 16) (addr : Word) (count : BitVec 16) (s : State) :
    Host.Outcome State Fault Refusal :=
  .next (onPacket 0x10 h noCore (commitStage g addr.toNat count.toNat) s)

/-- COMMIT commit (R270). -/
def execCommitCommit (h : PktHdr) (g : Fin 16) (s : State) : Host.Outcome State Fault Refusal :=
  .next (onPacket 0x10 h noCore (commitCommit g) s)

/-- COMMIT discard (R268). -/
def execCommitDiscard (h : PktHdr) (g : Fin 16) (s : State) : Host.Outcome State Fault Refusal :=
  .next (onPacket 0x10 h noCore (commitDiscard g) s)

/-- STEP_ADVANCE (R76, R268). -/
def execStepAdvance (h : PktHdr) (g : Fin 16) (mask : Word) (s : State) : Host.Outcome State Fault Refusal :=
  .next (onPacket 0x11 h 0 (stepAdvance g mask) s)

/-- MEMBER_PREPARE (R270). -/
def execMemberPrepare (g : Fin 16) (l : Fin 64) (s : State) : Host.Outcome State Fault Refusal := .next (memberPrepare g l.val s)

/-- COMMIT_DECISION (R270). -/
def execCommitDecision (g : Fin 16) (s : State) : Host.Outcome State Fault Refusal := .next (commitDecision g s)

/-- PREP_TIMEOUT (R270). -/
def execPrepTimeout (g : Fin 16) (s : State) : Host.Outcome State Fault Refusal := .next (prepTimeout g s)

/-- COMMIT_APPLY (R271). -/
def execCommitApply (g : Fin 16) (l : Fin 64) (s : State) : Host.Outcome State Fault Refusal := .next (commitApply g l.val s)

/-- COMMIT_COMPLETE (R272). -/
def execCommitComplete (g : Fin 16) (chks : List (Nat × PieceCheck)) (s : State) : Host.Outcome State Fault Refusal :=
  .next (commitComplete g chks s)

end Sys2Proof.Machine
end

