-- ==== Sys2Proof/Machine/Sha3.lean ====
section
/-! DEFINITION. SHA3-512 as FIPS 202 defines it (R286, R361), and the CRC-32 of IEEE 802.3 (R293). -/

namespace Sys2Proof.Machine

/-- A polynomial over GF(2) times x, modulo x⁸ + x⁶ + x⁵ + x⁴ + 1 (FIPS 202, Algorithm 5). -/
def timesX (r : Nat) : Nat := if r < 128 then 2 * r else Nat.xor (2 * r) 0x171

/-- The constant of a round from the power of x at which it begins, and the power at which the next one begins: power `j` of the seven
gives bit 2^j − 1 (FIPS 202, Algorithms 5 and 6). -/
def roundWord (r : Nat) : Nat × Nat :=
  (List.range 7).foldl (fun z j => (z.1 + z.2 % 2 * 2 ^ (2 ^ j - 1), timesX z.2)) (0, r)

/-- The constants of the 24 rounds. -/
def roundWords : List Word :=
  ((List.range 24).foldl (fun (z : List Word × Nat) _ => (z.1 ++ [BitVec.ofNat 64 (roundWord z.2).1], (roundWord z.2).2)) ([], 1)).1

/-- A step of the walk that ρ and π share: the lane moved from, the lane moved to, and the rotation (FIPS 202, Algorithms 2 and 3). -/
structure LaneMove where
  src : Nat
  dst : Nat
  turn : Nat

/-- The 24 moves of the walk from lane (1, 0), lane (x, y) standing at x + 5y: each goes on to lane (y, 2x + 3y), and move `t` turns by
(t + 1)(t + 2)/2. -/
def laneWalk : List LaneMove :=
  ((List.range 24).foldl (fun (z : List LaneMove × Nat) t =>
    let x := z.2 % 5
    let y := z.2 / 5
    let next := y + 5 * ((2 * x + 3 * y) % 5)
    (z.1 ++ [{ src := z.2, dst := next, turn := (t + 1) * (t + 2) / 2 % 64 }], next)) ([], 1)).1

/-- The exclusive or of a list of words. -/
def xorAll (ws : List Word) : Word := ws.foldl (fun a w => a ^^^ w) 0

/-- Lane `i` of a state. -/
def laneAt (st : List Word) (i : Nat) : Word := st.getD i 0

/-- θ: each lane takes the parity of two neighbouring columns. -/
def thetaMix (st : List Word) : List Word :=
  let column (x : Nat) : Word := xorAll ((List.range 5).map (fun y => laneAt st (x % 5 + 5 * y)))
  let takes := (List.range 5).map (fun x => column (x + 4) ^^^ (column (x + 1)).rotateLeft 1)
  st.zipIdx.map (fun l => l.1 ^^^ laneAt takes (l.2 % 5))

/-- ρ and π: lanes turn and move along the walk; lane 0 stays. -/
def rhoPiMove (st : List Word) : List Word :=
  laneWalk.foldl (fun out m => out.set m.dst ((laneAt st m.src).rotateLeft m.turn)) st

/-- χ: within each row of five lanes. -/
def chiMix (st : List Word) : List Word :=
  st.zipIdx.map (fun l =>
    let row := l.2 / 5 * 5
    let right (n : Nat) : Word := laneAt st (row + (l.2 + n) % 5)
    l.1 ^^^ (~~~right 1 &&& right 2))

/-- Keccak-f[1600]: θ, ρ, π, χ, and the round's constant into lane 0, 24 times (FIPS 202). -/
def keccakF (st : List Word) : List Word :=
  roundWords.foldl (fun a c => (chiMix (rhoPiMove (thetaMix a))).modify 0 (fun l => l ^^^ c)) st

/-- Bytes of a block of SHA3-512: 1600 bits less twice 512. -/
def sha3Rate : Nat := 72

/-- A block enters the first lanes of the state, which is then permuted (FIPS 202). -/
def absorb (st : List Word) (block : List Byte) : List Word :=
  keccakF (st.zipIdx.map (fun l => l.1 ^^^ BitVec.ofNat 64 (leNat ((block.drop (8 * l.2)).take 8))))

/-- The bytes that follow a message: the suffix 01 with the first bit of padding, and the last bit of the block (FIPS 202). -/
def sha3Tail (len : Nat) : List Byte :=
  let room := sha3Rate - len % sha3Rate
  (List.range room).map (fun i => (if i = 0 then 0x06#8 else 0) ||| (if i + 1 = room then 0x80#8 else 0))

/-- The 64 bytes of SHA3-512 of a message (FIPS 202). -/
def sha3 (bs : List Byte) : List Byte :=
  let padded := bs ++ sha3Tail bs.length
  let blocks := (List.range (padded.length / sha3Rate)).map (fun i => (padded.drop (i * sha3Rate)).take sha3Rate)
  ((blocks.foldl absorb (List.replicate 25 0)).take 8).flatMap (fun w => leBytes 8 w.toNat)

/-- One bit step of the reflected CRC-32. -/
def crc32Bits : Nat → Nat → Nat
  | 0, c => c
  | n + 1, c => crc32Bits n (if c % 2 = 1 then Nat.xor (c / 2) 0xEDB88320 else c / 2)

/-- The CRC-32 of IEEE 802.3: polynomial 0x04C11DB7, each byte taken least significant bit first, initial value and final
complement of all ones (R293; DEDUCED, log entry 7). -/
def crc32 (bs : List Byte) : Nat :=
  Nat.xor (bs.foldl (fun c b => crc32Bits 8 (Nat.xor c b.toNat)) 0xFFFFFFFF) 0xFFFFFFFF

end Sys2Proof.Machine
end

