-- ==== Sys2Proof/Machine/Links.lean ====
section
/-! DEFINITION. The Baswell ports: training, lanes, flits, retry, credits, routes and fabric time (R289 to R297, R304, R305, R318,
R320, R329). -/

namespace Sys2Proof.Machine

/-- Does the I/O region of a port run (R11, R338). -/
def portRuns (s : State) (p : PortId) : Bool := if p.val < 5 then powAt s 27 == .running else powAt s 25 == .running

/-- BP_STAT.STATE: disabled, training, up, down (spec/14, Table 7). -/
def pDisabled : BitVec 2 := 0
/-- Training. -/
def pTraining : BitVec 2 := 1
/-- Up. -/
def pUp : BitVec 2 := 2
/-- Down. -/
def pDown : BitVec 2 := 3

/-- Is a port up. -/
def portUp (s : State) (p : PortId) : Bool := portRuns s p && (portAt s p).state == pUp

/-- The region code of a port's I/O die in a fence record (spec/12, Table 10). -/
def ioRegion (p : PortId) : Nat := if p.val < 5 then 0x30 else 0x31

/-! ### Sending -/

/-- CMD of a packet of the firmware's own writes: bit 18 set, bit 0 for a forward (DESIGN CHOICE, log entry 8). -/
def fwCmd (forward : Bool) : BitVec 19 := BitVec.ofNat 19 (0x40000 + bitNat forward)

/-- Do two packets come from one core for one device: they keep their order (R296). -/
def sameStream (x y : LinkPkt) : Bool :=
  decide (x.pk.toNat ≤ 3 ∧ y.pk.toNat ≤ 3) && decide (x.src = y.src ∧ x.core = y.core ∧ x.dst = y.dst)

/-- Is a packet part of this device's send of a snapshot (R335). -/
def isSnapPkt (s : State) (x : OutPkt) : Bool := decide (x.pkt.pk = 1 ∧ x.pkt.cmd = fwCmd false ∧ x.pkt.src = s.fabric.id)

/-- What a flit of a class takes from a port's queue: the queue left, the payload, the commands whose packets it carries, with those
whose last packet it ends, and whether it carries bytes of a snapshot's send. -/
structure FlitFill where
  queue : List OutPkt
  payload : List Byte
  owners : List (CoreId × Nat)
  ended : List (CoreId × Nat)
  snap : Bool

/-- A flit of class `c` with room for `room` bytes is filled from the packets of a queue that `may` allows: they stand end to end, and none
overtakes an earlier packet of its core for its device, those of `skipped` among them (R293, R296). -/
def fillFlit (c : Fin 4) (may snap : OutPkt → Bool) : Nat → List OutPkt → List OutPkt → FlitFill
  | _, _, [] => { queue := [], payload := [], owners := [], ended := [], snap := false }
  | room, skipped, x :: r =>
    if x.cls = c ∧ 0 < room ∧ may x = true ∧ skipped.any (fun y => sameStream y.pkt x.pkt) = false then
      let bs := pktBytes x.pkt
      let part := (bs.drop (bs.length - x.left)).take room
      if x.left ≤ room then
        let y := fillFlit c may snap (room - x.left) skipped r
        { queue := y.queue, payload := part ++ y.payload, owners := x.owner.toList ++ y.owners
          ended := (if x.final then x.owner.toList else []) ++ y.ended, snap := snap x || y.snap }
      else { queue := { x with left := x.left - room } :: r, payload := part, owners := x.owner.toList, ended := [], snap := snap x }
    else
      let y := fillFlit c may snap room (skipped ++ [x]) r
      { y with queue := x :: y.queue }

/-- Payload bytes of a flit (spec/14, Table 2). -/
def flitRoom : Nat := 248

/-- SNAP_CTL.SHARE as it acts (spec/15, Table 7). -/
def snapShare (s : State) : Nat := Nat.max 1 s.snap.share.toNat

/-- May a port send bytes of a packet now: those of a snapshot's send take at most SHARE of every hundred flits (R335). -/
def maySend (s : State) (q : Port) (x : OutPkt) : Bool := !isSnapPkt s x || decide (q.snapFlits < snapShare s)

/-- What the next flit of a class takes from a port. -/
def nextFill (s : State) (q : Port) (c : Fin 4) : FlitFill := fillFlit c (maySend s q) (isSnapPkt s) flitRoom [] q.queue

/-- The class that a port serves next: in round robin, one that has a packet to send and a credit (R295). A device without identifier
sends management packets only (R301). -/
def nextClass (s : State) (q : Port) : Option (Fin 4) :=
  ((List.range 4).map (fun i => (Fin.ofNat 4 (q.turn.val + i)))).find? (fun c =>
    decide (0 < q.credits.get c) && (s.fabric.idValid || decide (c = 3)) && !(nextFill s q c).payload.isEmpty)

/-- One flit of a port's current hundred is sent (R335). -/
def countFlit (snap : Bool) (q : Port) : Port :=
  if q.hundred < 99 then { q with hundred := q.hundred + 1, snapFlits := q.snapFlits + bitNat snap }
  else { q with hundred := 0, snapFlits := 0 }

/-- Does a port hold back only for a snapshot's share: an idle flit goes out, and the hundred goes on (R335). -/
def shareWaits (s : State) (q : Port) : Bool :=
  decide (0 < q.credits.get 0) && s.fabric.idValid && decide (snapShare s ≤ q.snapFlits) && q.queue.any (isSnapPkt s)

/-- A flit (R293; spec/14, Table 2): type, sequence number, acknowledgement, NAK, class and payload, with its CRC. -/
def flitBytes (ft : Nat) (num ack : BitVec 12) (nak : Bool) (cls : Fin 4) (payload : List Byte) : List Byte :=
  let body := leBytes 4 (packFields [(0, ft), (2, num.toNat), (14, ack.toNat), (26, bitNat nak), (27, cls.val)]) ++ payload ++
    List.replicate (flitRoom - payload.length) 0
  body ++ leBytes 4 (crc32 body)

/-- The last packet of a command has been sent: its acknowledgement timer starts (R314). -/
def markSent (o : Option (CoreId × Nat)) (s : State) : State :=
  match o with
  | none => s
  | some (c, n) =>
    modCore s c (fun k => { k with links := k.links.map (fun l => if l.seqNo = n then { l with sent := true } else l) })

/-- A port sends what its credits and its replay buffer of 2,048 flits allow, one flit a turn (R294, R295). Only idle flits are
sent while the reference is lost (R320). -/
def pumpPort : Nat → PortId → State → State
  | 0, _, s => s
  | n + 1, p, s =>
    let q := portAt s p
    if portUp s p && !s.power.lost && decide (q.replay.length < 2048) then
      match nextClass s q with
      | none => if shareWaits s q then pumpPort n p (modPort s p (countFlit false)) else s
      | some c =>
        let y := nextFill s q c
        let s1 := modPort s p (fun q =>
          { countFlit y.snap q with
            queue := y.queue, turn := c + 1, txNum := q.txNum + 1, nakDue := false
            credits := q.credits.set c.val (q.credits.get c - 1) c.isLt
            replay := q.replay ++
              [{ num := q.txNum, cls := c, owners := y.owners, bytes := flitBytes 1 q.txNum q.rxNum q.nakDue c y.payload }] })
        pumpPort n p (y.ended.foldl (fun u o => markSent (some o) u) s1)
    else s

/-- A port sends all it can. -/
def pump (p : PortId) (s : State) : State := pumpPort 2048 p s

/-- A packet is discarded for want of a route (R297). -/
def dropPkt (s : State) : State := modFabric s (fun f => { f with dropped := BitVec.ofNat 22 (satAdd 22 f.dropped.toNat 1) })

/-- The port towards a fabric identifier (R297). -/
def routeOf (s : State) (d : BitVec 14) : Option PortId :=
  match s.fabric.routes.find? (fun e => decide (e.1 = d.toNat)) with
  | some e => e.2
  | none => none

/-- Is an identifier this device's own. -/
def isOwnId (s : State) (d : BitVec 14) : Bool := s.fabric.idValid && decide (s.fabric.id = d)

/-- A packet that came through a port, or is this device's own, goes along its route; one for this device is delivered by the command
that names its arrival (R297). -/
def routePkt (came : Option PortId) (x : LinkPkt) (owner : Option (CoreId × Nat)) (final : Bool) (s : State) : State :=
  if isOwnId s x.dst then (if final then markSent owner s else s)
  else
    match routeOf s x.dst with
    | some p => pump p (queuePkt p came x owner final s)
    | none => dropPkt s

/-- A packet of this device is sent (R297). -/
def sendPkt (x : LinkPkt) (owner : Option (CoreId × Nat)) (final : Bool) (s : State) : State := routePkt none x owner final s

/-! ### Ports going up and down -/

/-- The commands whose packets are in a port's queue or replay buffer. -/
def portOwners (s : State) (p : PortId) : List (CoreId × Nat) :=
  let q := portAt s p
  q.queue.filterMap (fun x => x.owner) ++ q.replay.flatMap (fun x => x.owners)

/-- No acknowledgement of a command whose packets are discarded can return. -/
def loseCommand (o : CoreId × Nat) (s : State) : State :=
  modCore s o.1 (fun k => { k with links := k.links.map (fun l => if l.seqNo = o.2 then { l with acked := true } else l) })

/-- Jobs with a command whose packets are in a port's queue or replay buffer (R318). -/
def portJobs (s : State) (p : PortId) : List JobId :=
  ((portOwners s p).filterMap (fun o =>
    if (coreAt s o.1).links.any (fun l => decide (l.seqNo = o.2) && !l.acked) then (coreAt s o.1).seq.job else none)).eraseDups

/-- A snapshot in progress ends with a status (R335). -/
def snapFail (st : Status) (s : State) : State :=
  if snapBusy s then
    answer .captured st 0 (modSnap s (fun z => { z with state := .failed, status := st, takeGroup := none, records := [], before := [], sendLeft := 0 }))
  else s

/-- A port that goes down ends the snapshot and the forward whose writes it carries (R335). -/
def portEnds (p : PortId) (s : State) : State :=
  let s1 := match s.snap.state, s.snap.plan with
    | .sending, some x => if routeOf s (BitVec.ofNat 14 x.partner.toNat) = some p then snapFail .linkDown s else s
    | _, _ => s
  if 0 < s1.snap.forwardLeft ∧ routeOf s1 s1.snap.forwardTo = some p then
    answer .forward .linkDown 0 (modSnap s1 (fun z => { z with forwardLeft := 0 }))
  else s1

/-- A port stops carrying traffic: what it holds is discarded, and the jobs concerned are fenced (R318). -/
def portDrop (p : PortId) (state : BitVec 2) (reason : Nat) (s : State) : State :=
  let js := portJobs s p
  let s0 := modFabric ((portOwners s p).foldl (fun u o => loseCommand o u) s) (fun f =>
    { f with moved := f.moved || decide (state ≠ (portAt s p).state) })
  let s1 := modPort s0 p (fun q =>
    { q with state := state, reason := BitVec.ofNat 3 reason, lanes := 0, queue := [], replay := [], credits := Vector.replicate 4 0
             owed := Vector.replicate 4 0, returned := Vector.replicate 4 0, sentMark := false, markAt := none, spareLost := false
             settled := false, asked := none, agreed := none, nakDue := false, nakGot := false, rxGap := false, replays := 0
             peerValid := false })
  let s2 := portEnds p (js.foldl (fun u j => fenceJob j (unitFault .linkDown (ioRegion p) 0 0) u) s1)
  if s2.fabric.parent.toNat = p.val then modFabric s2 (fun f => { f with tsync := false }) else s2

/-- A port goes down with a reason, and an alert names both (R305, R318). -/
def portDown (p : PortId) (reason : Nat) (s : State) : State :=
  raiseAlert .linkDown (BitVec.ofNat 64 (p.val + 256 * reason)) (portDrop p pDown reason s)

/-- The 8 usable lanes with the lowest error counts; of two alike, the lower (R290). -/
def bestLanes (errors : Vector Nat 9) (usable : BitVec 9) : List (Fin 9) :=
  let better (a b : Fin 9) : Bool :=
    decide (errors.get a < errors.get b) || (decide (errors.get a = errors.get b) && decide (a.val < b.val))
  let us := (List.finRange 9).filter (fun l => usable.getLsbD l.val)
  us.filter (fun l => decide ((us.filter (fun m => better m l)).length < 8))

/-- A mask of lanes. -/
def laneMask (ls : List (Fin 9)) : BitVec 9 := BitVec.ofNat 9 (ls.foldl (fun a l => a + 2 ^ l.val) 0)

/-- PORT_TRAIN: a port that trains finds its lanes and comes up, or stays in training with fewer than 8 (R290). -/
def portTrain (p : PortId) (x : Training) (s : State) : State :=
  let q := portAt s p
  if portRuns s p && q.en && (q.state == pTraining || q.state == pDown) then
    let ls := bestLanes x.errors x.usable
    if ls.length < 8 then modPort s p (fun q => { q with state := pTraining })
    else
      let bad := (List.finRange 9).find? (fun l => !x.usable.getLsbD l.val)
      pump p (modPort (modFabric s (fun f => { f with moved := true })) p (fun q =>
        { q with
          state := pUp, settled := true, spareLost := false, lanes := laneMask ls, spareUsed := bad.isSome
          failedLane := match bad with | some l => BitVec.ofNat 4 l.val | none => 0xF
          reason := 0, peer := x.peer.getD 0, peerValid := x.peer.isSome
          replay := [], txNum := 0, rxNum := 0xFFF, lastAck := 0xFFF, rxGap := false, nakDue := false, nakGot := false
          replays := 0, credits := x.credits, owed := Vector.replicate 4 0
          returned := Vector.replicate 4 0, sentMark := false, markAt := none, asked := none, agreed := none }))
  else s

/-- TRAIN_RETRY: a port not up after 25 ms trains again (R290, R300). -/
def trainRetry (p : PortId) (s : State) : State :=
  let q := portAt s p
  if portRuns s p && q.en && (q.state == pTraining || q.state == pDown) then
    modPort s p (fun q => { q with state := pTraining, settled := true, tries := BitVec.ofNat 16 (satAdd 16 q.tries.toNat 1) })
  else s

/-- A retrain: the port goes down with the effects of R318 and trains (R290, R329). -/
def portRetrain (p : PortId) (s : State) : State :=
  if portRuns s p && (portAt s p).en then
    let s1 := if (portAt s p).state = pUp then portDown p 1 s else s
    modPort s1 p (fun q => { q with state := pTraining, settled := false })
  else s

/-- A write of BP_CTL: EN, CLASS and LANE_THR are written; RETRAIN retrains; a port disabled stops, and one enabled trains (R290;
spec/14, Table 7). -/
def bpCtlWrite (b : BarAcc) (p : PortId) (v : Word) (s : State) : State :=
  let q := portAt s p
  let x := merged b (packFields [(0, bitNat q.en), (1, bitNat q.chClass), (3, q.laneThr.toNat)]) v
  let s1 := modPort s p (fun q => { q with en := bitOf x 0, chClass := bitOf x 1, laneThr := BitVec.ofNat 8 (fieldOf x 3 8) })
  let s2 :=
    if q.en && !bitOf x 0 then portDrop p pDisabled 0 s1
    else if !q.en && bitOf x 0 && s.power.ready then modPort s1 p (fun q => { q with state := pTraining, settled := false })
    else s1
  if bitOf (strobes b v) 2 then portRetrain p s2 else s2

/-! ### Lanes -/

/-- Is a port's spare lane healthy and idle (R291). -/
def spareHealthy (q : Port) : Bool := !q.spareUsed && !q.spareLost && decide (q.lanes ≠ 0x1FF)

/-- The idle lane of a port. -/
def spareLane (q : Port) : Option (Fin 9) := (List.finRange 9).find? (fun l => !q.lanes.getLsbD l.val)

/-- One active lane has failed: the spare takes it over at a codeword count agreed with the peer, or the port goes down
(R291, R329). -/
def laneFails (p : PortId) (l : Fin 9) (word : Nat) (s : State) : State :=
  let q := portAt s p
  let other := match q.asked, q.agreed with
    | some (m, _), _ => decide (m ≠ l)
    | none, some (m, _) => decide (m ≠ l)
    | none, none => false
  if spareHealthy q && !other then modPort s p (fun q => { q with asked := some (l, word) }) else portDown p 2 s

/-- LANE_FAILURE_WINDOW: a window of 1 ms ends; a lane over the threshold has failed (R291). -/
def laneWindow (p : PortId) (counts : Vector Nat 9) (word : Nat) (s : State) : State :=
  let q := portAt s p
  if portUp s p then
    match (List.finRange 9).filter (fun l => q.lanes.getLsbD l.val && decide (q.laneThr.toNat * 1000 < counts.get l)) with
    | [] => s
    | [l] => laneFails p l word s
    | _ => portDown p 2 s
  else s

/-- SIGNAL_LOST: one active lane that loses signal has failed; an idle spare that does is healthy no longer; more than one lane, the
spare among them, takes the port down (R291, R318). -/
def signalLost (p : PortId) (lanes : BitVec 9) (word : Nat) (s : State) : State :=
  let q := portAt s p
  if portUp s p then
    match (List.finRange 9).filter (fun l =>
      lanes.getLsbD l.val && (q.lanes.getLsbD l.val || (decide (spareLane q = some l) && !q.spareUsed))) with
    | [] => s
    | [l] => if q.lanes.getLsbD l.val then laneFails p l word s else modPort s p (fun q => { q with spareLost := true })
    | _ => portDown p 5 s
  else s

/-- May control flits of an exchange be sent: the port is up and the reference is not lost (R320). -/
def controlFlits (s : State) (p : PortId) : Bool := portUp s p && !s.power.lost

/-- LANE_SWITCH_REQUEST: the peer asks for a switch, and this end accepts (R320, R329). -/
def laneSwitchRequest (p : PortId) (l : Fin 9) (word : Nat) (s : State) : State :=
  if controlFlits s p && (portAt s p).lanes.getLsbD l.val && spareHealthy (portAt s p) then
    modPort s p (fun q => { q with agreed := some (l, word) })
  else s

/-- LANE_SWITCH_ACCEPT: the peer accepts the switch asked of it (R329). -/
def laneSwitchAccept (p : PortId) (word : Nat) (s : State) : State :=
  match (portAt s p).asked with
  | some (l, w) => if w = word ∧ controlFlits s p = true then modPort s p (fun q => { q with asked := none, agreed := some (l, word) }) else s
  | none => s

/-- LANE_SWITCH_RETRY: a request or accept was lost; the request repeats with a new count (R329). -/
def laneSwitchRetry (p : PortId) (word : Nat) (s : State) : State :=
  match (portAt s p).asked with
  | some (l, _) => if controlFlits s p then modPort s p (fun q => { q with asked := some (l, word) }) else s
  | none => s

/-- LANE_SWITCH_AT_COUNT: both ends move the failed lane's symbols onto the spare; where that has lost its signal by then, a second lane
has failed (R291, R329, R331). -/
def laneSwitchAtCount (p : PortId) (s : State) : State :=
  let q := portAt s p
  match q.agreed, spareLane q with
  | some (l, _), some sp =>
    if !portUp s p then s
    else if (portAt s p).spareLost then portDown p 2 s
    else
      repairAlert .ok 7 p.val l.val (modPort s p (fun q =>
        { q with agreed := none, asked := none, spareUsed := true, failedLane := BitVec.ofNat 4 l.val
                 lanes := laneMask (((List.finRange 9).filter (fun m => q.lanes.getLsbD m.val && decide (m ≠ l))) ++ [sp]) }))
  | _, _ => s

/-! ### Flits -/

/-- The replay buffer after an acknowledgement of data flits up to `ack` (R294): a number that acknowledges nothing in it changes
nothing. -/
def ackReplay (ack : BitVec 12) (rs : List SentFlit) : List SentFlit :=
  if rs.any (fun r => decide (r.num = ack)) then (rs.dropWhile (fun r => decide (r.num ≠ ack))).drop 1 else rs

/-- A flit as it arrives: is it discarded, for its CRC or a failed codeword (R292, R293). -/
def flitBad (bytes : List Byte) (marked : Bool) : Bool :=
  marked || decide (bytes.length ≠ 256) || decide (crc32 (bytes.take 252) ≠ leNat ((bytes.drop 252).take 4))

/-- A good flit's acknowledgement, and its data sequence number; a data flit taken in order is owed a credit (R293 to R295). -/
def flitTake (p : PortId) (h : Nat) (s : State) : State :=
  let ack := BitVec.ofNat 12 (fieldOf h 14 12)
  let seq := BitVec.ofNat 12 (fieldOf h 2 12)
  let isData := decide (fieldOf h 0 2 = 1) && decide (fieldOf h 27 3 < 4)
  let cls : Fin 4 := Fin.ofNat 4 (fieldOf h 27 2)
  pump p (modPort s p (fun q =>
    let left := ackReplay ack q.replay
    let moved := decide (left.length < q.replay.length)
    let q1 := { q with replay := left, lastAck := if moved then ack else q.lastAck, replays := if moved then 0 else q.replays
                       nakGot := q.nakGot || bitOf h 26 }
    if isData then
      (if seq = q1.rxNum + 1 then
          { q1 with rxNum := seq, rxGap := false, nakDue := false, owed := q1.owed.set cls.val (q1.owed.get cls + 1) cls.isLt }
        else if q1.rxGap then q1
        else { q1 with rxGap := true, nakDue := true })
    else q1))

/-- LINK_FLIT_RECEIVE (R292 to R294): `corrected` symbols of its codewords were corrected. A discarded data flit makes the
receiver ask for a replay. -/
def flitReceive (p : PortId) (bytes : List Byte) (marked : Bool) (corrected : Nat) (s : State) : State :=
  if portUp s p then
    let h := leNat (bytes.take 4)
    let s1 := modPort s p (fun q => { q with fecCorr := BitVec.ofNat 32 (satAdd 32 q.fecCorr.toNat corrected) })
    if flitBad bytes marked then
      modPort s1 p (fun q =>
        { q with crcFail := BitVec.ofNat 16 (satAdd 16 q.crcFail.toNat 1)
                 rxGap := q.rxGap || decide (fieldOf h 0 2 = 1), nakDue := q.nakDue || decide (fieldOf h 0 2 = 1) })
    else flitTake p h s1
  else s

/-- NAK_REPLAY: the flits after ACK are sent again; the eighth replay without an advance of ACK takes the port down (R294). -/
def nakReplay (p : PortId) (s : State) : State :=
  let q := portAt s p
  if portUp s p && q.nakGot then
    let s1 := modPort s p (fun q =>
      { q with nakGot := false, replays := q.replays + 1, replayCnt := BitVec.ofNat 16 (satAdd 16 q.replayCnt.toNat 1) })
    if 8 ≤ q.replays + 1 then portDown p 3 s1 else s1
  else s

/-- MGT periods in 1 ms. -/
def periodsPerMs : Nat := 1000000

/-- Has a port received the congestion mark within the last 1 ms (R295). -/
def markFresh (s : State) (q : Port) : Bool :=
  match q.markAt with
  | some t => decide ((s.mgtPeriods - t).toNat ≤ periodsPerMs)
  | none => false

/-- Is the pending store full (R312). -/
def storeFull (s : State) : Bool := decide (1024 ≤ s.fabric.store.length)

/-- Does a port's control flit carry the congestion mark: the pending store is full, or contributions that came in through the port
wait on one that has received the mark (R295). -/
def marksPeer (s : State) (p : PortId) : Bool :=
  storeFull s || (List.finRange 10).any (fun o =>
    markFresh s (portAt s o) && (portAt s o).queue.any (fun x => decide (x.cls = 1 ∧ x.came = some p)))

/-- CREDIT_STOP_TIMEOUT: a class stopped by lack of credit for 10 ms, unless its stop comes from a full pending store that the peer
has marked (R295). -/
def creditStop (p : PortId) (c : Fin 4) (s : State) : State :=
  let q := portAt s p
  if portUp s p && decide (q.credits.get c = 0) && q.queue.any (fun x => decide (x.cls = c)) && !(decide (c = 1) && markFresh s q) then
    portDown p 4 s
  else s

/-- The credits that a port's control flit returns: those owed, of contributions none while the pending store is full (R295, R312). -/
def creditsDue (s : State) (q : Port) : Vector Nat 4 := if storeFull s then q.owed.set 1 0 else q.owed

/-- This end's control flit: it returns credits and carries the congestion mark (R295). -/
def sendControl (p : PortId) (s : State) : State :=
  if controlFlits s p then
    modPort s p (fun q =>
      let due := creditsDue s q
      { q with owed := Vector.ofFn (fun c => q.owed.get c - due.get c), returned := due, sentMark := marksPeer s p })
  else s

/-- CONTROL_FLIT: the peer's control flit returns credits and carries its congestion mark, and this end's goes out with it (R295; DESIGN
CHOICE, log entry 114). -/
def controlFlit (p : PortId) (credits : Vector Nat 4) (mark : Bool) (s : State) : State :=
  if portUp s p then
    sendControl p (pump p (modPort s p (fun q =>
      { q with credits := Vector.ofFn (fun c => q.credits.get c + credits.get c)
               markAt := if mark then some s.mgtPeriods else q.markAt })))
  else s

/-- TIME_EXCHANGE: half the round trip is the link's flight time, and a worker takes its parent's time; none runs while the reference is
lost (R304, R305, R320). -/
def timeExchange (p : PortId) (sent recv peerSent peerRecv : Word) (s : State) : State :=
  if controlFlits s p && !s.fabric.mgr && s.fabric.idValid && decide (s.fabric.parent.toNat = p.val) then
    let flight := BitVec.ofNat 64 (((recv - sent) - (peerSent - peerRecv)).toNat / 2)
    modFabric s (fun f => { f with time := peerSent + flight, tsync := true })
  else s

/-- PACKET_FORWARD: a packet for another device goes on along its route (R297). -/
def packetForward (p : PortId) (x : LinkPkt) (s : State) : State :=
  if portUp s p && !isOwnId s x.dst then routePkt (some p) x none false s else s

/-! ### The commands -/

/-- PORT_TRAIN (R290). -/
def execPortTrain (p : PortId) (x : Training) (s : State) : Host.Outcome State Fault Refusal := .next (portTrain p x s)

/-- TRAIN_RETRY (R290). -/
def execTrainRetry (p : PortId) (s : State) : Host.Outcome State Fault Refusal := .next (trainRetry p s)

/-- PORT_RETRAIN (R290). -/
def execPortRetrain (b : BarAcc) (p : PortId) (s : State) : Host.Outcome State Fault Refusal :=
  .next (barWrite b (portRetrain p) s)

/-- LANE_FAILURE_WINDOW (R291). -/
def execLaneFailureWindow (p : PortId) (counts : Vector Nat 9) (word : Nat) (s : State) : Host.Outcome State Fault Refusal :=
  .next (laneWindow p counts word s)

/-- SIGNAL_LOST (R291). -/
def execSignalLost (p : PortId) (lanes : BitVec 9) (word : Nat) (s : State) : Host.Outcome State Fault Refusal :=
  .next (signalLost p lanes word s)

/-- LANE_SWITCH_REQUEST (R329). -/
def execLaneSwitchRequest (p : PortId) (l : Fin 9) (word : Nat) (s : State) : Host.Outcome State Fault Refusal :=
  .next (laneSwitchRequest p l word s)

/-- LANE_SWITCH_ACCEPT (R329). -/
def execLaneSwitchAccept (p : PortId) (word : Nat) (s : State) : Host.Outcome State Fault Refusal :=
  .next (laneSwitchAccept p word s)

/-- LANE_SWITCH_RETRY (R329). -/
def execLaneSwitchRetry (p : PortId) (word : Nat) (s : State) : Host.Outcome State Fault Refusal := .next (laneSwitchRetry p word s)

/-- LANE_SWITCH_AT_COUNT (R329). -/
def execLaneSwitchAtCount (p : PortId) (s : State) : Host.Outcome State Fault Refusal := .next (laneSwitchAtCount p s)

/-- LINK_FLIT_RECEIVE (R293). -/
def execLinkFlitReceive (p : PortId) (bytes : List Byte) (marked : Bool) (corrected : Nat) (s : State) :
    Host.Outcome State Fault Refusal :=
  .next (flitReceive p bytes marked corrected s)

/-- NAK_REPLAY (R294). -/
def execNakReplay (p : PortId) (s : State) : Host.Outcome State Fault Refusal := .next (nakReplay p s)

/-- CREDIT_STOP_TIMEOUT (R295). -/
def execCreditStopTimeout (p : PortId) (c : Fin 4) (s : State) : Host.Outcome State Fault Refusal := .next (creditStop p c s)

/-- CONTROL_FLIT (R295). -/
def execControlFlit (p : PortId) (credits : Vector Nat 4) (mark : Bool) (s : State) : Host.Outcome State Fault Refusal :=
  .next (controlFlit p credits mark s)

/-- TIME_EXCHANGE (R304). -/
def execTimeExchange (p : PortId) (sent recv peerSent peerRecv : Word) (s : State) : Host.Outcome State Fault Refusal :=
  .next (timeExchange p sent recv peerSent peerRecv s)

/-- PACKET_FORWARD (R297). -/
def execPacketForward (p : PortId) (x : LinkPkt) (s : State) : Host.Outcome State Fault Refusal := .next (packetForward p x s)

end Sys2Proof.Machine
end

