-- ==== Sys2Proof/Machine/Clocks.lean ====
section
/-! DEFINITION. Region clocks, VDD_CORE requests and the wake governor (R26, R39, R43, R44, R342 to R346, R378, R379). -/

namespace Sys2Proof.Machine

/-- The clock of a frequency table entry in MHz (spec/16, Table 4). -/
def clkMhz (i : Nat) : Nat := [1250, 1125, 1000, 875, 750, 625, 500, 250].getD i 250

/-- The VDD_CORE request of a frequency table entry in mV (spec/16, Table 4). -/
def clkMv (i : Nat) : Nat := [720, 690, 660, 630, 600, 580, 560, 540].getD i 540

/-- CAP_CLOCK.LAST; CAP_CLOCK.FIRST is 0 (spec/16, Table 5). -/
def clkLast : Nat := 7

/-- The lock-step guard band in mV that the awake regions in lock-step need (R26). -/
def guardMv (s : State) (rs : List RegionId) : Nat :=
  rs.foldl (fun m r => if (regionAt s r).lockstep then Nat.max m (5 * (regionAt s r).guard.toNat) else m) 0

/-- Compute regions that run or wake (R345). -/
def awakeRegions (s : State) : List RegionId :=
  allRegions.filter (fun r => powAt s (powCg r) == .running || powAt s (powCg r) == .waking)

/-- The voltage that the awake regions need where region `r` runs at entry `f r`; the last request where none is awake (R345). -/
def neededMv (s : State) (f : RegionId → Nat) : Nat :=
  match awakeRegions s with
  | [] => s.power.avsReq.toNat
  | rs => rs.foldl (fun m r => Nat.max m (clkMv (f r))) 0 + guardMv s rs

/-- The entry of a region. -/
def entryOf (s : State) (r : RegionId) : Nat := (regionAt s r).freqIdx.toNat

/-- Is a VDD_CORE request changing: from the request until 10 µs after its acknowledgement (R376). -/
def avsChanging (s : State) : Bool := !s.power.avsAcked || decide (0 < s.power.avsTail)

/-- A VDD_CORE request is sent over AVSBus; the monitor's window spans the change (R376, R378, R379). -/
def avsSend (mv : Nat) (s : State) : State :=
  let v := BitVec.ofNat 12 mv
  let lo := if avsChanging s then s.power.avsLo else s.power.avsReq
  let hi := if avsChanging s then s.power.avsHi else s.power.avsReq
  modPower s (fun w =>
    { w with
      avsReq := v, avsBusy := true, avsLower := decide (mv < w.avsReq.toNat), avsAcked := false, avsTail := 0
      avsLo := if mv < lo.toNat then v else lo, avsHi := if hi.toNat < mv then v else hi })

/-! ### Clock requests -/

/-- The entry a clock request takes a region to (R346, R348). -/
def clkTarget (s : State) (q : ClockReq) (r : RegionId) : BitVec 4 :=
  match q.by_ with
  | .recover => s.power.entryBefore.get r
  | _ => q.idx

/-- Is a region named by a mask. -/
def inMask (m : BitVec 17) (r : RegionId) : Bool := m.getLsbD r.val

/-- A mask of regions that satisfy `p`. -/
def maskOf (p : RegionId → Bool) : BitVec 17 :=
  BitVec.ofNat 17 ((allRegions.filter p).foldl (fun a r => a + 2 ^ r.val) 0)

/-- The entry whose voltage a region needs: the faster of its own and the one that the request in progress takes it to (R345,
R346). -/
def needEntry (s : State) (r : RegionId) : Nat :=
  match s.power.clk with
  | some q => if inMask q.mask r && q.ends.isNone then Nat.min (entryOf s r) (clkTarget s q r).toNat else entryOf s r
  | none => entryOf s r

/-- A request for the voltage now needed, where it differs from the last (R26, R345). -/
def avsUpdate (s : State) : State :=
  let mv := neededMv s (needEntry s)
  if mv = s.power.avsReq.toNat then s else avsSend mv s

/-- The regions still to switch whose switch is a raise, with the entries raised (R343, R346). -/
def raisesOf (s : State) (q : ClockReq) : List (RegionId × Nat) :=
  (allRegions.filter (fun r => inMask q.mask r)).filterMap (fun r =>
    let t := (clkTarget s q r).toNat
    if t < entryOf s r then some (r, entryOf s r - t) else none)

/-- The raises of the request in progress join the governor's queue (R343). -/
def queueRaises (s : State) : State :=
  match s.power.clk with
  | none => s
  | some q =>
    (raisesOf s q).foldl (fun u x => modPower u (fun w => { w with queue := govInsert (.raise x.1 x.2) w.queue })) s

/-- Is the entry of a queue a raise. -/
def isRaise (x : GovReq) : Bool := match x with | .raise _ _ => true | .wake _ => false

/-- A clock request begins: a region that does not run takes the entry at once, a region already there is passed over, and a
raise asks for its voltage first (R43, R346). -/
def clkBegin (by_ : ClockBy) (mask : BitVec 17) (idx : BitVec 4) (s : State) : State :=
  let q0 : ClockReq := { mask := mask, idx := idx, waitsVolt := false, admitted := [], by_ := by_, ends := none, busy := none }
  let tgt := clkTarget s q0
  let s1 := allRegions.foldl (fun u r =>
    if inMask mask r && !regionRuns u r then modRegion u r (fun g => { g with freqIdx := tgt r }) else u) s
  let left := maskOf (fun r => inMask mask r && regionRuns s r && decide (tgt r ≠ (regionAt s r).freqIdx))
  let s2 := modPower s1 (fun w => { w with clk := some { q0 with mask := left } })
  let need := neededMv s2 (needEntry s2)
  if s2.power.avsReq.toNat < need then
    avsSend need (modPower s2 (fun w => { w with clk := some { q0 with mask := left, waitsVolt := true } }))
  else queueRaises s2

/-- A port that has gone down trains again (R290, R348). -/
def retrainDown (s : State) : State :=
  (List.finRange 10).foldl (fun u p => if (portAt u p).state = pDown then portRetrain p u else u) s

/-- The raises of a recovery have ended: LOST is cleared, and the ports that went down train again; one that a further loss or an
unacknowledged voltage ends leaves LOST set (R348). -/
def recoverEnd (st : Status) (s : State) : State :=
  if st = .ok then retrainDown (modPower s (fun p => { p with lost := false, recover := false }))
  else modPower s (fun p => { p with recover := false })

/-- A clock request ends with a status; the voltage request is lowered where less is needed (R346). -/
def clkEnd (st : Status) (s : State) : State :=
  match s.power.clk with
  | none => s
  | some q =>
    let s1 := avsUpdate (modPower s (fun w => { w with clk := none, queue := w.queue.filter (fun x => !isRaise x) }))
    match q.by_ with
    | .packet => answer .clock st 0 (modPower s1 (fun w => { w with clkStatus := BitVec.ofNat 16 (statusCode st) }))
    | .register => modPower s1 (fun w => { w with clkStatus := BitVec.ofNat 16 (statusCode st) })
    | .recover => recoverEnd st s1
    | .device => s1

/-- A request with no region left ends (R43). -/
def clkIfDone (s : State) : State :=
  match s.power.clk with
  | some p => if p.mask = 0 && !p.waitsVolt then clkEnd .ok s else s
  | none => s

/-- Every compute region is to switch to the slowest entry, without admission (R347, R350). -/
def clkSlow (s : State) : State := clkIfDone (clkBegin .device (maskOf (fun _ => true)) (BitVec.ofNat 4 clkLast) s)

/-- A recovery that has been asked for begins its raises once no request is in progress (R348). -/
def clkRecover (s : State) : State :=
  if s.power.recover && s.power.clk.isNone then clkIfDone (clkBegin .recover (maskOf (fun _ => true)) 0 s) else s

/-- A clock request with nothing left to switch, or one that a trip or the loss of the reference ends, ends; the device then
switches every region to the slowest entry (R346, R347, R350). -/
def clkSettle (s : State) : State :=
  match s.power.clk with
  | none => s
  | some q =>
    if q.busy.isSome then s
    else
      match q.ends with
      | some st => clkSlow (clkEnd st s)
      | none => clkRecover (clkIfDone s)

/-- A device-wide event moves every compute region to the slowest entry; a request in progress ends with the event's status once
the region being switched has resumed (R347, R350). -/
def clkSlowDown (st : Status) (s : State) : State :=
  match s.power.clk with
  | some q =>
    if q.by_ = .device then s
    else clkSettle (modPower s (fun w => { w with clk := some { q with ends := some st } }))
  | none => clkSlow s

/-- Is a request of the driver's in progress (R346). -/
def clkPending (s : State) : Bool :=
  match s.power.clk with
  | some q => decide (q.by_ = .packet) || decide (q.by_ = .register)
  | none => false

/-- Why a clock request is refused (R43, R346, R347, R350): the loss of the reference and a trip refuse whatever is in progress. -/
def clkRefusal (s : State) (idx : Nat) : Option Status :=
  if clkLast < idx then some .badParam
  else if s.power.lost then some .refLost
  else if s.power.trip && decide (idx < clkLast) then some .thermalTrip
  else if s.power.clk.isSome then some .resourceConflict
  else none

/-- SET_CLOCK (R43, R346). -/
def setClock (mask : BitVec 17) (idx : Byte) (s : State) : PktResult :=
  match clkRefusal s idx.toNat with
  | some st => refuse st s
  | none => .waits .clock (clkBegin .packet mask (BitVec.ofNat 4 idx.toNat) s)

/-- A write of CLK_REQ: MASK and IDX are written, and GO starts a request (R346; spec/16, Table 9). -/
def clkReqWrite (b : BarAcc) (v : Word) (s : State) : State :=
  let old := packFields [(0, s.power.clkMask.toNat), (17, s.power.clkIdx.toNat)]
  let x := merged b old v
  let mask := BitVec.ofNat 17 x
  let idx := BitVec.ofNat 4 (fieldOf x 17 4)
  let s1 := modPower s (fun w => { w with clkMask := mask, clkIdx := idx })
  if bitOf (strobes b v) 21 then
    match clkRefusal s1 idx.toNat with
    | some st => modPower s1 (fun w => { w with clkErr := true, clkStatus := BitVec.ofNat 16 (statusCode st) })
    | none => clkSettle (clkBegin .register mask idx (modPower s1 (fun w => { w with clkErr := false })))
  else s1

/-- The region that a clock request switches next (R43). -/
def clkNext (q : ClockReq) : Option RegionId := allRegions.find? (fun r => inMask q.mask r)

/-- Has the governor admitted a region's switch, or does it need no admission (R346). -/
def clkAdmitted (s : State) (q : ClockReq) (r : RegionId) : Bool :=
  decide (entryOf s r ≤ (clkTarget s q r).toNat) || q.admitted.contains r

/-- A request no longer names a region. -/
def clkDrop (r : RegionId) (s : State) : State :=
  modPower s (fun w =>
    { w with clk := w.clk.map (fun q => { q with mask := q.mask &&& ~~~(BitVec.ofNat 17 (2 ^ r.val)) }) })

/-- REGION_CLOCK_SWITCH: the next region of the request in progress holds and switches (R32, R43, R44). A region that has gone to
sleep in the meantime takes the entry. -/
def regionClockSwitch (r : RegionId) (s : State) : State :=
  match s.power.clk with
  | none => s
  | some q =>
    if clkNext q = some r ∧ q.waitsVolt = false ∧ q.ends = none ∧ q.busy = none ∧ clkAdmitted s q r = true then
      if regionRuns s r then
        modPower (modRegion (holdBegin r [] s) r (fun g => { g with switching := true }))
          (fun w => { w with clk := some { q with busy := some r } })
      else clkSettle (clkDrop r (modRegion s r (fun g => { g with freqIdx := clkTarget s q r })))
    else s

/-- A region that was being switched has resumed: the request goes on to the next (R43). -/
def clkResume (r : RegionId) (s : State) : State :=
  match s.power.clk with
  | some q =>
    if q.busy = some r ∧ (regionAt s r).hold = none then
      clkSettle (clkDrop r (modPower s (fun w => { w with clk := some { q with busy := none } })))
    else s
  | none => s

/-- CLOCK_SWITCH_DONE: the region's new clock runs; its hold ends unless a crossing condition is unmet, and it goes on as the same
event (R34, R43, R44). -/
def clockSwitchDone (r : RegionId) (s : State) : State :=
  match s.power.clk with
  | none => s
  | some q =>
    if (regionAt s r).switching then
      let s1 := modRegion s r (fun g => { g with switching := false, freqIdx := clkTarget s q r })
      let ws := unmetNow s1 r
      if ws.isEmpty && (regionAt s1 r).heldOps.isEmpty then clkResume r (holdOver r s1)
      else modRegion s1 r (fun g => { g with waits := ws })
    else s

/-! ### The regulator -/

/-- AVS_ACK: a status read shows VDone and the read-back lies within 5 mV of the request (R379). A raise that waited for it
goes to the governor. -/
def avsAck (mv : BitVec 12) (s : State) : State :=
  if s.power.avsBusy && decide (s.power.avsReq.toNat ≤ mv.toNat + 5 ∧ mv.toNat ≤ s.power.avsReq.toNat + 5) then
    let s1 := modPower s (fun w => { w with avsRead := mv, avsBusy := false, avsAcked := true, avsTail := 10000 })
    match s1.power.clk with
    | some q =>
      if q.waitsVolt then clkSettle (queueRaises (modPower s1 (fun w => { w with clk := some { q with waitsVolt := false } }))) else s1
    | none => s1
  else s

/-- AVS_TIMEOUT: 1 ms without acknowledgement. A lowering sets AVS_STAT.ERR and raises an alert; a clock request's raise ends it
with SUPPLY_FAULT (R346, R379). -/
def avsTimeout (s : State) : State :=
  if s.power.avsBusy then
    let s1 := modPower s (fun w => { w with avsBusy := false })
    if s.power.avsLower then raiseAlert .supplyFault 0 (modPower s1 (fun w => { w with avsErr := true }))
    else
      match s1.power.clk with
      | some q =>
        if q.waitsVolt then
          clkEnd .supplyFault (modPower s1 (fun w => { w with clk := some { q with mask := 0, waitsVolt := false } }))
        else s1
      | none => s1
  else s

/-- LOCKSTEP_ACTIVE: the regulator has acknowledged the guard band of a region in lock-step (R26). -/
def lockstepActive (r : RegionId) (s : State) : State :=
  if (regionAt s r).lockstep && regionRuns s r && !s.power.avsBusy &&
      decide (neededMv s (needEntry s) ≤ s.power.avsReq.toNat) then
    modRegion s r (fun g => { g with lsActive := true })
  else s

/-- A write of CG_CLKCTL (R26). -/
def cgClkctlWrite (b : BarAcc) (r : RegionId) (v : Word) (s : State) : State :=
  let g := regionAt s r
  let x := merged b (packFields [(0, bitNat g.lockstep), (1, g.guard.toNat)]) v
  avsUpdate (modRegion s r (fun g =>
    { g with lockstep := bitOf x 0, guard := BitVec.ofNat 3 (fieldOf x 1 3), lsActive := g.lsActive && bitOf x 0 }))

/-- A write of TALLY_CTRL: CLEAR clears the region's hold counts; an event in progress is counted afresh (R39). -/
def tallyClear (b : BarAcc) (r : RegionId) (v : Word) (s : State) : State :=
  if bitOf (strobes b v) 0 then
    modRegion s r (fun g =>
      { g with
        tallyEvents := if g.hold.isSome then 1 else 0, tallyTicks := 0
        tallyLast := { cause := 0, queue := 0, core := 0, tick := 0, periods := 0 }
        stretch := 0, forced := 0, hold := g.hold.map (fun h => { h with periods := 0 }) })
  else s

/-! ### Rails and droops -/

/-- The window of a rail's monitor in tenths of a mV; that of VDD_CORE spans a change of its request (spec/18, Table 3; R376). -/
def railWindow (s : State) : Rail → Nat × Nat
  | .core =>
    let lo := if avsChanging s then s.power.avsLo.toNat else s.power.avsReq.toNat
    let hi := if avsChanging s then s.power.avsHi.toNat else s.power.avsReq.toNat
    (10 * (lo - 60), 10 * (hi + 40))
  | .sram => (7275, 7725)
  | .dram => (10670, 11330)
  | .iod0 | .iod1 => (7760, 8240)
  | .vdda0 | .vdda1 => (11760, 12240)

/-- Is a rail at this level, in mV, inside its window. -/
def inWindow (s : State) (x : Rail) (mv : BitVec 12) : Bool :=
  decide ((railWindow s x).1 ≤ 10 * mv.toNat ∧ 10 * mv.toNat ≤ (railWindow s x).2)

/-- DROOP_STRETCH: VDD_CORE at the region, in mV, below the stretch threshold, request - 25 mV, lengthens a period; in lock-step
mode only one below the critical threshold, request - 45 mV, does (R25, R26, R376). -/
def droopStretch (r : RegionId) (mv : BitVec 12) (s : State) : State :=
  let below (n : Nat) : Bool := decide (mv.toNat + n < s.power.avsReq.toNat)
  if regionRuns s r && below (if (regionAt s r).lsActive then 45 else 25) then
    modRegion s r (fun g =>
      { g with
        stretch := BitVec.ofNat 32 (satAdd 32 g.stretch.toNat 1)
        forced := if g.lsActive then BitVec.ofNat 16 (satAdd 16 g.forced.toNat 1) else g.forced })
  else s

/-! ### The governor -/

/-- The charge of a request in A (spec/16, Table 2). -/
def govCharge : GovReq → Nat
  | .wake n => if n.val < 17 then 80 else if n.val < 25 then 40 else 30
  | .raise _ k => 20 * k

/-- The requests that a window admits from the head of the queue, and those left (R343). -/
def govAdmit (budget : Nat) : Nat → List GovReq → List GovReq × List GovReq
  | _, [] => ([], [])
  | sum, x :: r =>
    if sum + govCharge x ≤ budget ∨ sum = 0 then
      let y := govAdmit budget (sum + govCharge x) r
      (x :: y.1, y.2)
    else ([], x :: r)

/-- An admitted request: a wake begins, or a region's clock raise may reach it. The first wake of a compute region in a cold
reset sends the first voltage request (R343, R378). -/
def govGrant (s : State) (x : GovReq) : State :=
  match x with
  | .wake n =>
    let s1 := setPow s n .waking
    if n.val < 17 then
      (if !s.power.ready && (awakeRegions s).isEmpty then avsSend (neededMv s1 (needEntry s1)) s1 else avsUpdate s1)
    else s1
  | .raise r _ => modPower s (fun w => { w with clk := w.clk.map (fun q => { q with admitted := r :: q.admitted }) })

/-- A cold reset enters step 3: AON has moved onto the reference, and every region asks to wake, IO1 if one of BP5 to BP9 is
enabled (R355; spec/16, Table 6). -/
def resetStep3 (s : State) : State :=
  let io1 := (List.finRange 10).any (fun p => decide (5 ≤ p.val) && (portAt s p).en)
  let ns : List (Fin 28) := (List.finRange 28).filter (fun n => decide (n.val ≠ 25) || io1)
  ns.foldl (fun u n => wakeRegion n u) (modPower s (fun w => { w with step := 3 }))

/-- GOVERNOR_WINDOW: the governor admits requests. The first window of a cold reset begins as AON moves onto the reference clock,
which ends step 2 (R343, R355). -/
def governorWindow (s : State) : State :=
  if s.power.aon && !s.power.resetLow && !s.power.refStop then
    let s1 := if decide (1 ≤ s.power.step.toNat ∧ s.power.step.toNat ≤ 2) && !s.power.warm then resetStep3 s else s
    let x := govAdmit (Nat.max s1.power.budget.toNat 1) 0 s1.power.queue
    if wakesAllowed s1 then x.1.foldl govGrant (modPower s1 (fun w => { w with queue := x.2 })) else s1
  else s

/-! ### The commands -/

/-- SET_CLOCK (R43). -/
def execSetClock (h : PktHdr) (mask : BitVec 17) (idx : Byte) (s : State) : Host.Outcome State Fault Refusal :=
  let t := onPacket 0x22 h 0 (setClock mask idx) s
  .next (if canTake h s && !h.rsv && (clkRefusal s idx.toNat).isNone then clkSettle t else t)

/-- CLK_REQ_GO (R346). -/
def execClkReqGo (b : BarAcc) (v : Word) (s : State) : Host.Outcome State Fault Refusal := .next (barWrite b (clkReqWrite b v) s)

/-- HOLD_RELEASE; a region whose clock was switched in the hold has then resumed (R34, R43). -/
def execHoldRelease (r : RegionId) (s : State) : Host.Outcome State Fault Refusal := .next (clkResume r (holdRelease r s))

/-- REGION_CLOCK_SWITCH (R43). -/
def execRegionClockSwitch (r : RegionId) (s : State) : Host.Outcome State Fault Refusal := .next (regionClockSwitch r s)

/-- CLOCK_SWITCH_DONE (R43). -/
def execClockSwitchDone (r : RegionId) (s : State) : Host.Outcome State Fault Refusal := .next (clockSwitchDone r s)

/-- LOCKSTEP_ACTIVE (R26). -/
def execLockstepActive (r : RegionId) (s : State) : Host.Outcome State Fault Refusal := .next (lockstepActive r s)

/-- DROOP_STRETCH (R25, R26, R376). -/
def execDroopStretch (r : RegionId) (mv : BitVec 12) (s : State) : Host.Outcome State Fault Refusal := .next (droopStretch r mv s)

/-- CG_CLKCTL_WRITE (R26). -/
def execCgClkctlWrite (b : BarAcc) (r : RegionId) (v : Word) (s : State) : Host.Outcome State Fault Refusal :=
  .next (barWrite b (cgClkctlWrite b r v) s)

/-- TALLY_CLEAR (R39). -/
def execTallyClear (b : BarAcc) (r : RegionId) (v : Word) (s : State) : Host.Outcome State Fault Refusal :=
  .next (barWrite b (tallyClear b r v) s)

/-- AVS_ACK (R379). -/
def execAvsAck (mv : BitVec 12) (s : State) : Host.Outcome State Fault Refusal := .next (avsAck mv s)

/-- AVS_TIMEOUT (R379). -/
def execAvsTimeout (s : State) : Host.Outcome State Fault Refusal := .next (avsTimeout s)

/-- GOVERNOR_WINDOW (R343). -/
def execGovernorWindow (s : State) : Host.Outcome State Fault Refusal := .next (governorWindow s)

end Sys2Proof.Machine
end

