-- ==== Sys2Proof/Machine/HostMem.lean ====
section
/-! DEFINITION. BAR 2 accesses to memory: what is refused, what waits for its stacks, and what an access finds and moves (R229, R238,
R249, R250, R340). -/

namespace Sys2Proof.Machine

/-- The core and offset of a range of the local store range (spec/01, Table 3). -/
def localRange (s : State) (a n : Nat) : Option (CoreId × Nat) :=
  if 0xC00000000000 ≤ a then
    let o := a - 0xC00000000000
    if o % 0x1000000 + n ≤ 0x800000 then (physicalOf s (o / 0x1000000)).map (fun c => (c, o % 0x1000000)) else none
  else none

/-- Why a mapped access cannot be carried out (R250). An address unmapped since its window was set counts as BAD_PARAM. -/
def hostRefusal (s : State) (x : HostAcc) (a : Nat) : Option Status :=
  match localRange s a x.len with
  | some (c, _) =>
    if x.write && (jobOf s c).isSome then some .resourceConflict else if x.ecc then some .eccUncorrected else none
  | none =>
    if s.wiping || !s.power.ready then some .badParam
    else if !isDram s a x.len then some .badParam
    else if touchesSealed s a x.len none then some .resourceConflict
    else if s.power.supply.getLsbD 2 then some .supplyFault
    else none

/-- An access that the device cannot carry out: a Completer Abort, recorded in HWIN_STAT (R250). -/
def hostAbort (st : Status) (x : HostAcc) (s : State) : State :=
  modHost s (fun h =>
    { h with lastWin := BitVec.ofNat 4 x.slot.val, lastStatus := BitVec.ofNat 16 (statusCode st)
             fails := BitVec.ofNat 32 (satAdd 32 h.fails.toNat 1), out := .aborted })

/-- The bytes that an access of a local store moves. -/
def hostLocal (x : HostAcc) (c : CoreId) (o : Nat) (s : State) : State :=
  let bs := (List.range x.len).map (fun i => x.data.getD i 0)
  if x.write then
    (if regionRuns s (regionOf c) then modCore (answerHost .done s) c (fun k => { k with store := memWrite k.store o bs })
      else answerHost .done s)
  else answerHost (.bytes (memRead (coreAt s c).store o x.len)) s

/-- An access of DRAM in host-path slots: its pieces are checked; those of a write whose error nothing corrects are not written, and
such an error completes the access with ECC_UNCORRECTED (R238, R239, R250). -/
def hostMoves (x : HostAcc) (a : Nat) (s : State) : State :=
  let bs := (List.range x.len).map (fun i => x.data.getD i 0)
  let (bad, s1) := accessRange x.write a x.len [] x.chks s
  let s2 := if x.write then dramWriteBut (bad.map (fun b => b.1)) a bs s1 else s1
  if bad.isEmpty then answerHost (if x.write then .done else .bytes (dramRead s2 a x.len)) s2 else hostAbort .eccUncorrected x s2

/-- Do two ranges share a stack. -/
def shareStack (s : State) (a n b m : Nat) : Bool := (stacksOf s a n).any (fun k => (stacksOf s b m).contains k)

/-- May an access of DRAM be served now: its stacks give the host path slots, and none of the accesses `ahead` waits for one of them
(R229, R340). -/
def hostServed (s : State) (ahead : List HostWait) (w : HostWait) : Bool :=
  rangeServed s hostOwner w.addr w.acc.len && ahead.all (fun x => !shareStack s x.addr x.acc.len w.addr w.acc.len)

/-- A mapped access is refused, served, or waits for its stacks, which it wakes (R250, R340, R342). -/
def hostTake (w : HostWait) (s : State) : State :=
  match hostRefusal s w.acc w.addr with
  | some st => hostAbort st w.acc s
  | none =>
    match localRange s w.addr w.acc.len with
    | some (c, o) => hostLocal w.acc c o s
    | none =>
      if hostServed s s.host.waiting w then hostMoves w.acc w.addr s
      else modHost (wakeStacks w.addr w.acc.len s) (fun h => { h with waiting := h.waiting ++ [w], out := .waits })

/-- An access that waited is carried out once it can be, or waits on. -/
def hostAgain (w : HostWait) (s : State) : State :=
  if (hostRefusal s w.acc w.addr).isSome || hostServed s s.host.waiting w then hostTake w s
  else modHost s (fun h => { h with waiting := h.waiting ++ [w] })

/-- Accesses that wait are served, in their order, as far as their stacks serve them now (R340). -/
def hostServe (s : State) : State :=
  s.host.waiting.foldl (fun u w => hostAgain w u) (modHost s (fun h => { h with waiting := [] }))

end Sys2Proof.Machine
end

