-- ==== Sys2Proof/Machine/Topology.lean ====
section
/-! DEFINITION. What the manager computes from the cables that its enumeration packets find: the enumeration tree, the identifiers, and
the up*/down* routes (R297, R301, R302). -/

namespace Sys2Proof.Machine

/-- A device that enumeration has reached: its number with the manager, identifier, tree depth, parent device with the parent's port and
its own, and the parent's identifier. Device 0 is the manager. -/
structure FabNode where
  dev : Nat
  id : Nat
  depth : Nat
  parent : Nat
  parentPort : Fin 10
  ownPort : Option (Fin 10)
  deriving DecidableEq, Repr

/-- The far end of a device's port: device and port. -/
def farEnd (cs : List FabLink) (u : Nat) (p : Fin 10) : Option (Nat × Fin 10) :=
  cs.findSome? (fun c => if c.a = u ∧ c.pa = p then some (c.b, c.pb) else if c.b = u ∧ c.pb = p then some (c.a, c.pa) else none)

/-- The ports of a device with a cable, in increasing order, with the device at the far end and its port. -/
def hopsOf (cs : List FabLink) (u : Nat) : List (Fin 10 × Nat × Fin 10) :=
  (List.finRange 10).filterMap (fun p => (farEnd cs u p).map (fun e => (p, e)))

/-- The devices of a domain that cables name. -/
def fabDevices (cs : List FabLink) : List Nat := (cs.flatMap (fun c => [c.a, c.b])).eraseDups

/-- Devices reached from some by at most `n` hops. -/
def fabReach (cs : List FabLink) : Nat → List Nat → List Nat
  | 0, us => us
  | n + 1, us => fabReach cs n (us ++ us.flatMap (fun u => (hopsOf cs u).map (fun h => h.2.1))).eraseDups

/-- The lowest identifier above `top` that no device of `known` holds (R302). -/
def freeIdAbove (top : Nat) (known : List (Nat × Nat)) : Nat :=
  ((List.range (known.length + 1)).map (fun i => top + 1 + i)).find? (fun n => !known.any (fun k => decide (k.2 = n))) |>.getD (top + 1)

/-- The tree as far as it has grown: devices with an identifier, those of the last level first to last by identifier, the identifiers
given out at any time, and the greatest in use. -/
structure FabTree where
  nodes : List FabNode
  known : List (Nat × Nat)
  top : Nat

/-- A device found at the far end of a parent's port joins the tree: it keeps its identifier, or takes the lowest free one above all in
use, while there is one (R301, R302). -/
def joinTree (t : FabTree) (parent : FabNode) (p : Fin 10) (dev : Nat) (own : Fin 10) : FabTree :=
  if t.nodes.any (fun n => decide (n.dev = dev)) then t
  else
    let kept := (t.known.find? (fun k => decide (k.1 = dev))).map (fun k => k.2)
    let id := kept.getD (freeIdAbove t.top t.known)
    if 16384 ≤ id then t
    else
      { nodes := t.nodes ++ [{ dev := dev, id := id, depth := parent.depth + 1, parent := parent.dev, parentPort := p, ownPort := some own }]
        known := if kept.isSome then t.known else t.known ++ [(dev, id)]
        top := Nat.max t.top id }

/-- Insert a device by identifier. -/
def insertNode (x : FabNode) : List FabNode → List FabNode
  | [] => [x]
  | y :: r => if x.id < y.id then x :: y :: r else y :: insertNode x r

/-- One level: each device of the last level, by identifier, over its ports in increasing order (R301). -/
def growLevel (cs : List FabLink) (depth : Nat) (t : FabTree) : FabTree :=
  let level := (t.nodes.filter (fun n => decide (n.depth = depth))).foldl (fun l n => insertNode n l) []
  level.foldl (fun u n => (hopsOf cs n.dev).foldl (fun v h => joinTree v n h.1 h.2.1 h.2.2) u) t

/-- The enumeration tree, breadth first to a depth of 24, under the identifiers given before (R301, R302). -/
def fabTree (cs : List FabLink) (known : List (Nat × Nat)) : FabTree :=
  let reached := fabReach cs 24 [0]
  let known0 := if known.isEmpty then [(0, 0)] else known
  let inUse := (known0.filter (fun k => reached.contains k.1)).map (fun k => k.2)
  (List.range 24).foldl (fun t d => growLevel cs d t)
    { nodes := [{ dev := 0, id := 0, depth := 0, parent := 0, parentPort := 0, ownPort := none }], known := known0
      top := inUse.foldl Nat.max 0 }

/-- Does a hop lead up, toward the lower (tree depth, identifier) (R297). -/
def upHop (u v : FabNode) : Bool := decide (v.depth < u.depth ∨ (v.depth = u.depth ∧ v.id < u.id))

/-- A device's place on an up*/down* route: its number, and whether the route may still go up. -/
abbrev FabPlace := Nat × Bool

/-- The places that a hop from a place leads to, with the port (R297). -/
def placeHops (cs : List FabLink) (nodes : List FabNode) (x : FabPlace) : List (Fin 10 × FabPlace) :=
  match nodes.find? (fun n => decide (n.dev = x.1)) with
  | none => []
  | some u =>
    (hopsOf cs u.dev).filterMap (fun h =>
      match nodes.find? (fun n => decide (n.dev = h.2.1)) with
      | none => none
      | some v => if upHop u v then (if x.2 then some (h.1, (v.dev, true)) else none) else some (h.1, (v.dev, false)))

/-- The places from which some places are reached by at most `n` hops. -/
def placesWithin (cs : List FabLink) (nodes : List FabNode) (goal : List FabPlace) : Nat → List FabPlace
  | 0 => goal
  | n + 1 =>
    let near := placesWithin cs nodes goal n
    near ++ (nodes.flatMap (fun u => [(u.dev, true), (u.dev, false)])).filter (fun x =>
      !near.contains x && (placeHops cs nodes x).any (fun h => near.contains h.2))

/-- The port of a device's route to another: of the shortest routes that never go up after going down, the one whose ports are lowest,
hop by hop (R297). A route within the tree has at most 48 hops. -/
def routeTo (cs : List FabLink) (nodes : List FabNode) (u dst : Nat) : Option (Fin 10) :=
  let goal : List FabPlace := [(dst, true), (dst, false)]
  match (List.range 48).find? (fun n => (placesWithin cs nodes goal (n + 1)).contains (u, true)) with
  | none => none
  | some n => ((placeHops cs nodes (u, true)).find? (fun h => (placesWithin cs nodes goal n).contains h.2)).map (fun h => h.1)

/-- A device's route table: identifier and port (R297). -/
def routeTable (cs : List FabLink) (nodes : List FabNode) (u : Nat) : List (Nat × Option PortId) :=
  (nodes.foldl (fun l n => insertNode n l) []).filterMap (fun n =>
    if n.dev = u then none else (routeTo cs nodes u n.dev).map (fun p => (n.id, some p)))

/-- The ports of a device's tree children (R301). -/
def kidPorts (nodes : List FabNode) (u : Nat) : List PortId :=
  (nodes.filter (fun n => decide (n.dev ≠ u) && decide (n.parent = u) && n.ownPort.isSome)).map (fun n => n.parentPort)

/-- How many devices have no identifier (R301). -/
def unassignedOf (cs : List FabLink) (nodes : List FabNode) : Nat :=
  ((fabDevices cs).filter (fun d => !nodes.any (fun n => decide (n.dev = d)))).length

end Sys2Proof.Machine
end

