-- ==== Sys2Proof/Machine/Fabric.lean ====
section
/-! DEFINITION. The link engine, enumeration, barriers and fabric-wide groups (R300 to R317). -/

namespace Sys2Proof.Machine

/-! ### Taking link commands (R309, R310) -/

/-- The fields of a link command (spec/14, Table 4). -/
def lcField (d : Desc) (lo w : Nat) : Nat := fieldOf d.word0.toNat lo w

/-- OP of a link command. -/
def lcOp (d : Desc) : Nat := lcField d 0 4

/-- SRC of a contribution: the rows come from a wide tile of the core. Table 4 gives the field to contribute commands only. -/
def lcSrc (d : Desc) : Bool := decide (lcOp d = 2) && bitOf d.word0.toNat 54

/-- Bytes of a row of a contribution. -/
def lcRowBytes (d : Desc) : Nat := if bitOf d.word0.toNat 28 then 2048 else 512

/-- Data bytes of a link command. -/
def lcBytes (d : Desc) : Nat :=
  if lcOp d = 1 then 32 * fieldOf d.word3.toNat 0 24 else if lcOp d = 2 then (lcField d 36 7 + 1) * lcRowBytes d else 0

/-- A reserved value or a reserved field that is not zero (R310). -/
def lcReserved (d : Desc) : Bool :=
  decide (lcOp d = 0) || decide (3 < lcOp d) || decide (d.word0.toNat / 2 ^ 55 ≠ 0) || decide (d.word1.toNat / 2 ^ 48 ≠ 0) ||
    decide (d.word2.toNat / 2 ^ 48 ≠ 0) || decide (d.word3.toNat / 2 ^ 24 ≠ 0) ||
    (if lcSrc d then decide (1 < d.word1.toNat) else decide (d.word1.toNat % 32 ≠ 0)) || decide (d.word2.toNat % 32 ≠ 0) ||
    (decide (lcOp d ≠ 1) && decide (d.word3 ≠ 0))

/-- The first status of R310 that applies to a command of a core. -/
def lcFault (s : State) (c : CoreId) (d : Desc) : Option Status :=
  let dest := BitVec.ofNat 14 (lcField d 5 14)
  if lcReserved d || (lcSrc d && (!bitOf d.word0.toNat 28 || !hasWide s)) then some .badParam
  else if lcOp d = 1 ∧ lcBytes d = 0 then some .length
  else if lcSrc d = false ∧ lcOp d ≠ 3 ∧
      mayTouch s (coreAt s c).skd.windows (fieldOf d.word1.toNat 0 48) (lcBytes d) false = false then some .bounds
  else if isOwnId s dest = false ∧ routeOf s dest = none then some .peerLost
  else none

/-- The bytes that a command carries: from DRAM, or the rows of a wide tile (R310, R312). -/
def lcData (s : State) (c : CoreId) (d : Desc) : List Byte :=
  if lcOp d = 3 then []
  else if lcSrc d then
    let w := wideOf (coreAt s c) (bitOf d.word1.toNat 0)
    ((List.range ((lcField d 36 7 + 1) * 128)).map (fun i =>
      leBytes 16 (cellGet 0#128 w.elems (lcField d 29 7 * 128 + i)).toNat)).flatten
  else dramRead s (fieldOf d.word1.toNat 0 48) (lcBytes d)

/-- Bytes in packets of up to 2,048 (R310), with the offset of each. -/
def chunks : Nat → Nat → List Byte → List (Nat × List Byte)
  | 0, _, _ => []
  | n + 1, off, bs => if bs.isEmpty then [] else (off, bs.take 2048) :: chunks n (off + 2048) (bs.drop 2048)

/-- What the packets of a contribution say of it: with SRC set, the wide tile's anchor and NaN flag (R312). -/
def lcInfo (s : State) (c : CoreId) (d : Desc) (final : Bool) : ContribInfo :=
  let w0 := d.word0.toNat
  let w := wideOf (coreAt s c) (bitOf d.word1.toNat 0)
  { rcore := Fin.ofNat 64 (lcField d 19 6), rk := Fin.ofNat 8 (lcField d 25 3), wide := bitOf w0 28
    row0 := Fin.ofNat 128 (lcField d 29 7), nrowsM1 := Fin.ofNat 128 (lcField d 36 7)
    anchor := if lcSrc d then w.anchor else BitVec.ofNat 10 (lcField d 43 10)
    nan := if lcSrc d then w.nan else bitOf w0 53, final := final }

/-- The packets of a command that carries the bytes `bs` (R296, R310, R312). -/
def lcPackets (s : State) (c : CoreId) (l : LinkCmd) (bs : List Byte) : List LinkPkt :=
  let d := l.words
  let base : LinkPkt :=
    { pk := BitVec.ofNat 4 (lcOp d), dst := linkDest d, src := s.fabric.id
      core := Fin.ofNat 64 ((logicalOf s c).getD 0), cmd := BitVec.ofNat 19 l.index, addr := 0, status := 0, data := [] }
  if lcOp d = 3 then [{ base with addr := BitVec.ofNat 48 (lcField d 19 6 + 64 * lcField d 25 3) }]
  else
    (chunks (bs.length / 2048 + 1) 0 bs).map (fun z =>
      { base with
        addr := BitVec.ofNat 48 (fieldOf d.word2.toNat 0 48 + z.1), data := z.2
        info := if lcOp d = 2 then some (lcInfo s c d (decide (bs.length ≤ z.1 + 2048))) else none })

/-- Packets of a command are sent in order; the last is marked (R296). -/
def sendAll (owner : Option (CoreId × Nat)) : List LinkPkt → State → State
  | [], s => s
  | [x], s => sendPkt x owner true s
  | x :: r, s => sendAll owner r (sendPkt x owner false s)

/-- A fence of a core's job found by an I/O region (spec/12, Table 10). -/
def linkFault (st : Status) (c : CoreId) (via : Bool) : FaultInfo :=
  { status := st, pcore := some c, region := if via then 0x31 else 0x30, detail0 := 0, detail1 := 0 }

/-- Does the I/O region of a VIA run. -/
def viaRuns (s : State) (via : Bool) : Bool := if via then powAt s 25 == .running else powAt s 27 == .running

/-- Commands of a core outstanding: from the crossing to the acknowledgement (R309). -/
def outstanding (k : Core) : Nat := (k.links.filter (fun l => !l.acked)).length

/-- Does a command read DRAM. -/
def lcReads (d : Desc) : Bool := decide (lcOp d = 1 ∨ lcOp d = 2) && !lcSrc d

/-- The command of a core that an I/O region takes next: the oldest in the crossing towards an I/O region that runs (R309). -/
def nextLink (s : State) (c : CoreId) : Option LinkCmd :=
  (coreAt s c).links.find? (fun l => !l.taken && viaRuns s (linkVia l.words))

/-- A command that passed its checks is carried out: its source is read in link slots, and its packets are sent; an error that nothing
corrects fences the sender's job (R237, R310, R312). -/
def linkSend (c : CoreId) (l : LinkCmd) (chks : List (Nat × PieceCheck)) (s : State) : State :=
  let d := l.words
  let a := fieldOf d.word1.toNat 0 48
  let (bad, s1) := if lcReads d then accessRange false a (lcBytes d) [] chks s else ([], s)
  match bad with
  | b :: _ =>
    fenceCore c { linkFault .eccUncorrected c (linkVia d) with
      detail0 := BitVec.ofNat 32 b.2, detail1 := BitVec.ofNat 32 (offsetOf s1 b.1) } s1
  | [] =>
    sendAll (some (c, l.seqNo)) (lcPackets s1 c l (lcData s1 c d))
      (modCore s1 c (fun k =>
        { k with links := k.links.map (fun m => if m.seqNo = l.seqNo then { m with taken := true } else m) }))

/-- LINK_COMMAND_TAKE: an I/O region takes a core's next command from the crossing, checks it and sends its packets, once the stacks it
reads give the region slots; a stack that sleeps is woken (R229, R309, R310, R317, R320, R340, R342). -/
def linkTake (c : CoreId) (chks : List (Nat × PieceCheck)) (s : State) : State :=
  let k := coreAt s c
  match nextLink s c with
  | none => s
  | some l =>
    let d := l.words
    let a := fieldOf d.word1.toNat 0 48
    if !s.power.lost && decide (outstanding k < 64) && !coreFencing k then
      match lcFault s c d with
      | some st => fenceCore c (linkFault st c (linkVia d)) s
      | none =>
        if lcReads d && !rangeServed s (linkOwner (linkVia d)) a (lcBytes d) then nudgeStacks a (lcBytes d) s
        else linkSend c l chks s
    else s

/-! ### Arrivals (R311 to R313) -/

/-- An acknowledgement of a command of another device (R314, R315; spec/14, Table 3). -/
def sendAck (dst : BitVec 14) (core : Fin 64) (cmd : BitVec 19) (st : Status) (progress : Bool) (s : State) : State :=
  sendPkt { pk := 4, dst := dst, src := s.fabric.id, core := core, cmd := cmd, addr := BitVec.ofNat 48 (bitNat progress)
            status := BitVec.ofNat 16 (statusCode st), data := [] } none true s

/-- Does a packet arrive through this port for this device. -/
def arrives (s : State) (p : PortId) (x : LinkPkt) : Bool :=
  isOwnId s x.dst && (portUp s p || (isOwnId s x.src && portRuns s p))

/-- Does an enabled receive window hold a range (R311). -/
def winHolds (w : LrxWin) (a n : Nat) : Bool :=
  w.en && decide (w.base.toNat * 4096 ≤ a ∧ a + n ≤ w.base.toNat * 4096 + 2 ^ w.size.toNat)

/-- The first enabled receive window that holds a range (R311). -/
def lrxFind (s : State) (a n : Nat) : Option (Fin 8) := (List.finRange 8).find? (fun i => winHolds (s.fabric.lrx.get i) a n)

/-- May link writes touch a range: in DRAM that has not failed, and none during a warm reset (R311, R356). -/
def lrxMemory (s : State) (a n : Nat) : Bool := isDram s a n && !(s.power.warm && !s.power.ready)

/-- The name of a packet's command. -/
def pktKey (x : LinkPkt) : Nat × Nat × Nat := (x.src.toNat, x.core.val, x.cmd.toNat)

/-- The command that a packet continues, or begins: the window of a write is that of its first packet, and of a contribution the one that
holds the whole staging area of `area` bytes (R311; DEDUCED, log entry 117). -/
def landingOf (s : State) (x : LinkPkt) (area : Option Nat) : Landing :=
  (s.fabric.landing.find? (fun l => decide (l.key = pktKey x))).getD
    { key := pktKey x, win := lrxFind s x.addr.toNat (area.getD x.data.length), base := x.addr.toNat }

/-- May a packet's bytes be written: its command's window still holds them, and memory takes them (R311). -/
def landAllowed (s : State) (l : Landing) (x : LinkPkt) : Bool :=
  lrxMemory s x.addr.toNat x.data.length &&
    (match l.win with
      | some w => winHolds (s.fabric.lrx.get w) x.addr.toNat x.data.length
      | none => false)

/-- A packet's command is noted as arriving until its last packet. -/
def noteLanding (l : Landing) (final : Bool) (s : State) : State :=
  modFabric s (fun f =>
    let rest := f.landing.filter (fun m => decide (m.key ≠ l.key))
    { f with landing := if final then rest else rest ++ [l] })

/-- The data of an arriving packet is written, but for pieces with an error that nothing corrects; or it is discarded and remembered
(R238, R311). -/
def landData (x : LinkPkt) (area : Option Nat) (final : Bool) (chks : List (Nat × PieceCheck)) (s : State) : State :=
  let a := x.addr.toNat
  let l := landingOf s x area
  let s0 := noteLanding l final s
  if landAllowed s l x then
    let (bad, s1) := accessRange true a x.data.length [] chks s0
    let s2 := dramWriteBut (bad.map (fun b => b.1)) a x.data s1
    if bad.isEmpty then s2
    else modFabric s2 (fun f => { f with landBad := if f.landBad.contains (pktKey x) then f.landBad else f.landBad ++ [pktKey x] })
  else modFabric s0 (fun f => { f with refused := if f.refused.contains (pktKey x) then f.refused else f.refused ++ [pktKey x] })

/-- The status of a command whose last packet has arrived, and its notes gone: BOUNDS where a packet lay outside the windows,
ECC_UNCORRECTED where a piece could not be written (R238, R311, R314). -/
def takeLanded (x : LinkPkt) (s : State) : Status × State :=
  (if s.fabric.refused.contains (pktKey x) then .bounds else if s.fabric.landBad.contains (pktKey x) then .eccUncorrected else .ok,
    modFabric s (fun f =>
      { f with refused := f.refused.filter (fun k => decide (k ≠ pktKey x)), landBad := f.landBad.filter (fun k => decide (k ≠ pktKey x)) }))

/-- The last byte of a partner's snapshot has been accepted: its epoch, the first word of the slot, is reported to the manager
(R335; spec/15, Table 5). -/
def reportSent (src : BitVec 14) (slot : Nat) (s : State) : State :=
  sendPkt (ctlPkt s 7 0 0x60 (leBytes 2 src.toNat ++ leBytes 4 (dramNat s slot 4))) none true s

/-- An arriving write packet is carried out: the bytes are written or discarded, and the last packet of the command is acknowledged; the
last of a partner's snapshot is reported too (R311, R314, R335). -/
def writeIn (x : LinkPkt) (final : Bool) (chks : List (Nat × PieceCheck)) (s : State) : State :=
  let base := (landingOf s x none).base
  let s1 := landData x none final chks s
  if final then
    match takeLanded x s1 with
    | (st, s2) =>
      let s3 := sendAck x.src x.core x.cmd st false s2
      if x.cmd = fwCmd false ∧ st = .ok then reportSent x.src base s3 else s3
  else s1

/-- The core that a logical core number names. -/
def rcoreOf (s : State) (l : Fin 64) : Option CoreId := physicalOf s l.val

/-- May a contribution enter the queue it names: its core runs a job, and the queue is in wide mode (R312). -/
def entryTarget (s : State) (e : LinkEntry) : Option CoreId :=
  match rcoreOf s e.rcore with
  | some c => if (coreAt s c).seq.job.isSome && (combOf (coreAt s c) e.k).mode then some c else none
  | none => none

/-- Contributions beyond the per-core buffers: those of the pending store, then those that wait for it (R312). -/
def beyondBuf (s : State) : List LinkEntry := s.fabric.store ++ s.fabric.arrived

/-- A contribution whose rows are in memory waits for its queue: in its core's buffer of 16, in the pending store of 1,024, or
without credit for its sender's class (R312). -/
def placeEntry (e : LinkEntry) (s : State) : State :=
  match rcoreOf s e.rcore with
  | none => s
  | some c =>
    if (coreAt s c).linkBuf.length < 16 ∧ (beyondBuf s).any (fun x => decide (x.rcore = e.rcore)) = false then
      modCore s c (fun k => { k with linkBuf := k.linkBuf ++ [e] })
    else if s.fabric.store.length < 1024 ∧ s.fabric.arrived.isEmpty then modFabric s (fun f => { f with store := f.store ++ [e] })
    else modFabric s (fun f => { f with arrived := f.arrived ++ [e] })

/-- The wide contribution that a link contribution enters (R312; spec/10, Table 3). -/
def entryWords (x : ContribInfo) (raddr : Nat) : Desc :=
  { word0 := BitVec.ofNat 64 (packFields [(0, bitNat x.wide), (2, x.row0.val), (9, x.nrowsM1.val), (16, x.anchor.toNat),
      (26, bitNat x.nan)])
    word1 := BitVec.ofNat 64 raddr, word2 := 0, word3 := 0 }

/-- Must an entry wait for its queue now (R315). -/
def entryWaits (s : State) (e : LinkEntry) : Bool :=
  match entryTarget s e with
  | some c => decide (16 ≤ (combOf (coreAt s c) e.k).entries.length)
  | none => false

/-- Has a contribution just placed to wait: for its queue, or beyond a full buffer of its core (R315). -/
def waitsPlaced (s : State) (e : LinkEntry) : Bool := entryWaits s e || (beyondBuf s).contains e

/-- An arriving contribution packet is carried out: rows are written to the staging area; after the last the contribution waits to enter,
with a first progress acknowledgement where it has to wait (R312, R315). -/
def contributionIn (p : PortId) (x : LinkPkt) (i : ContribInfo) (chks : List (Nat × PieceCheck)) (s : State) : State :=
  let total := (i.nrowsM1.val + 1) * (if i.wide then 2048 else 512)
  let base := (landingOf s x (some total)).base
  let s1 := landData x (some total) i.final chks s
  if i.final then
    let e : LinkEntry := { k := i.rk, rcore := i.rcore, words := entryWords i base, src := x.src, core := x.core, cmd := x.cmd, port := p }
    match takeLanded x s1 with
    | (.ok, s2) =>
      match entryTarget s2 e with
      | none => sendAck x.src x.core x.cmd .channelClosed false s2
      | some _ =>
        let s3 := placeEntry e s2
        if waitsPlaced s3 e then sendAck x.src x.core x.cmd .ok true s3 else s3
    | (st, s2) => sendAck x.src x.core x.cmd st false s2
  else s1

/-- Entries move up: from the pending store into their cores' buffers, and from beyond into the store (R312). -/
def refill (s : State) : State :=
  let es := beyondBuf s
  es.foldl (fun u e => placeEntry e u) (modFabric s (fun f => { f with store := [], arrived := [] }))

/-- Contributions of the sender of a flag that have not entered their queues (R313). -/
def entriesAhead (s : State) (src : BitVec 14) (core : Fin 64) (p : PortId) : List LinkEntry :=
  (beyondBuf s ++ (allCores.map (fun c => (coreAt s c).linkBuf)).flatten).filter (fun e =>
    decide (e.src = src) && decide (e.core = core) && decide (e.port = p))

/-- A flag is raised and acknowledged, or refused (R313). -/
def raiseFlag (src : BitVec 14) (core : Fin 64) (cmd : BitVec 19) (rcore : Fin 64) (f : Fin 8) (s : State) : State :=
  let live (c : CoreId) : Bool :=
    match (coreAt s c).seq.job with
    | some j => canFence (jobAt s j)
    | none => false
  match rcoreOf s rcore with
  | some c =>
    if live c then
      sendAck src core cmd .ok false
        (modCore s c (fun k => { k with xflags := k.xflags.set f.val (k.xflags.get f + 1) f.isLt }))
    else sendAck src core cmd .channelClosed false s
  | none => sendAck src core cmd .channelClosed false s

/-- An arriving flag is carried out: it is raised once every earlier contribution of its sender has entered its queue (R313, R315). -/
def flagIn (p : PortId) (x : LinkPkt) (rcore : Fin 64) (f : Fin 8) (s : State) : State :=
  let ahead := entriesAhead s x.src x.core p
  if ahead.isEmpty then raiseFlag x.src x.core x.cmd rcore f s
  else
    sendAck x.src x.core x.cmd .ok true (modFabric s (fun fb =>
      { fb with flags := fb.flags ++ [{ src := x.src, core := x.core, cmd := x.cmd, rcore := rcore, flag := f, port := p,
                                        behind := ahead.map (fun e => e.cmd) }] }))

/-! ### The inbound queues (R311, R340) -/

/-- The I/O region of a port. -/
def portVia (p : PortId) : Bool := decide (5 ≤ p.val)

/-- The packets that wait in an I/O region. -/
def inboundIo (s : State) (via : Bool) : List LinkIn := s.fabric.inbound.get (if via then 1 else 0)

/-- The state with those replaced. -/
def setInboundIo (via : Bool) (l : List LinkIn) (s : State) : State :=
  modFabric s (fun f => { f with inbound := if via then f.inbound.set 1 l else f.inbound.set 0 l })

/-- The range that a waiting packet writes; none where it writes nothing, its bytes discarded. -/
def inRange (s : State) (y : LinkIn) : Option (Nat × Nat) :=
  let of_ (x : LinkPkt) (area : Option Nat) : Option (Nat × Nat) :=
    if landAllowed s (landingOf s x area) x then some (x.addr.toNat, x.data.length) else none
  match y with
  | .write _ x _ => of_ x none
  | .contribution _ x i => of_ x (some ((i.nrowsM1.val + 1) * (if i.wide then 2048 else 512)))
  | .flag _ _ _ _ => none

/-- Do the stacks that a packet writes serve its I/O region now (R229, R236, R340). -/
def inServed (s : State) (via : Bool) (y : LinkIn) : Bool :=
  match inRange s y with
  | some r => rangeServed s (linkOwner via) r.1 r.2
  | none => true

/-- A packet is carried out. -/
def carryIn (y : LinkIn) (chks : List (Nat × PieceCheck)) (s : State) : State :=
  match y with
  | .write _ x final => writeIn x final chks s
  | .contribution p x i => contributionIn p x i chks s
  | .flag p x rcore f => flagIn p x rcore f s

/-- A packet is carried out in its order of arrival: at once where none waits before it and its stacks serve it, else it waits, and its
stacks wake (R311, R340, R342). -/
def takeIn (via : Bool) (y : LinkIn) (chks : List (Nat × PieceCheck)) (s : State) : State :=
  if (inboundIo s via).isEmpty && inServed s via y then carryIn y chks s
  else
    let s1 := setInboundIo via (inboundIo s via ++ [y]) s
    match inRange s y with
    | some r => nudgeStacks r.1 r.2 s1
    | none => s1

/-- Packets that waited in an I/O region are carried out, in order, as far as their stacks serve them now (R340). -/
def linkServe (via : Bool) (s : State) : State :=
  (inboundIo s via).foldl (fun u y => takeIn via y [] u) (setInboundIo via [] s)

/-- LINK_WRITE_PACKET (R311). -/
def linkWrite (p : PortId) (x : LinkPkt) (final : Bool) (chks : List (Nat × PieceCheck)) (s : State) : State :=
  if arrives s p x then takeIn (portVia p) (.write p x final) chks s else s

/-- LINK_CONTRIBUTION_PACKET (R312). -/
def linkContribution (p : PortId) (x : LinkPkt) (i : ContribInfo) (chks : List (Nat × PieceCheck)) (s : State) : State :=
  if arrives s p x then takeIn (portVia p) (.contribution p x i) chks s else s

/-- LINK_FLAG_PACKET (R313). -/
def linkFlag (p : PortId) (x : LinkPkt) (rcore : Fin 64) (f : Fin 8) (s : State) : State :=
  if arrives s p x then takeIn (portVia p) (.flag p x rcore f) [] s else s

/-- Has a flag nothing left to wait for. -/
def flagReady (s : State) (w : FlagWait) : Bool :=
  (entriesAhead s w.src w.core w.port).all (fun e => !w.behind.contains e.cmd)

/-- Flags whose wait has ended are raised, in the order of their arrival (R313). -/
def settleFlags (s : State) : State :=
  let go := s.fabric.flags.filter (flagReady s)
  go.foldl (fun u w => raiseFlag w.src w.core w.cmd w.rcore w.flag u)
    (modFabric s (fun f => { f with flags := f.flags.filter (fun w => !flagReady s w) }))

/-- The entry of a core's buffer that goes next: the oldest whose queue has room or is not there any more. -/
def nextEntry (s : State) (c : CoreId) : Option LinkEntry := (coreAt s c).linkBuf.find? (fun e => !entryWaits s e)

/-- CONTRIBUTION_ENTRY: a contribution enters its combining queue and its command is acknowledged; one whose core runs no job, or
whose queue is not in wide mode, is discarded (R312, R314). -/
def contributionEntry (c : CoreId) (s : State) : State :=
  match nextEntry s c with
  | none => s
  | some e =>
    let s1 := modCore s c (fun k => { k with linkBuf := k.linkBuf.erase e })
    let s2 := match entryTarget s e with
      | some d =>
        sendAck e.src e.core e.cmd .ok false
          (modCore s1 d (fun k => combEnter k e.k e.words (nowAt s1 d) (periodAt s1 d)))
      | none => sendAck e.src e.core e.cmd .channelClosed false s1
    settleFlags (refill s2)

/-- PROGRESS_ACK_TIMER: contributions and flags that wait for a core are acknowledged as in progress (R315). -/
def progressAcks (c : CoreId) (s : State) : State :=
  let mine (l : Fin 64) : Bool := decide (rcoreOf s l = some c)
  let es := (coreAt s c).linkBuf ++ (beyondBuf s).filter (fun e => mine e.rcore)
  let fs := s.fabric.flags.filter (fun w => mine w.rcore)
  fs.foldl (fun u w => sendAck w.src w.core w.cmd .ok true u) (es.foldl (fun u e => sendAck e.src e.core e.cmd .ok true u) s)

/-- ACK_TIMEOUT: the timer of the command at ring index `n` has reached ACKTMO (R314). -/
def ackTimeout (c : CoreId) (n : Nat) (s : State) : State :=
  match (coreAt s c).links.find? (fun l => decide (l.index = n) && l.sent && !l.acked) with
  | some l => fenceCore c (linkFault .peerLost c (linkVia l.words)) s
  | none => s

/-- A command of a core is acknowledged. -/
def setAcked (n : Nat) (k : Core) : Core :=
  { k with links := k.links.map (fun m => if m.seqNo = n then { m with acked := true } else m) }

/-- An acknowledgement of a core's command (R314, R315): one for a command of a job that is fenced, or was, is discarded. Those of one
destination return in order (R317; DEDUCED, log entry 116). -/
def coreAck (x : LinkPkt) (s : State) : State :=
  match rcoreOf s x.core with
  | none => s
  | some c =>
    let k := coreAt s c
    let late := (x.src, x.cmd.toNat)
    if k.lateAcks.contains late then
      (if x.addr.getLsbD 0 then s else modCore s c (fun k => { k with lateAcks := k.lateAcks.erase late }))
    else
    match k.links.find? (fun l => l.taken && !l.acked && decide (l.index = x.cmd.toNat)), k.seq.job with
    | some l, some j =>
      if x.addr.getLsbD 0 then s
      else if canFence (jobAt s j) = false then modCore s c (setAcked l.seqNo)
      else if x.status = 0 then modCore s c (fun k => countDone (setAcked l.seqNo k))
      else fenceCore c (linkFault (statusOf x.status.toNat) c (linkVia l.words)) s
    | _, _ => s

/-! ### Enumeration (R300 to R303) -/

/-- Has every enabled port come up or spent 25 ms in training (R300). -/
def portsSettled (s : State) : Bool :=
  (List.finRange 10).all (fun p => !(portRuns s p && (portAt s p).en) || (portAt s p).settled)

/-- ENUMERATION_START: the manager begins, with identifier 0, once every enabled port is up or has spent 25 ms in training, and again
whenever a port has changed state (R300). -/
def enumStart (s : State) : State :=
  let f := s.fabric
  if f.mgr && decide (f.enumSt ≠ 3) && mgtRuns s && s.power.ready && portsSettled s && (decide (f.enumSt = 0) || f.moved) then
    modFabric s (fun f => { f with idValid := true, id := 0, depth := 0, parent := 0xF, enumSt := 1, moved := false })
  else s

/-- Route entries with one rewritten (R302). -/
def setRoute (rs : List (Nat × Option PortId)) (x : BitVec 14 × Option (Fin 10)) : List (Nat × Option PortId) :=
  cellSet none rs x.1.toNat x.2

/-- The manager has found the cables of its domain: it assigns identifiers, writes its own routes, and sends each device what it has to
know, of which the spec gives no layout (R297, R301, R302; DESIGN CHOICE, log entry 118). -/
def enumerate (cs : List FabLink) (s : State) : State :=
  let t := fabTree cs s.fabric.known
  let s1 := modFabric s (fun f =>
    { f with
      routes := routeTable cs t.nodes 0, kids := kidPorts t.nodes 0, known := t.known
      unassigned := BitVec.ofNat 14 (unassignedOf cs t.nodes), enumSt := 2, tsync := true })
  t.nodes.foldl (fun u n => if n.dev = 0 then u else sendPkt (ctlPkt s1 6 (BitVec.ofNat 14 n.id) n.depth []) none true u) s1

/-- A worker takes what an enumeration packet brings it (R301, R302). -/
def enumTake (x : EnumPkt) (s : State) : State :=
  modFabric s (fun f =>
    let f1 := match x.assign with
      | some (i, d, p) => { f with idValid := true, id := i, depth := d, parent := p }
      | none => f
    { f1 with kids := x.kids.getD f1.kids, routes := x.routes.foldl setRoute f1.routes, enumSt := if x.done then 2 else 1 })

/-- ENUMERATION_PACKET: to the manager it brings what it has found, to a worker its identifier and routes; from another manager it stops
enumeration (R301 to R303). -/
def enumPacket (x : EnumPkt) (s : State) : State :=
  if s.fabric.enumSt = 3 ∨ mgtRuns s = false then s
  else if s.fabric.mgr && x.fromOther then raiseAlert .resourceConflict 0 (modFabric s (fun f => { f with enumSt := 3 }))
  else if s.fabric.mgr then
    (match x.found with
      | some cs => if s.fabric.enumSt = 1 then enumerate cs s else s
      | none => s)
  else enumTake x s

/-! ### Barriers (R306, R307) -/

/-- A barrier. -/
def barAt (s : State) (b : Fin 8) : Barrier := s.fabric.barm.get b

/-- The state with a barrier changed. -/
def modBar (s : State) (b : Fin 8) (f : Barrier → Barrier) : State :=
  modFabric s (fun x => { x with barm := x.barm.set b.val (f (x.barm.get b)) b.isLt })

/-- LEAD microseconds in units of 1/16 ns. -/
def leadTime (s : State) : Word := BitVec.ofNat 64 (s.fabric.lead.toNat * 16000)

/-- A release: the barrier is disarmed; its job starts at T. It goes on down the tree (R306, R307). -/
def barRelease (b : Fin 8) (t : Word) (s : State) : State :=
  let x := barAt s b
  if x.state = 1 then
    let late := decide (t.toNat < s.fabric.time.toNat)
    sendDown 7 (0x10 + b.val) (leBytes 8 t.toNat) (modBar s b (fun x =>
      { x with mode := 0, state := 2, late := x.late || late, kids := [], selfIn := false
               release := if x.mode = 2 then some t else none }))
  else s

/-- A barrier at which this device and its tree children have all arrived is reported to the parent; the manager releases it
(R306). -/
def barCheck (b : Fin 8) (s : State) : State :=
  let x := barAt s b
  if x.selfIn && s.fabric.kids.all (fun p => x.kids.contains p) && decide (x.state ≠ 1) then
    let s1 := modBar s b (fun x => { x with state := 1 })
    if s.fabric.mgr then barRelease b (s.fabric.time + leadTime s) s1 else sendUp 7 b.val [] s1
  else s

/-- Does this device's own condition of arrival hold (R306). -/
def barCondition (s : State) (b : Fin 8) : Bool :=
  let x := barAt s b
  decide (x.mode = 1) || (decide (x.mode = 2) && (jobAt s (jobIx x.job.toNat)).state == .ready)

/-- Does AUX_SYNC gate a barrier (R374). -/
def auxGates (s : State) (b : Fin 8) : Bool := s.power.auxBar && decide (s.power.auxBarrier.toNat = b.val)

/-- BARRIER_ARRIVE: this device's own arrival where its condition holds and no AUX_SYNC edge is awaited, or a tree child's report
(R306, R374). -/
def barArrive (b : Fin 8) (child : Option PortId) (s : State) : State :=
  match child with
  | none =>
    if barCondition s b && !auxGates s b && mgtRuns s then barCheck b (modBar s b (fun x => { x with selfIn := true })) else s
  | some p =>
    if s.fabric.kids.contains p && portUp s p then
      barCheck b (modBar s b (fun x => { x with kids := if x.kids.contains p then x.kids else x.kids ++ [p] }))
    else s

/-- BARRIER_START_AT_T: the released job starts at T; at once where the release was late or time is not steered (R305, R307). -/
def barStart (b : Fin 8) (s : State) : State :=
  let x := barAt s b
  match x.release with
  | some t =>
    if s.fabric.tsync = false ∨ t.toNat ≤ s.fabric.time.toNat then
      jobStart (jobIx x.job.toNat) (modBar s b (fun x => { x with release := none }))
    else s
  | none => s

/-- A write of FAB_BARM: arming a barrier returns it to idle (spec/14, Table 8). -/
def barmWrite (a : BarAcc) (b : Fin 8) (v : Word) (s : State) : State :=
  let x := barAt s b
  let m := merged a (packFields [(0, x.mode.toNat), (2, x.job.toNat)]) v
  let md := BitVec.ofNat 2 m
  modBar s b (fun x =>
    { x with
      mode := md, job := BitVec.ofNat 16 (fieldOf m 2 16), late := x.late && !bitOf (strobes a v) 20
      state := if md = 1 ∨ md = 2 then (if x.state = 2 then 0 else x.state) else (if x.state = 1 then 0 else x.state)
      selfIn := if md = x.mode then x.selfIn else false })

/-! ### Fabric-wide groups (R308) -/

/-- A group whose members and whose tree children have all prepared is reported to the parent; the manager decides, and its
apply carries T and whether a snapshot is taken (R308, R332). -/
def fabricReport (g : Fin 16) (s : State) : State :=
  let x := groupAt s g
  if x.state == .preparing && fabricWide s g && !x.reported && allPrepared x && s.fabric.kids.all (fun p => x.kids.contains p) then
    let s1 := modGroup s g (fun x => { x with reported := true })
    if s.fabric.mgr then
      let t := s.fabric.time + leadTime s
      let newTake := match x.regs.find? (fun r => decide (r.core = none)) with
        | some r => bitOf r.value.toNat 32
        | none => s.snap.take
      let take := takeDue s newTake && !x.busy
      decideGroup g (some t) (some take) (sendDown 7 (0x40 + g.val) (leBytes 8 t.toNat ++ [BitVec.ofNat 8 (bitNat take)]) s1)
    else sendUp 7 (0x20 + g.val) [BitVec.ofNat 8 (bitNat (x.busy || snapBusy s))] s1
  else s

/-- FABRIC_PREPARED: this device's members have prepared, or a tree child reports, with whether a device of its subtree has a snapshot
in progress (R308, R332; DESIGN CHOICE, log entry 120). A fence notice of a member aborts the group (R270). -/
def fabricPrepared (g : Fin 16) (child : Option PortId) (busy : Bool) (s : State) : State :=
  let x := groupAt s g
  if (x.state == .isOpen || x.state == .preparing) && fabricWide s g then
    match groupFenced s x with
    | some l => abortGroup g l s
    | none =>
      match child with
      | none => fabricReport g s
      | some p =>
        if s.fabric.kids.contains p && portUp s p then
          fabricReport g (modGroup s g (fun x =>
            { x with kids := if x.kids.contains p then x.kids else x.kids ++ [p], busy := x.busy || busy }))
        else s
  else s

/-- FABRIC_ABORT: each device aborts the group, prepared or not (R308). -/
def fabricAbort (g : Fin 16) (l : Nat) (s : State) : State :=
  let st := (groupAt s g).state
  if (st == .isOpen || st == .preparing) && fabricWide s g then abortGroup g l s else s

/-- FABRIC_APPLY: the manager's apply at T reaches this device and goes on down the tree (R308). -/
def fabricApply (g : Fin 16) (t : Word) (take : Bool) (s : State) : State :=
  let x := groupAt s g
  if x.state == .preparing && fabricWide s g && x.reported && !s.fabric.mgr then
    decideGroup g (some t) (some take) (sendDown 7 (0x40 + g.val) (leBytes 8 t.toNat ++ [BitVec.ofNat 8 (bitNat take)]) s)
  else s

/-! ### The commands -/

/-- LINK_COMMAND_TAKE (R310). -/
def execLinkCommandTake (x : LinkRead) (s : State) : Host.Outcome State Fault Refusal :=
  .next (linkTake x.core x.chks s)

/-- LINK_WRITE_PACKET (R311). -/
def execLinkWritePacket (p : PortId) (x : LinkLanding) (final : Bool) (s : State) : Host.Outcome State Fault Refusal :=
  .next (linkWrite p x.pkt final x.chks s)

/-- LINK_CONTRIBUTION_PACKET (R312). -/
def execLinkContributionPacket (p : PortId) (x : LinkLanding) (i : ContribInfo) (s : State) : Host.Outcome State Fault Refusal :=
  .next (linkContribution p x.pkt i x.chks s)

/-- CONTRIBUTION_ENTRY (R312). -/
def execContributionEntry (c : CoreId) (s : State) : Host.Outcome State Fault Refusal := .next (contributionEntry c s)

/-- LINK_FLAG_PACKET (R313). -/
def execLinkFlagPacket (p : PortId) (x : LinkPkt) (rcore : Fin 64) (f : Fin 8) (s : State) : Host.Outcome State Fault Refusal :=
  .next (linkFlag p x rcore f s)

/-- PROGRESS_ACK_TIMER (R315). -/
def execProgressAckTimer (c : CoreId) (s : State) : Host.Outcome State Fault Refusal := .next (progressAcks c s)

/-- ACK_TIMEOUT (R314). -/
def execAckTimeout (c : CoreId) (n : Nat) (s : State) : Host.Outcome State Fault Refusal := .next (ackTimeout c n s)

/-- ENUMERATION_START (R300). -/
def execEnumerationStart (s : State) : Host.Outcome State Fault Refusal := .next (enumStart s)

/-- ENUMERATION_PACKET (R301). -/
def execEnumerationPacket (x : EnumPkt) (s : State) : Host.Outcome State Fault Refusal := .next (enumPacket x s)

/-- BARRIER_ARRIVE (R306). -/
def execBarrierArrive (b : Fin 8) (child : Option PortId) (s : State) : Host.Outcome State Fault Refusal :=
  .next (barArrive b child s)

/-- BARRIER_RELEASE (R306). -/
def execBarrierRelease (b : Fin 8) (t : Word) (s : State) : Host.Outcome State Fault Refusal := .next (barRelease b t s)

/-- BARRIER_START_AT_T (R307). -/
def execBarrierStartAtT (b : Fin 8) (s : State) : Host.Outcome State Fault Refusal := .next (barStart b s)

/-- FABRIC_PREPARED (R308). -/
def execFabricPrepared (g : Fin 16) (x : PrepReport) (s : State) : Host.Outcome State Fault Refusal :=
  .next (fabricPrepared g x.child x.busy s)

/-- FABRIC_ABORT (R308). -/
def execFabricAbort (g : Fin 16) (l : BitVec 16) (s : State) : Host.Outcome State Fault Refusal := .next (fabricAbort g l.toNat s)

/-- FABRIC_APPLY (R308). -/
def execFabricApply (g : Fin 16) (t : Word) (take : Bool) (s : State) : Host.Outcome State Fault Refusal :=
  .next (fabricApply g t take s)

end Sys2Proof.Machine
end

