-- ==== Sys2Proof/Machine/Snapshots.lean ====
section
/-! DEFINITION. Snapshots, restores and the loss of a device (R319, R332 to R337). -/

namespace Sys2Proof.Machine

/-! ### Plans -/

/-- The retained ranges in force: those that do not run beyond granule 575 (R243). -/
def retained (s : State) : List (Nat × Nat) :=
  [s.retain0, s.retain1].filterMap (fun r =>
    if 0 < r.2.toNat ∧ r.1.toNat + r.2.toNat ≤ 576 then some (r.1.toNat * 2 ^ 30, r.2.toNat * 2 ^ 30) else none)

/-- The end of the retained bytes that run on from address `a` without a gap; `a` where it is not retained. -/
def retainedEnd (s : State) (a : Nat) : Nat :=
  let reach (e : Nat) : Nat := (retained s).foldl (fun e r => if r.1 ≤ e ∧ e < r.1 + r.2 then r.1 + r.2 else e) e
  reach (reach a)

/-- A plan from DRAM (R336). -/
def parsePlan (s : State) (a : Nat) : SnapPlan :=
  let n (i k : Nat) : Nat := dramNat s (a + i) k
  let nr := n 34 2
  { slot0 := n 0 8, slot1 := n 8 8, far0 := n 16 8, far1 := n 24 8, partner := BitVec.ofNat 16 (n 32 2)
    ranges := (List.range (Nat.min nr 257)).map (fun i => (n (64 + 16 * i) 8, n (72 + 16 * i) 8)) }

/-- Bytes of a snapshot under a plan (spec/15, Table 5). -/
def snapLength (s : State) (p : SnapPlan) : Nat := 256 + 160 * s.activeCores.toNat + (p.ranges.map (fun r => r.2)).sum

/-- Do two of several ranges meet. -/
def anyMeet : List (Nat × Nat) → Bool
  | [] => false
  | r :: rs => rs.any (fun q => rangesMeet r.1 r.2 q.1 q.2) || anyMeet rs

/-- Why a plan is refused (R336). -/
def planRefusal (s : State) (a : Nat) : Option Status :=
  if a % 64 ≠ 0 ∨ isDram s a 64 = false then some .badParam
  else
    let nr := dramNat s (a + 34) 2
    let p := parsePlan s a
    let len := snapLength s p
    let here := [(p.slot0, len), (p.slot1, len)]
    let far := if p.partner = 0xFFFF then [] else [(p.far0, len), (p.far1, len)]
    if p.partner ≠ 0xFFFF ∧ 16384 ≤ p.partner.toNat then some .badParam
    else if nr = 0 ∨ 256 < nr ∨ isDram s a (64 + 16 * nr) = false ∨ leNat (dramRead s (a + 36) 28) ≠ 0 then some .badParam
    else if p.ranges.any (fun r => decide (r.1 % 4096 ≠ 0) || decide (r.2 % 4096 ≠ 0) || !isDram s r.1 r.2) then some .badParam
    else if [p.slot0, p.slot1].any (fun x => decide (retainedEnd s x = x) || !isDram s x 1) then some .badParam
    else if here.any (fun x => decide (retainedEnd s x.1 < x.1 + len)) then some .bounds
    else if here.any (fun x => !isDram s x.1 len) then some .badParam
    else if anyMeet here || here.any (fun x => p.ranges.any (fun r => rangesMeet x.1 x.2 r.1 r.2)) then some .badParam
    else if anyMeet far then some .badParam
    else none

/-- SNAPSHOT plan (R332, R336; spec/15, Table 4). -/
def snapshotPlan (a : Nat) (s : State) : PktResult :=
  if noEngines s then refuse .engineAbsent s
  else if snapBusy s then refuse .resourceConflict s
  else
    match planRefusal s a with
    | some st => refuse st s
    | none => .done .ok 0 (modSnap s (fun z => { z with plan := some (parsePlan s a) }))

/-- SNAPSHOT wait captured (spec/15, Table 4). -/
def waitCaptured (s : State) : PktResult :=
  if noEngines s then refuse .engineAbsent s
  else if s.snap.state == .capturing then .waits .captured s
  else .done .ok (resultOf [(8, s.snap.captured.toNat)]) s

/-- Does the complete epoch include this device's last take. -/
def takeComplete (s : State) : Bool :=
  match s.snap.lastTake with
  | none => true
  | some _ => decide (s.snap.takeEpoch.toNat ≤ s.snap.complete.toNat)

/-- SNAPSHOT wait complete (spec/15, Table 4). A last take that has failed is never complete. -/
def waitComplete (s : State) : PktResult :=
  if noEngines s then refuse .engineAbsent s
  else if takeComplete s then .done .ok (resultOf [(8, s.snap.complete.toNat)]) s
  else .waits .complete s

/-! ### Capture and send -/

/-- A slot's address in a plan. -/
def planSlot (p : SnapPlan) (slot : Bool) : Nat := if slot then p.slot1 else p.slot0

/-- A partner slot's address. -/
def planFar (p : SnapPlan) (slot : Bool) : Nat := if slot then p.far1 else p.far0

/-- Insert a register record by its logical core. -/
def insertRecord (x : Nat × List Byte) : List (Nat × List Byte) → List (Nat × List Byte)
  | [] => [x]
  | y :: r => if x.1 < y.1 then x :: y :: r else y :: insertRecord x r

/-- The bytes of a plan range that a capture finds: a byte written since the decision is found old or new, which R334 leaves open. -/
def capturedRange (s : State) (base n : Nat) : List Byte :=
  (List.range n).map (fun i =>
    let old := memGet s.snap.before (dramKey s (base + i))
    let new := dramByte s (base + i)
    if Config.captureOld s.free (base + i) then old else new)

/-- The bytes of a snapshot (spec/15, Table 5). -/
def snapBytes (s : State) (p : SnapPlan) : List Byte :=
  let z := s.snap
  let recs := (z.records.foldl (fun rs x => insertRecord x rs) []).map (fun x => x.2)
  let body := recs.flatten ++ (p.ranges.map (fun r => capturedRange s r.1 r.2)).flatten
  leBytes 4 z.takeEpoch.toNat ++ leBytes 2 (if s.fabric.idValid then s.fabric.id.toNat else 0) ++ leBytes 2 recs.length ++
    leBytes 8 (256 + body.length) ++ List.replicate 48 0 ++ sha3 body ++ List.replicate 128 0 ++ body

/-- A complete epoch is reached: packets that waited for it reply (R333, R335). -/
def settleComplete (s : State) : State :=
  if takeComplete s then answer .complete .ok (resultOf [(8, s.snap.complete.toNat)]) s else s

/-- The device's own link writes of some bytes: one command, sent along the route as a core's is (R310, R335). -/
def fwWrites (dst : BitVec 14) (addr : Nat) (forward : Bool) (bs : List Byte) (s : State) : State :=
  sendAll none ((chunks (bs.length / 2048 + 1) 0 bs).map (fun z =>
    { pk := 1, dst := dst, src := s.fabric.id, core := 0, cmd := fwCmd forward
      addr := BitVec.ofNat 48 (addr + z.1), status := 0, data := z.2 })) s

/-- The complete epoch moves on this device, and goes on down the tree (R333, R335). -/
def advanceComplete (epoch : BitVec 32) (s : State) : State :=
  let z := s.snap
  if z.complete.toNat < epoch.toNat then
    settleComplete (sendDown 7 0x61 (leBytes 4 epoch.toNat) (modSnap s (fun z =>
      { z with complete := epoch, reports := []
               completeSlot := if z.takeEpoch = epoch ∧ z.lastTake.isSome = true then some z.slot else z.completeSlot })))
  else s

/-- Identifiers of the domain, as the route table and the device's own name them (R297). -/
def domainIds (s : State) : List Nat :=
  (if s.fabric.idValid then [s.fabric.id.toNat] else []) ++ (s.fabric.routes.filter (fun e => e.2.isSome)).map (fun e => e.1)

/-- A device's snapshot of the last take is complete: with every device's, the complete epoch advances (R333, R335). -/
def takeReport (src : BitVec 14) (epoch : BitVec 32) (s : State) : State :=
  if s.snap.complete.toNat < epoch.toNat ∧ s.snap.takeEpoch = epoch then
    let s1 := modSnap s (fun z => { z with reports := if z.reports.contains src then z.reports else z.reports ++ [src] })
    if (domainIds s1).all (fun i => s1.snap.reports.any (fun r => decide (r.toNat = i))) then advanceComplete epoch s1 else s1
  else s

/-- A snapshot without a send is complete at the end of its capture: a device without a domain, or the manager, takes note of its own; a
worker tells the manager (R335). -/
def ownComplete (s : State) : State :=
  if s.fabric.mgr || !s.fabric.idValid then takeReport s.fabric.id s.snap.takeEpoch s
  else sendPkt (ctlPkt s 7 0 0x60 (leBytes 2 s.fabric.id.toNat ++ leBytes 4 s.snap.takeEpoch.toNat)) none true s

/-- The pieces that several ranges hold are read, and those with an error that nothing corrects are named (R238). -/
def readRanges (rs : List (Nat × Nat)) (chks : List (Nat × PieceCheck)) (s : State) : List (Nat × Nat) × State :=
  rs.foldl (fun z r =>
    let (bad, u) := accessRange false r.1 r.2 [] chks z.2
    (z.1 ++ bad, u)) ([], s)

/-- Do the stacks of several ranges serve the snapshot engine now (R229, R340). -/
def snapServed (s : State) (rs : List (Nat × Nat)) : Bool := rs.all (fun r => rangeServed s snapOwner r.1 r.2)

/-- The snapshot engine's wake requests for the stacks of several ranges (R342). -/
def snapWakes (rs : List (Nat × Nat)) (s : State) : State := rs.foldl (fun u r => nudgeStacks r.1 r.2 u) s

/-- The send of a captured snapshot begins: the slot is read, and an error that nothing corrects ends it (R238, R330, R335). -/
def beginSend (p : SnapPlan) (bs : List Byte) (chks : List (Nat × PieceCheck)) (s : State) : State :=
  let dst := BitVec.ofNat 14 p.partner.toNat
  let slot := s.snap.slot
  let s1 := modSnap s (fun z => { z with state := .sending, sendLeft := 1 })
  if isOwnId s dst = false ∧ routeOf s dst = none then snapFail .peerLost s1
  else
    match accessRange false (planSlot p slot) bs.length [] chks s1 with
    | ([], s2) => fwWrites dst (planFar p slot) false bs s2
    | (_, s2) => snapFail .eccUncorrected s2

/-- Are members of the group that took the snapshot still to apply: their register records are missing (R334). -/
def recordsMissing (s : State) : Bool :=
  match s.snap.takeGroup with
  | some g => (groupAt s g).state == .applying
  | none => false

/-- CAPTURE_COMPLETE: once every record is there and the stacks serve the engine, the ranges are read and the snapshot stands in its slot;
the send begins, or the snapshot is complete without one (R229, R238, R334, R335, R342). A take without a plan fails (DESIGN CHOICE, log
entry 121). -/
def captureComplete (chks : List (Nat × PieceCheck)) (s : State) : State :=
  let z := s.snap
  match z.state, z.plan with
  | .capturing, none => snapFail .badParam s
  | .capturing, some p =>
    let slot := planSlot p z.slot
    let bs := snapBytes s p
    let rs := (slot, bs.length) :: p.ranges
    if recordsMissing s then s
    else if !snapServed s rs then snapWakes rs s
    else
      match readRanges p.ranges chks s with
      | (_ :: _, s1) => snapFail .eccUncorrected s1
      | ([], s1) =>
        match accessRange true slot bs.length [] [] s1 with
        | (_ :: _, s2) => snapFail .eccUncorrected s2
        | ([], s2) =>
          let s3 := answer .captured .ok (resultOf [(8, z.takeEpoch.toNat)])
            (modSnap { dramWrite s2 slot bs with free := s2.free + 1 } (fun z =>
              { z with state := .idle, captured := z.takeEpoch, takeGroup := none, records := [], before := [] }))
          if p.partner = 0xFFFF then ownComplete s3 else beginSend p bs chks s3
  | _, _ => s

/-- An acknowledgement of the firmware's own writes: one refused ends the snapshot or the forward (R311, R335; spec/15, Table 4). -/
def fwAck (x : LinkPkt) (s : State) : State :=
  let st := statusOf x.status.toNat
  if x.cmd.getLsbD 0 then
    if s.snap.forwardLeft = 0 then s
    else if st ≠ .ok then answer .forward st 0 (modSnap s (fun z => { z with forwardLeft := 0 }))
    else
      let s1 := modSnap s (fun z => { z with forwardLeft := z.forwardLeft - 1 })
      if s1.snap.forwardLeft = 0 then answer .forward .ok 0 s1 else s1
  else if s.snap.state == .sending then
    if st ≠ .ok then snapFail st s
    else
      let s1 := modSnap s (fun z => { z with sendLeft := z.sendLeft - 1 })
      if s1.snap.sendLeft = 0 then modSnap s1 (fun z => { z with state := .idle }) else s1
  else s

/-- LINK_ACK_PACKET: an acknowledgement for a core's command, or for the device's own writes (R314, R315). -/
def linkAck (x : LinkPkt) (s : State) : State :=
  if isOwnId s x.dst then (if x.cmd.getLsbD 18 then fwAck x s else coreAck x s) else s

/-- SNAPSHOT_SENT: the partner of device `src` reports its last byte to the manager (R333, R335). -/
def snapshotSent (src : BitVec 14) (epoch : BitVec 32) (s : State) : State := if s.fabric.mgr then takeReport src epoch s else s

/-- COMPLETE_EPOCH_ADVANCE: the manager's message reaches this device (R335). -/
def completeAdvance (epoch : BitVec 32) (s : State) : State := if s.fabric.mgr then s else advanceComplete epoch s

/-! ### Restores -/

/-- A slot's address for RESTORE: the device's own slot, or the slot that holds its partner's snapshots, which the plan names by
address as the partner names this device's (R336; DEDUCED, log entry 9). -/
def restoreSlot (s : State) (slot : Fin 2) (partner : Bool) : Option Nat :=
  s.snap.plan.map (fun p => if partner then planFar p (decide (slot.val = 1)) else planSlot p (decide (slot.val = 1)))

/-- The length of the snapshot in a slot, where one can be there (spec/15, Table 5). -/
def snapAt (s : State) (a : Nat) : Option Nat :=
  let n := dramNat s (a + 8) 8
  if 256 ≤ n ∧ isDram s a n = true then some n else none

/-- Does the digest of the snapshot at an address hold (spec/15, Table 5). -/
def snapValid (s : State) (a : Nat) : Bool :=
  isDram s a 256 &&
    (match snapAt s a with
      | some n => dramRead s (a + 64) 64 == sha3 (dramRead s (a + 256) (n - 256))
      | none => false)

/-- Ranges are written back from the bytes that follow the records (spec/15, Table 5). -/
def restoreRanges : List (Nat × Nat) → Nat → State → State
  | [], _, s => s
  | r :: rs, src, s => restoreRanges rs (src + r.2) (dramWrite s r.1 (dramRead s src r.2))

/-- A snapshot is read whole and its digest checked (R238; spec/15, Table 4). -/
def checkSnap (a : Nat) (s : State) : Bool × State :=
  match accessRange false a ((snapAt s a).getD 256) [] [] s with
  | ([], s1) => (snapValid s1 a, s1)
  | (_, s1) => (false, s1)

/-- RESTORE local: the digest holds, and every range is back in place (spec/15, Table 4). -/
def bringBack (p : SnapPlan) (a : Nat) (s : State) : PktResult :=
  match checkSnap a s with
  | (true, s1) =>
    let s2 := p.ranges.foldl (fun u r => (accessRange true r.1 r.2 [] [] u).2) s1
    .done .ok 0 (restoreRanges p.ranges (a + 256 + 160 * dramNat s (a + 6) 2) s2)
  | (false, s1) => refuse .eccUncorrected s1

/-- RESTORE forward (spec/15, Table 4). -/
def forwardSnap (a off len : Nat) (dest : BitVec 14) (daddr : Nat) (s : State) : PktResult :=
  match snapAt s a with
  | none => refuse .bounds s
  | some n =>
    if n < off + len then refuse .bounds s
    else if isOwnId s dest = false ∧ routeOf s dest = none then refuse .peerLost s
    else if len = 0 then .done .ok 0 s
    else if s.snap.forwardLeft ≠ 0 then refuse .resourceConflict s
    else
      match accessRange false (a + off) len [] [] s with
      | ([], s1) =>
        .waits .forward (fwWrites dest daddr true (dramRead s1 (a + off) len)
          (modSnap s1 (fun z => { z with forwardLeft := 1, forwardTo := dest })))
      | (_, s1) => refuse .eccUncorrected s1

/-- The slot that a RESTORE reads. -/
def restoreFrom (s : State) (op : RestoreOp) : Option Nat :=
  match op with
  | .bringBack slot => restoreSlot s slot false
  | .verify slot partner => restoreSlot s slot partner
  | .forward slot _ _ _ _ => restoreSlot s slot true

/-- Why a RESTORE is refused before memory is read (R2; spec/15, Table 4). -/
def restoreRefusal (s : State) (op : RestoreOp) : Option Status :=
  if noEngines s then some .engineAbsent
  else if (match op with | .bringBack _ => true | _ => false) && decide (jobsWhere s jobActive ≠ []) then some .resourceConflict
  else if (restoreFrom s op).isNone then some .badParam
  else none

/-- The ranges that a RESTORE touches (R340). -/
def restoreTouches (s : State) (op : RestoreOp) : List (Nat × Nat) :=
  match restoreFrom s op, s.snap.plan with
  | some a, some p => (a, snapLength s p) :: (match op with | .bringBack _ => p.ranges | _ => [])
  | _, _ => []

/-- A RESTORE is carried out. -/
def restoreDo (op : RestoreOp) (s : State) : PktResult :=
  match restoreFrom s op, s.snap.plan with
  | some a, some p =>
    (match op with
      | .bringBack _ => bringBack p a s
      | .verify _ _ => (match checkSnap a s with | (ok, s1) => .done (if ok then .ok else .eccUncorrected) 0 s1)
      | .forward _ off len dest daddr => forwardSnap a off len dest daddr s)
  | _, _ => refuse .badParam s

/-- RESTORE: refused, carried out, or waiting for the stacks it touches, which it wakes (R229, R342; spec/15, Table 4; DEDUCED, log entry
122). -/
def restore (op : RestoreOp) (s : State) : PktResult :=
  match restoreRefusal s op with
  | some st => refuse st s
  | none =>
    if snapServed s (restoreTouches s op) then restoreDo op s
    else
      .waits (.restore s.snap.restoreSeq) (snapWakes (restoreTouches s op) (modSnap s (fun z =>
        { z with restores := z.restores ++ [(z.restoreSeq, op)], restoreSeq := z.restoreSeq + 1 })))

/-- A RESTORE that waited: it replies, or what it has begun does. -/
def restoreEnd (n : Nat) (r : PktResult) : State :=
  match r with
  | .done st res s => answer (.restore n) st res s
  | .waits a s =>
    modRings s (fun q => { q with waiting := q.waiting.map (fun c => if c.awaits = .restore n then { c with awaits := a } else c) })

/-- A RESTORE that waited is carried out once its stacks serve it, or waits on. -/
def restoreAgain (x : Nat × RestoreOp) (s : State) : State :=
  match restoreRefusal s x.2 with
  | some st => restoreEnd x.1 (refuse st s)
  | none =>
    if snapServed s (restoreTouches s x.2) then restoreEnd x.1 (restoreDo x.2 s)
    else modSnap s (fun z => { z with restores := z.restores ++ [x] })

/-- RESTOREs that wait are carried out as far as their stacks serve them now (R340). -/
def restoreServe (s : State) : State :=
  s.snap.restores.foldl (fun u x => restoreAgain x u) (modSnap s (fun z => { z with restores := [] }))

/-! ### Losing a device -/

/-- Halt at an epoch: jobs are fenced or cancelled, fabric-wide groups abort, a snapshot in progress ends (R337). -/
def halt (epoch : BitVec 32) (lost : BitVec 14) (s : State) : State :=
  let s1 := cancelWaiting (fenceWhere canFence (unitFault .peerLost 0xFF 0 0) s)
  let s2 := (List.finRange 16).foldl (fun u g =>
    if fabricWide u g && ((groupAt u g).state == .isOpen || (groupAt u g).state == .preparing) then abortGroup g 0xFFFF u else u) s1
  modSnap (snapFail .peerLost s2) (fun z => { z with halted := true, haltEpoch := epoch, lost := lost })

/-- HALT: the manager's halt reaches this device and goes on down the tree (R337). -/
def haltEpoch (epoch : BitVec 32) (lost : BitVec 14) (s : State) : State :=
  if mgtRuns s then halt epoch lost (sendDown 7 0x50 (leBytes 4 epoch.toNat ++ leBytes 2 lost.toNat) s) else s

/-- HEARTBEAT_SEND: a worker's heartbeat to the manager, or the manager's down the tree (R319, R320). -/
def heartbeatSend (s : State) : State :=
  if s.power.lost ∨ s.fabric.idValid = false ∨ mgtRuns s = false then s
  else if s.fabric.mgr then s.fabric.kids.foldl (fun u p => pump p u) (sendDown 5 0 [] s)
  else sendPkt (ctlPkt s 5 0 0 []) none true s

/-- HEARTBEAT_PACKET: a heartbeat comes; the manager's goes on down the tree, and with it a worker's halt for the loss of the manager
ends (R319, R337). -/
def heartbeatPacket (src : BitVec 14) (s : State) : State :=
  if mgtRuns s then
    let s1 := modFabric s (fun f => { f with lostPeers := f.lostPeers.filter (fun i => decide (i ≠ src.toNat)) })
    if s.fabric.mgr || decide (src ≠ 0) then s1
    else
      let s2 := sendDown 5 0 [] s1
      if s.fabric.lostPeers.contains 0 then modSnap s2 (fun z => { z with halted := false }) else s2
  else s

/-- Has a worker lost its manager: it stays halted until the manager's heartbeats return (R337). -/
def lostManager (s : State) : Bool := !s.fabric.mgr && s.fabric.lostPeers.contains 0

/-- HEARTBEAT_MISS: MISS heartbeats of a peer in succession have not come. The manager raises PEER_LOST for a worker and halts the
domain at the complete epoch; a worker that loses the manager halts at its own (R319, R337). -/
def heartbeatMiss (peer : BitVec 14) (s : State) : State :=
  if mgtRuns s && s.fabric.idValid && !s.fabric.lostPeers.contains peer.toNat &&
      (if s.fabric.mgr then decide (peer ≠ 0) else decide (peer = 0)) then
    let s1 := raiseAlert .peerLost (BitVec.ofNat 64 peer.toNat) (modFabric s (fun f => { f with lostPeers := f.lostPeers ++ [peer.toNat] }))
    if s.fabric.mgr then haltEpoch s.snap.complete peer s1 else halt s.snap.complete peer s1
  else s

/-! ### The commands -/

/-- SNAPSHOT plan (R336). -/
def execSnapshotPlan (h : PktHdr) (addr : Word) (s : State) : Host.Outcome State Fault Refusal :=
  .next (onPacket 0x18 h 0 (snapshotPlan addr.toNat) s)

/-- SNAPSHOT wait captured (spec/15, Table 4). -/
def execSnapshotWaitCaptured (h : PktHdr) (s : State) : Host.Outcome State Fault Refusal := .next (onPacket 0x18 h 0 waitCaptured s)

/-- SNAPSHOT wait complete (spec/15, Table 4). -/
def execSnapshotWaitComplete (h : PktHdr) (s : State) : Host.Outcome State Fault Refusal := .next (onPacket 0x18 h 0 waitComplete s)

/-- RESTORE local (spec/15, Table 4). -/
def execRestoreLocal (h : PktHdr) (slot : Fin 2) (s : State) : Host.Outcome State Fault Refusal :=
  .next (onPacket 0x19 h 0 (restore (.bringBack slot)) s)

/-- RESTORE verify (spec/15, Table 4). -/
def execRestoreVerify (h : PktHdr) (slot : Fin 2) (partner : Bool) (s : State) : Host.Outcome State Fault Refusal :=
  .next (onPacket 0x19 h 0 (restore (.verify slot partner)) s)

/-- RESTORE forward (spec/15, Table 4). -/
def execRestoreForward (h : PktHdr) (slot : Fin 2) (off len : Word) (dest : BitVec 14) (daddr : BitVec 48) (s : State) :
    Host.Outcome State Fault Refusal :=
  .next (onPacket 0x19 h 0 (restore (.forward slot off.toNat len.toNat dest daddr.toNat)) s)

/-- CAPTURE_COMPLETE (R334, R335). -/
def execCaptureComplete (chks : List (Nat × PieceCheck)) (s : State) : Host.Outcome State Fault Refusal :=
  .next (captureComplete chks s)

/-- LINK_ACK_PACKET (R314). -/
def execLinkAckPacket (x : LinkPkt) (s : State) : Host.Outcome State Fault Refusal := .next (linkAck x s)

/-- SNAPSHOT_SENT (R335). -/
def execSnapshotSent (src : BitVec 14) (epoch : BitVec 32) (s : State) : Host.Outcome State Fault Refusal :=
  .next (snapshotSent src epoch s)

/-- COMPLETE_EPOCH_ADVANCE (R333). -/
def execCompleteEpochAdvance (epoch : BitVec 32) (s : State) : Host.Outcome State Fault Refusal := .next (completeAdvance epoch s)

/-- HALT (R337). -/
def execHaltEpoch (epoch : BitVec 32) (lost : BitVec 14) (s : State) : Host.Outcome State Fault Refusal :=
  .next (haltEpoch epoch lost s)

/-- HEARTBEAT_SEND (R319). -/
def execHeartbeatSend (s : State) : Host.Outcome State Fault Refusal := .next (heartbeatSend s)

/-- HEARTBEAT_PACKET (R319). -/
def execHeartbeatPacket (src : BitVec 14) (s : State) : Host.Outcome State Fault Refusal := .next (heartbeatPacket src s)

/-- HEARTBEAT_MISS (R319). -/
def execHeartbeatMiss (peer : BitVec 14) (s : State) : Host.Outcome State Fault Refusal := .next (heartbeatMiss peer s)

end Sys2Proof.Machine
end

