-- ==== Sys2Proof/Machine/Sparing.lean ====
section
/-! DEFINITION. Self-tests and repair groups: array lines, cores, dies and rows (R240 to R242, R323 to R328, R330, R331). -/

namespace Sys2Proof.Machine

/-- No job is RUNNING, STOPPED or FENCING (R326). -/
def deviceQuiet (s : State) : Bool := (jobsWhere s jobActive).isEmpty

/-! ### Rows (R241, R323, R328) -/

/-- Row repairs at the head of the groups whose copy is made commit at once: the row is remapped (R241, R323). -/
def settleRows : Nat → State → State
  | 0, s => s
  | n + 1, s =>
    match s.spare.repairs with
    | .row k x true :: _ =>
      let key := rowKey x.ch x.die x.bank
      let s1 := modMem s k (fun m => { m with sparesUsed := cellSet 0 m.sparesUsed key (cellGet 0 m.sparesUsed key + 1) })
      settleRows n (repairAlert .ok 6 k.val x.die.val (dropRepair (.row k x true) s1))
    | _ => s

/-- Row repairs that now stand at the head commit. -/
def settleRepairs (s : State) : State := settleRows s.spare.repairs.length s

/-! ### Core self-test (R324 to R327) -/

/-- CW hops from one position to another. -/
def cwHops (a b : CoreId) : Nat := (b.val + 68 - a.val) % 68

/-- The unused spare with the fewest CW hops from a failed core that no fill has taken and no test has failed (R326, R330). -/
def nearestSpare (s : State) (f : CoreId) : Option CoreId :=
  let free := s.spareCores.filter (fun c => !s.spare.fills.any (fun x => decide (x.2 = c)) && !s.spare.failed.contains c &&
    !s.spare.repairs.any (fun g => match g with | .replace _ d => decide (d = c) | _ => false))
  free.find? (fun c => free.all (fun d => decide (cwHops f c ≤ cwHops f d)))

/-- A failed core's repair takes the place of an earlier one of the core, or is declared (R323). -/
def putRepair (old : Option Repair) (g : Repair) (s : State) : State :=
  match old with
  | some o => setDraining (modSpare s (fun z => { z with repairs := z.repairs.map (fun x => if x = o then g else x) }))
  | none => declareRepair g s

/-- A failed core without a spare: it is shed, or stays in the map and is never started (R326, R327). -/
def shedCore (old : Option Repair) (f : CoreId) (s : State) : State :=
  if s.spare.shedEn then putRepair old (.shed f) s
  else
    modSpare (match old with | some o => dropRepair o s | none => s)
      (fun z => { z with unshed := if z.unshed.contains f then z.unshed else z.unshed ++ [f] })

/-- A failed core is replaced by the nearest spare, which is filled first (R326). -/
def replaceCore (old : Option Repair) (f : CoreId) (s : State) : State :=
  match nearestSpare s f with
  | some c =>
    wakeRegion (powCg (regionOf c))
      (putRepair old (.replace f c) (modSpare s (fun z => { z with fills := z.fills ++ [(f, c)] })))
  | none => shedCore old f s

/-- The failed lines of a map. -/
def mapLines (m : LineMap) : List Nat := [m.badA.toNat, m.badB.toNat].filter (fun p => decide (p < 130))

/-- Lines known failed and lines found failed, in increasing order. -/
def allLines (m : LineMap) (found : List (Fin 130)) : List Nat :=
  (List.range 130).filter (fun p => (mapLines m).contains p || found.any (fun x => decide (x.val = p)))

/-- The map with these failed lines (R121). -/
def linesMap (ls : List Nat) : LineMap :=
  match ls with
  | [] => { badA := 0xFF, badB := 0xFF }
  | [a] => { badA := BitVec.ofNat 8 a, badB := 0xFF }
  | a :: b :: _ => { badA := BitVec.ofNat 8 a, badB := BitVec.ofNat 8 b }

/-- The row map and column map of an array that a pending repair or the array itself gives (R330). -/
def pendingMaps (s : State) (c : CoreId) (m : Fin 4) : LineMap × LineMap :=
  match s.spare.repairs.find? (fun g => match g with | .array d n _ _ => decide (d = c ∧ n = m) | _ => false) with
  | some (.array _ _ r k) => (r, k)
  | _ => ((arrOf (coreAt s c) m).rowMap, (arrOf (coreAt s c) m).colMap)

/-- A core found with a failure outside the arrays, or more than two failed rows or columns in an array (R324). -/
def testFailed (s : State) (c : CoreId) (x : SelfTest) : Bool :=
  x.other || (List.finRange 4).any (fun m =>
    let p := pendingMaps s c m
    decide (2 < (allLines p.1 (x.rows.get m)).length) || decide (2 < (allLines p.2 (x.cols.get m)).length))

/-- An array repair for the lines found in one array; one repair covers an earlier one that has not committed (R324, R330). -/
def repairArray (c : CoreId) (x : SelfTest) (s : State) (m : Fin 4) : State :=
  let p := pendingMaps s c m
  let r := linesMap (allLines p.1 (x.rows.get m))
  let k := linesMap (allLines p.2 (x.cols.get m))
  if r = p.1 ∧ k = p.2 then s
  else
    let same (g : Repair) : Bool := match g with | .array d n _ _ => decide (d = c ∧ n = m) | _ => false
    if s.spare.repairs.any same then
      modSpare s (fun z => { z with repairs := z.repairs.map (fun g => if same g then .array c m r k else g) })
    else declareRepair (.array c m r k) s

/-- A core is marked failed: it has no array repair any more. -/
def markFailed (c : CoreId) (s : State) : State :=
  setDraining (modSpare s (fun z =>
    { z with failed := if z.failed.contains c then z.failed else z.failed ++ [c]
             repairs := z.repairs.filter (fun g => match g with | .array d _ _ _ => decide (d ≠ c) | _ => true) }))

/-- The spare that is to replace a core fails its test: the next nearest is filled, or the failed core is shed (R326, R330). -/
def refill1 (f sp : CoreId) (s : State) : State :=
  replaceCore (some (.replace f sp)) f (modSpare (markFailed sp s) (fun z => { z with fills := z.fills.filter (fun x => decide (x.1 ≠ f)) }))

/-- The active core that a core is to replace. -/
def replacedBy (s : State) (c : CoreId) : Option CoreId :=
  s.spare.repairs.findSome? (fun g => match g with | .replace f d => if d = c then some f else none | _ => none)

/-- A core has failed its test: an active core is replaced; a spare that was to replace another gives way to the next (R326). -/
def coreFails (c : CoreId) (s : State) : State :=
  match replacedBy s c with
  | some f => refill1 f c s
  | none =>
    let s1 := markFailed c s
    let pending := s1.spare.repairs.any (fun g => match g with | .replace f _ => decide (f = c) | .shed f => decide (f = c) | _ => false)
    if isBypass s1 c || pending then s1 else replaceCore none c s1

/-- SELF_TEST_DONE: what a core's self-test has found (R324 to R326, R330). -/
def selfTestDone (c : CoreId) (x : SelfTest) (s : State) : State :=
  let runs := regionRuns s (regionOf c) && (jobOf s c).isNone && !s.power.refStop
  match s.spare.fills.find? (fun f => decide (f.2 = c)) with
  | some f =>
    if runs then
      if testFailed s c x then settleRepairs (refill1 f.1 c s)
      else
        settleRepairs (setDraining ((List.finRange 4).foldl (repairArray c x)
          (modSpare s (fun z => { z with fills := z.fills.filter (fun y => decide (y.2 ≠ c)), testing := z.testing.filter (fun y => decide (y ≠ c)) }))))
    else s
  | none =>
    if runs && s.spare.testing.contains c then
      let s1 := modSpare s (fun z => { z with testing := z.testing.filter (fun y => decide (y ≠ c)) })
      settleRepairs (if testFailed s1 c x then coreFails c s1 else (List.finRange 4).foldl (repairArray c x) s1)
    else s

/-- A core is put under test; its region wakes (R324, R342). -/
def startTest (c : CoreId) (s : State) : State :=
  wakeRegion (powCg (regionOf c)) (modSpare s (fun z => { z with testing := if z.testing.contains c then z.testing else z.testing ++ [c] }))

/-- A write of SPR_REQ: GO tests an idle core (R324; spec/15, Table 3). -/
def sprReqWrite (b : BarAcc) (v : Word) (s : State) : State :=
  let x := strobes b v
  if h : fieldOf x 0 8 < 68 then
    let c : CoreId := ⟨fieldOf x 0 8, h⟩
    if bitOf x 8 && (jobOf s c).isNone && !s.spare.testing.contains c && !s.spare.fills.any (fun f => decide (f.2 = c)) then
      startTest c s
    else s
  else s

/-- A write of SPR_CTL: once SHED_EN is set, failed cores without a spare are shed (R327; spec/15, Table 3). -/
def sprCtlWrite (b : BarAcc) (v : Word) (s : State) : State :=
  let x := merged b (packFields [(0, bitNat s.spare.auto), (1, bitNat s.spare.shedEn)]) v
  let s1 := modSpare s (fun z => { z with auto := bitOf x 0, shedEn := bitOf x 1 })
  if bitOf x 1 then s.spare.unshed.foldl (fun u f => declareRepair (.shed f) u) (modSpare s1 (fun z => { z with unshed := [] })) else s1

/-- CAP_CORES with one physical core in place of another. -/
def mapReplace (m : Vector Byte 68) (old new : Nat) : Vector Byte 68 :=
  vmap (fun b : Byte => if b.toNat = old then BitVec.ofNat 8 new else b) m

/-- CAP_CORES and ACTIVE_CORES once a core is shed: the core of the highest logical number takes its number (R327). -/
def mapShed (s : State) (f : CoreId) : State :=
  let top := s.activeCores.toNat - 1
  let last := (s.capCores.toList.getD top 0xFF#8).toNat
  let m := Vector.ofFn (fun (i : Fin 68) =>
    if i.val = top then 0xFF#8 else if (s.capCores.get i).toNat = f.val then BitVec.ofNat 8 last else s.capCores.get i)
  { s with capCores := m, activeCores := s.activeCores - 1 }

/-- The spares left once a core is used: those that failed their test are spent (R5, R326). -/
def sparesLeft (s : State) (c : CoreId) : List CoreId := s.spareCores.filter (fun d => decide (d ≠ c) && !s.spare.failed.contains d)

/-- REPAIR_COMMIT: the repair group declared first applies once its condition holds: an array repair while the core runs no job, a
replacement or a shed while the device is quiet (R323, R325 to R327, R331). -/
def repairCommit (s : State) : State :=
  match s.spare.repairs with
  | .array c m r k :: _ =>
    if (jobOf s c).isNone then
      settleRepairs (repairAlert .ok 1 c.val 0 (dropRepair (.array c m r k)
        (modCore s c (fun x => modArr x m (fun a => { a with rowMap := r, colMap := k })))))
    else s
  | .replace f sp :: _ =>
    if !filling s f && deviceQuiet s then
      let s1 := { s with capCores := mapReplace s.capCores f.val sp.val, spareCores := sparesLeft s sp }
      settleRepairs (repairAlert .ok 2 f.val sp.val (dropRepair (.replace f sp) s1))
    else s
  | .shed f :: _ =>
    if deviceQuiet s then
      settleRepairs (repairAlert .capacityReduced 3 f.val 0 (dropRepair (.shed f) { (if isBypass s f then s else mapShed s f) with spareCores := sparesLeft s f }))
    else s
  | _ => s

/-! ### Dies and rows (R240, R241, R328, R330) -/

/-- Pieces of a channel: 72 GiB over 32 channels of 128-byte pieces (R227). -/
def piecesPerChannel : Nat := 18874368

/-- DIE_REBUILD_PIECE: in idle slots, one more piece of each channel stands in the spare die (R229, R236, R240). -/
def dieRebuild (k : Fin 8) (s : State) : State :=
  let m := memAt s k
  if ownsSlots s idleOwner k && !s.memcFailed.getLsbD k.val && (decide (m.dieState = 1) || decide (m.dieState = 2)) &&
      decide (m.rebuilt.toNat < piecesPerChannel) then
    modMem s k (fun m => { m with dieState := 2, rebuilt := m.rebuilt + 1 })
  else s

/-- ROW_REPAIR: the pieces of a row whose repair is declared have been copied to a spare row in idle slots; it commits in its turn.
During a die rebuild of the stack it waits (R229, R236, R241, R328). -/
def rowRepair (k : Fin 8) (x : RowId) (s : State) : State :=
  if ownsSlots s idleOwner k && decide ((memAt s k).dieState = 0 ∨ (memAt s k).dieState = 3) &&
      s.spare.repairs.contains (.row k x false) then
    settleRepairs (modSpare s (fun z => { z with repairs := z.repairs.map (fun g => if g = .row k x false then .row k x true else g) }))
  else s

/-- Is it the turn of a rebuild: every group before it is a row repair that waits for it (R323, R328; DEDUCED, log entry 102). -/
def rebuildTurn (k : Fin 8) : List Repair → Bool
  | .rebuild j :: _ => decide (j = k)
  | .row j _ false :: r => decide (j = k) && rebuildTurn k r
  | _ => false

/-- REBUILD_COMMIT: the last piece has been rebuilt and the rebuild's turn has come; the stack is spent (R240, R323, R328, R331). -/
def rebuildCommit (k : Fin 8) (s : State) : State :=
  let m := memAt s k
  if decide (m.dieState = 2) && decide (m.rebuilt.toNat = piecesPerChannel) && rebuildTurn k s.spare.repairs then
    settleRepairs (repairAlert .ok 4 k.val m.badDie.toNat (dropRepair (.rebuild k) (modMem s k (fun m => { m with dieState := 3 }))))
  else s

/-! ### The commands -/

/-- SELF_TEST_REQUEST (R324). -/
def execSelfTestRequest (b : BarAcc) (v : Word) (s : State) : Host.Outcome State Fault Refusal := .next (barWrite b (sprReqWrite b v) s)

/-- SELF_TEST_DONE (R324). -/
def execSelfTestDone (c : CoreId) (x : SelfTest) (s : State) : Host.Outcome State Fault Refusal := .next (selfTestDone c x s)

/-- REPAIR_COMMIT (R325 to R327). -/
def execRepairCommit (s : State) : Host.Outcome State Fault Refusal := .next (repairCommit s)

/-- DIE_FAILURE (R240). -/
def execDieFailure (k : StackId) (die : Fin 17) (s : State) : Host.Outcome State Fault Refusal := .next (dieFails k die s)

/-- DIE_REBUILD_PIECE (R240). -/
def execDieRebuildPiece (k : StackId) (s : State) : Host.Outcome State Fault Refusal := .next (dieRebuild k s)

/-- REBUILD_COMMIT (R328). -/
def execRebuildCommit (k : StackId) (s : State) : Host.Outcome State Fault Refusal := .next (rebuildCommit k s)

/-- ROW_REPAIR (R241). -/
def execRowRepair (k : StackId) (ch : Fin 32) (die : Fin 17) (bank row : Nat) (s : State) : Host.Outcome State Fault Refusal :=
  .next (rowRepair k { ch := ch, die := die, bank := bank, row := row } s)

end Sys2Proof.Machine
end

