-- ==== Sys2Proof/Machine/MemEvents.lean ====
section
/-! DEFINITION. The memory regions: slots, pieces and their checks, wheels, refresh and stack temperature, decode (R19, R229 to R239,
R340). -/

namespace Sys2Proof.Machine

/-! ### Slots and pieces -/

/-- The first queued piece of a client in a channel, and the queue without it (R229, R233). -/
def takePiece (client : Byte) (ch : Fin 32) : List Piece → Option (Piece × List Piece)
  | [] => none
  | p :: r =>
    if p.client = client ∧ p.channel = ch then some (p, r)
    else (takePiece client ch r).map (fun z => (z.1, p :: z.2))

/-- A served piece counts towards its transfer; what a read piece holds is taken (R181, R198). -/
def servePiece (p : Piece) (bytes : List Byte) (s : State) : State :=
  modCore s p.core (fun k => modQ k p.queue (fun q =>
    { q with xfers := q.xfers.map (fun x =>
        if x.id = p.xfer then
          { x with
            served := x.served + 1
            data := if x.write then x.data
              else (List.range bytes.length).foldl (fun d i => cellSet 0#8 d (p.pos + i) (bytes.getD i 0)) x.data }
        else x) }))

/-- A piece's access with what its checks find: bytes move, or the error is logged and fences the job of its core (R227, R238). -/
def accessPiece (k : Fin 8) (p : Piece) (found : PieceCheck) (s : State) : State :=
  let at_ := k.val * stackBytes + p.off
  match checkPiece k (p.off / 128 * 128) (p.write && decide (p.len = 128)) false found s with
  | (some kind, s1) =>
    let i : FaultInfo :=
      { status := .eccUncorrected, pcore := some p.core, region := BitVec.ofNat 8 (0x20 + k.val)
        detail0 := BitVec.ofNat 32 kind, detail1 := BitVec.ofNat 32 (p.off / 128 * 128) }
    skdFault p.core p.queue i (servePiece p [] s1)
  | (none, s1) =>
    if p.write then
      servePiece p [] { s1 with dram := (List.range p.data.length).foldl (fun m j => memSet m (at_ + j) (p.data.getD j 0)) s1.dram }
    else servePiece p (memRead s1.dram at_ p.len) s1

/-- PIECE_ACCESS: in the slot of entry `e`, channel `ch` serves its owner's oldest queued piece (R229, R233). -/
def pieceAccess (k : Fin 8) (e : Fin 128) (ch : Fin 32) (chk : PieceCheck) (s : State) : State :=
  let m := memAt s k
  if memRuns s k && !s.memcFailed.getLsbD k.val then
    match slotClient m e with
    | none => s
    | some client =>
      match takePiece client ch m.queue with
      | none => s
      | some (p, rest) => accessPiece k p chk (modMem s k (fun m => { m with queue := rest }))
  else s

/-- PATROL_SCRUB: an idle slot checks a piece; nothing is fenced (R229, R236, R238). -/
def patrolScrub (k : Fin 8) (off : Nat) (found : PieceCheck) (s : State) : State :=
  if ownsSlots s idleOwner k && s.scrub && !s.memcFailed.getLsbD k.val && decide (off < stackBytes) then
    (checkPiece k (off / 128 * 128) false true found s).2
  else s

/-! ### Temperature and refresh -/

/-- STACK_TEMP_UPDATE (R235, R236). -/
def stackTemp (k : Fin 8) (t : Byte) (s : State) : State :=
  let n := t.toNat
  let s1 := modMem s k (fun m =>
    let cool := if n ≤ 92 then m.coolUpdates + 1 else 0
    { m with temp := t, coolUpdates := cool
             rateNext := if 95 ≤ n then true else if 1001 ≤ cool then false else m.rateNext })
  if 105 ≤ n ∧ (memAt s k).trip = false then
    fenceWhere (fun b => canFence b && jobTouches s b k) (unitFault .thermalTrip (0x20 + k.val) 0 0)
      (modMem s1 k (fun m => { m with trip := true, rateNext := true }))
  else s1

/-- REFRESH_RATE_CHANGE: a rotation begins at the rate now due (R235, R236). -/
def refreshRate (k : Fin 8) (s : State) : State :=
  modMem s k (fun m => { m with rate2x := s.force2x || m.trip || m.rateNext || s.power.lost })

/-- A write of MEM_STAT: TRIP clears only below 100 degrees (R236). -/
def memTripClear (k : Fin 8) (s : State) : State :=
  if (memAt s k).temp.toNat < 100 then modMem s k (fun m => { m with trip := false }) else s

/-! ### Wheels -/

/-- Entries of a wheel that satisfy `p`, as numbers. -/
def wheelAt (w : Vector Byte 128) (p : Byte → Bool) : List Nat :=
  (List.finRange 128).filterMap (fun e => if p (w.get e) then some e.val else none)

/-- Do numbers of a cycle of 128 lie at least 16 apart. -/
def apart (es : List Nat) : Bool :=
  es.all (fun a => es.all (fun b => decide (a = b) || decide (16 ≤ (a + 128 - b) % 128 ∧ 16 ≤ (b + 128 - a) % 128)))

/-- Is an entry one of Table 1 of spec/11. -/
def entryKnown (s : State) (e : Byte) : Bool :=
  (decide (e.toNat < 0x40) && decide (e.toNat < s.activeCores.toNat)) || e == 0x40 || e == 0x41 || e == 0x42 || e == 0x44 ||
    e == 0x45 || e == 0x7F || isReserve e

/-- Is a wheel valid but for snapshot entries on a part without the engine (R230). -/
def wheelShape (s : State) (w : Vector Byte 128) : Bool :=
  let refresh := wheelAt w (fun e => e == 0x42)
  let reserve := wheelAt w isReserve
  decide (refresh.length = 3) && decide (reserve.length = 3) && apart (refresh ++ reserve) && w.toList.all (entryKnown s)

/-- Does a wheel name the snapshot engine on an XKN-8848-G (R230). -/
def wheelSnapBad (s : State) (w : Vector Byte 128) : Bool := noEngines s && w.toList.any (fun e => e == 0x41 || e == 0xC1)

/-- Does a wheel change an entry of a logical core whose job is RUNNING, STOPPED or FENCING (R231). -/
def wheelChanges (s : State) (k : Fin 8) (w : Vector Byte 128) : Bool :=
  let busy (e : Byte) : Bool := decide (e.toNat < 0x40) && (jobsWhere s jobActive).any (fun j => (jobAt s j).cores.getLsbD e.toNat)
  (List.finRange 128).any (fun e =>
    let old := (memAt s k).wheel.get e
    decide (old ≠ w.get e) && (busy old || busy (w.get e)))

/-- The apply of a wheel is accepted: it awaits E0 (R231). -/
def wheelAccept (k : Fin 8) (w : Vector Byte 128) (s : State) : State :=
  modMem s k (fun m => { m with wheelN := w, wheelNext := some w, wheelErr := false })

/-- WHEEL_APPLY: the shadow is checked, and awaits E0 or is refused (R231). -/
def wheelApply (b : BarAcc) (k : Fin 8) (v : Word) (s : State) : State :=
  if bitOf (strobes b v) 0 then
    let w := (memAt s k).wheelN
    if wheelShape s w && !wheelSnapBad s w && !wheelChanges s k w then wheelAccept k w s
    else modMem s k (fun m => { m with wheelErr := true })
  else s

/-- WHEEL_TAKES_EFFECT: E0 begins (R231). -/
def wheelEffect (k : Fin 8) (s : State) : State :=
  match (memAt s k).wheelNext with
  | some w => if memRuns s k then modMem s k (fun m => { m with wheel := w, wheelNext := none }) else s
  | none => s

/-- SET_WHEEL (R231; spec/12, Table 5). -/
def setWheel (mask : Byte) (addr : Nat) (s : State) : PktResult :=
  let ks := (List.finRange 8).filter (fun k => mask.getLsbD k.val)
  if isDram s addr 128 = false then refuse .badParam s
  else
    let w : Vector Byte 128 := Vector.ofFn (fun e => dramByte s (addr + e.val))
    if wheelShape s w = false ∨ ks.any (fun k => wheelChanges s k w) = true then refuse .badParam s
    else if wheelSnapBad s w then refuse .engineAbsent s
    else .done .ok 0 (ks.foldl (fun u k => wheelAccept k w u) s)

/-! ### Decode -/

/-- MEMC_DECODE_WRITE: it takes effect only while no job is RUNNING, STOPPED or FENCING (R19). -/
def decodeWrite (b : BarAcc) (v : Word) (s : State) : State :=
  if deviceQuiet s then { s with stackLocal := bitOf (merged b (bitNat s.stackLocal) v) 0 } else s

/-! ### Accesses that wait (R229, R340) -/

/-- Accesses that wait for their stacks go on: the host path's, link packets, and restores. -/
def serveWaits (s : State) : State := restoreServe (linkServe true (linkServe false (hostServe s)))

/-! ### The commands -/

/-- PIECE_ACCESS (R229). -/
def execPieceAccess (k : StackId) (e : Fin 128) (ch : Fin 32) (chk : PieceCheck) (s : State) : Host.Outcome State Fault Refusal :=
  .next (pieceAccess k e ch chk s)

/-- PATROL_SCRUB (R238). -/
def execPatrolScrub (k : StackId) (off : Nat) (chk : PieceCheck) (s : State) : Host.Outcome State Fault Refusal :=
  .next (patrolScrub k off chk s)

/-- STACK_TEMP_UPDATE (R235). -/
def execStackTempUpdate (k : StackId) (t : Byte) (s : State) : Host.Outcome State Fault Refusal := .next (stackTemp k t s)

/-- REFRESH_RATE_CHANGE (R235). -/
def execRefreshRateChange (k : StackId) (s : State) : Host.Outcome State Fault Refusal := .next (serveWaits (refreshRate k s))

/-- MEM_TRIP_CLEAR (R236). -/
def execMemTripClear (b : BarAcc) (k : StackId) (s : State) : Host.Outcome State Fault Refusal :=
  .next (serveWaits (barWrite b (memTripClear k) s))

/-- WHEEL_APPLY (R231). -/
def execWheelApply (b : BarAcc) (k : StackId) (v : Word) (s : State) : Host.Outcome State Fault Refusal :=
  .next (barWrite b (wheelApply b k v) s)

/-- WHEEL_TAKES_EFFECT (R231). -/
def execWheelTakesEffect (k : StackId) (s : State) : Host.Outcome State Fault Refusal := .next (serveWaits (wheelEffect k s))

/-- SET_WHEEL (R231). -/
def execSetWheel (h : PktHdr) (mask : Byte) (addr : Word) (s : State) : Host.Outcome State Fault Refusal :=
  .next (onPacket 0x23 h 0 (setWheel mask addr.toNat) s)

/-- MEMC_DECODE_WRITE (R19). -/
def execMemcDecodeWrite (b : BarAcc) (v : Word) (s : State) : Host.Outcome State Fault Refusal :=
  .next (barWrite b (decodeWrite b v) s)

end Sys2Proof.Machine
end

