-- ==== Sys2Proof/Machine/Power.lean ====
section
/-! DEFINITION. Sleep and wake of regions, temperature, supplies and the reference clock (R338 to R342, R347 to R352). -/

namespace Sys2Proof.Machine

/-! ### Sleep (R339; spec/16, Table 1) -/

/-- A stream queue without entries, transfers, released or started descriptors, or bytes that wait to be written. -/
def queueEmpty (q : StreamQ) : Bool := q.entries.isEmpty && q.xfers.isEmpty && q.rel.isEmpty && q.act.isEmpty &&
  decide (q.wTail ≤ q.wHead)

/-- Does a repair group name a core. -/
def repairNames (c : CoreId) (g : Repair) : Bool :=
  match g with
  | .array d _ _ _ => decide (d = c)
  | .replace f sp => decide (f = c) || decide (sp = c)
  | .shed f => decide (f = c)
  | _ => false

/-- Does a self-test, a repair group or a digest name a core. -/
def coreNamed (s : State) (c : CoreId) : Bool :=
  s.spare.testing.contains c || s.spare.fills.any (fun f => decide (f.1 = c) || decide (f.2 = c)) ||
    s.spare.repairs.any (repairNames c) ||
    (match s.digest.active with
      | some d => (bitList 64 d.cores.toNat).any (fun l => decide (physicalOf s l = some c))
      | none => false)

/-- May a core of a compute region sleep. -/
def coreMaySleep (s : State) (c : CoreId) : Bool :=
  (jobOf s c).isNone &&
    !coreNamed s c && (List.finRange 16).all (fun q => queueEmpty (qOf (coreAt s c) q))

/-- Is a row repair or a die rebuild of a stack in progress, or declared. -/
def stackWorks (s : State) (k : Fin 8) : Bool :=
  let m := memAt s k
  decide (m.dieState = 2) ||
    s.spare.repairs.any (fun g => match g with
      | .rebuild j => decide (j = k)
      | .row j _ _ => decide (j = k)
      | _ => false)

/-- Does a job that the Landing has taken and that waits for wakes need a region (R342). -/
def takenNeeds (s : State) (n : Fin 28) : Bool :=
  (jobsWhere s (fun b => b.taken)).any (fun j => (jobRegions s (jobAt s j)).contains n)

/-- Do the conditions of Table 1 of spec/16 hold for a region; `quiet` tells that 100 µs have passed since the last host-path or link
access to the stack. The work that asked for a wake has ended (R339): in a reset, the wipe that the stacks woke for. -/
def maySleep (s : State) (n : Fin 26) (quiet : Bool) : Bool :=
  if h : n.val < 17 then
    !(regionAt s ⟨n.val, h⟩).switching && decide (s.power.clk.bind (fun q => q.busy) ≠ some ⟨n.val, h⟩) && (coresOf ⟨n.val, h⟩).all (coreMaySleep s)
  else if h : n.val < 25 then
    let k : Fin 8 := ⟨n.val - 17, by omega⟩
    quiet && (memAt s k).queue.isEmpty && !snapBusy s && !stackWorks s k && s.power.wipes.isEmpty && (s.power.ready || s.power.wiped) &&
      !(jobsWhere s jobActive).any (fun j => jobTouches s (jobAt s j) k)
  else (List.finRange 10).all (fun p => decide (p.val < 5) || !(portAt s p).en)

/-- A line map stays with its array when the core loses its state. -/
def keepMaps (old : Arr) : Arr := { resetArr with rowMap := old.rowMap, colMap := old.colMap }

/-- A core at its reset values but for its repair maps, its ring registers and what is in transit to it (spec/16, Table 1). -/
def coreCleared (k : Core) : Core :=
  { resetCore with
    arrs := vmap keepMaps k.arrs, ringCw := k.ringCw, ringCcw := k.ringCcw
    eps := vmap (fun e : Endpoint => { resetEp with transit := e.transit }) k.eps }

/-- A compute region loses its cores' state; its block keeps its registers but CG_TICK and CG_PERIODS (spec/16, Table 1). -/
def regionCleared (r : RegionId) (s : State) : State :=
  let s1 := (coresOf r).foldl (fun u c => modCore u c coreCleared) s
  modRegion s1 r (fun g => { g with tick := 0, periods := 0, hold := none, waits := [], heldOps := [], faults := [], mgtIn := []
                                    switching := false })

/-- A request of a region leaves the governor's queue. -/
def govDrop (n : Fin 28) (s : State) : State :=
  modPower s (fun w =>
    { w with queue := w.queue.filter (fun x => decide (x ≠ .wake n)), kept := w.kept &&& ~~~(BitVec.ofNat 28 (2 ^ n.val)) })

/-- A region sleeps. -/
def sleepNow (n : Fin 28) (s : State) : State :=
  let s1 := govDrop n (setPow s n .asleep)
  if h : n.val < 17 then regionCleared ⟨n.val, h⟩ s1 else s1

/-- REGION_SLEEP (R339). -/
def regionSleep (n : Fin 26) (quiet : Bool) (s : State) : State :=
  let m : Fin 28 := ⟨n.val, by omega⟩
  if s.power.sleepReq.getLsbD n.val && powAt s m == .running && !takenNeeds s m && maySleep s n quiet then sleepNow m s else s

/-- What a write of PWR_SLEEP asks of one region: a bit cleared wakes it, a bit set withdraws a queued wake (R341, R342). -/
def sleepAsk (old new : Nat) (s : State) (n : Fin 26) : State :=
  let m : Fin 28 := ⟨n.val, by omega⟩
  if bitOf old n.val && !bitOf new n.val then wakeQueue m s
  else if bitOf new n.val && powAt s m == .queued && !s.power.kept.getLsbD n.val then govDrop m (setPow s m .asleep)
  else s

/-- A write of PWR_SLEEP with the value its REQ field takes (R339). -/
def sleepWrite (req : Nat) (s : State) : State :=
  (List.finRange 26).foldl (sleepAsk s.power.sleepReq.toNat req) (modPower s (fun w => { w with sleepReq := BitVec.ofNat 26 req }))

/-! ### Waking (R343, R355) -/

/-- Every self-test of a cold reset is asked for as a compute region runs (R324; spec/16, Table 6). -/
def resetTests (r : RegionId) (s : State) : State :=
  if s.power.ready || s.power.warm then s
  else modSpare s (fun z => { z with testing := (z.testing ++ coresOf r).eraseDups })

/-- Do all memory regions run. -/
def memsRun (s : State) : Bool := (List.finRange 8).all (fun k => memRuns s k)

/-- The wipe of a reset begins once every memory region runs (R244; spec/16, Tables 6 and 7). -/
def resetWipe (s : State) : State :=
  if !s.power.ready && memsRun s && !s.power.wiped && !s.wiping then
    { modPower s (fun w => { w with wipes := w.wipes ++ [.reset] }) with wiping := true }
  else s

/-- REGION_RUNNING: a waking region runs; with MGT and IO0 the device joins its Waton segment. A reset that has lost the reference has
stopped (R298, R343, R354; spec/16, Tables 1 and 6). -/
def regionRunning (n : Fin 28) (s : State) : State :=
  if powAt s n = .waking ∧ s.power.refStop = false then
    let s1 := modPower (govDrop n (setPow s n .running)) (fun w => { w with woken := w.woken ||| BitVec.ofNat 28 (2 ^ n.val) })
    if h : n.val < 17 then resetTests ⟨n.val, h⟩ s1
    else if n.val < 25 then resetWipe s1
    else if n.val = 25 then
      (if s.power.ready then (List.finRange 10).foldl (fun u p => if p.val < 5 then u else modPort u p (fun _ => resetPort)) s1 else s1)
    else if mgtRuns s1 then { s1 with wtn := { s1.wtn with hotJoin := !s1.wtn.valid } }
    else s1
  else s

/-! ### Temperature (R349 to R351) -/

/-- THERM_CTL.WARN as it acts (spec/16, Table 9). -/
def warnLevel (s : State) : Nat := Nat.min s.power.warnAt.toNat 0x68

/-- The place of a device-wide event among those of one AON period (R353). -/
def wideRank (st : Status) : Nat :=
  match st with
  | .supplyFault => 0
  | .refLost => 1
  | _ => 2

/-- The AON period, of 10 ns (R353). -/
def aonPeriod (s : State) : Nat := s.mgtPeriods.toNat / 10

/-- A device-wide event fences every RUNNING and STOPPED job; of one that another such event fences in the same AON period, the
record holds the first of SUPPLY_FAULT, REF_LOST and THERMAL_TRIP (R347, R350, R352, R353). -/
def fenceAll (st : Status) (s : State) : State :=
  let i := unitFault st 0xFF 0 0
  let now := some (aonPeriod s)
  let s1 := (jobsWhere s (fun b => b.state == .fencing && decide (b.wideAt = now) && decide (wideRank st < wideRank b.status))).foldl
    (fun u j => modJob u j (fun b => { b with status := st, fence := fenceRecOf s i })) s
  (jobsWhere s1 canFence).foldl (fun u j => modJob (fenceJob j i u) j (fun b => { b with wideAt := now })) s1

/-- The warning of R349. -/
def thermWarn (s : State) : State :=
  let t := s.power.temp.toNat
  let w := warnLevel s
  if w ≤ t ∧ s.power.warnSent = false then raiseAlert .ok 0 (modPower s (fun p => { p with warned := true, warnSent := true }))
  else modPower s (fun p => { p with warned := decide (w ≤ t), warnSent := p.warnSent && decide (w ≤ t + 5) })

/-- The logic-die trip of R350. -/
def thermTrip (s : State) : State :=
  raiseAlert .thermalTrip 0 (clkSlowDown .thermalTrip (fenceAll .thermalTrip (modPower s (fun p => { p with trip := true }))))

/-- Every sleepable region sleeps, whatever the conditions (R351). -/
def sleepAll (s : State) : State :=
  (List.finRange 26).foldl (fun u n => sleepNow ⟨n.val, by omega⟩ u) s

/-- A clock request whose regions have all been put to sleep ends: they take its entry, or the slowest where an event ends it (R346,
R350). -/
def clkCut (s : State) : State :=
  match s.power.clk with
  | some q =>
    match q.ends with
    | some st => clkSlow (clkEnd st s)
    | none => clkEnd .ok (allRegions.foldl (fun u r =>
        if inMask q.mask r then modRegion u r (fun g => { g with freqIdx := clkTarget s q r }) else u) s)
  | none => s

/-- The hard trip of R351: THERMTRIP_N goes low. -/
def thermHard (s : State) : State :=
  modPower (clkCut (sleepAll (fenceAll .thermalTrip s))) (fun p => { p with hard := true, thermtrip := true })

/-- LOGIC_TEMP_UPDATE (R349). -/
def logicTemp (t : Byte) (hot : BitVec 5) (s : State) : State :=
  if s.power.aon && !s.power.resetLow then
    let s1 := thermWarn (modPower s (fun p => { p with temp := t, hot := hot }))
    let s2 := if 105 ≤ t.toNat ∧ s.power.trip = false then thermTrip s1 else s1
    if 115 ≤ t.toNat ∧ (s.power.temp.toNat < 115 ∨ s.power.hard = false) then thermHard s2 else s2
  else s

/-- A write of 0b1 to THERM_STAT.TRIP (R350). -/
def thermTripClear (s : State) : State :=
  if s.power.temp.toNat < 95 then modPower s (fun p => { p with trip := false }) else s

/-! ### Supplies (R352) -/

/-- A port without power goes down: its signal is lost (R318, R352). A port that is disabled stays so. -/
def portPowerLost (p : PortId) (s : State) : State :=
  if (portAt s p).state = pDisabled ∨ (portAt s p).state = pDown then s else portDown p 5 s

/-- The PCIe link goes down (R246). -/
def pcieDown (s : State) : State := modHost s (fun h => { h with linkUp := false })

/-- What a rail fault does: VDD_CORE and VDD_SRAM, VDD_DRAM, the I/O rails of IOD0 and IOD1. -/
def supplyEffect (x : Rail) (s : State) : State :=
  match x with
  | .core | .sram =>
    clkCut (allRegions.foldl (fun u r => if powAt u (powCg r) = .queued then u else sleepNow (powCg r) u) (fenceAll .supplyFault s))
  | .dram => fenceAll .supplyFault s
  | .iod0 | .vdda0 => pcieDown ((List.finRange 10).foldl (fun u p => if p.val < 5 then portPowerLost p u else u) s)
  | .iod1 | .vdda1 => (List.finRange 10).foldl (fun u p => if p.val < 5 then u else portPowerLost p u) s

/-- The bit of SUPPLY_STAT of a rail (spec/16, Table 9). -/
def railBit : Rail → Nat
  | .core => 0
  | .sram => 1
  | .dram => 2
  | .iod0 | .vdda0 => 3
  | .iod1 | .vdda1 => 4

/-- The monitored rails in the order of their levels in a command. -/
def allRails : List Rail := [.core, .sram, .dram, .iod0, .vdda0, .iod1, .vdda1]

/-- SUPPLY_FAULT: a rail has been at a level for 10 µs in succession, outside its window (R352, R376). -/
def supplyFault (x : Rail) (mv : BitVec 12) (s : State) : State :=
  if s.power.aon && !s.power.resetLow && !inWindow s x mv then
    raiseAlert .supplyFault 0
      (supplyEffect x (modPower s (fun p => { p with supply := p.supply ||| BitVec.ofNat 5 (2 ^ railBit x) })))
  else s

/-- May a bit of SUPPLY_STAT be cleared: each of its rails lies inside its window; VDD_DRAM's clears at a cold reset only (R352). -/
def supplyBitFree (s : State) (levels : Vector (BitVec 12) 7) (i : Nat) : Bool :=
  decide (i ≠ 2) && (allRails.zip levels.toList).all (fun z => decide (railBit z.1 ≠ i) || inWindow s z.1 z.2)

/-- A write of SUPPLY_STAT with the bits it clears and the levels of the rails (R352). -/
def supplyClear (bits : Nat) (levels : Vector (BitVec 12) 7) (s : State) : State :=
  let free := BitVec.ofNat 5 (packFields ((List.range 5).map (fun i => (i, bitNat (bitOf bits i && supplyBitFree s levels i)))))
  modPower s (fun p => { p with supply := p.supply &&& ~~~free })

/-! ### The reference clock (R347, R348, R354) -/

/-- The entries of the compute regions. -/
def entries (s : State) : Vector (BitVec 4) 17 := vmap (fun g : Region => g.freqIdx) s.regions

/-- REF_LOST: 200 edges are missing (R347). In a reset the sequence stops instead (R354). A loss while LOST is set ends a recovery,
whose regions go back to the slowest entry (R347, R348). -/
def refLost (s : State) : State :=
  if s.power.aon && !s.power.resetLow && s.power.lost then
    let s1 := modPower s (fun p => { p with refOk := false })
    if s.power.recover then modPower (clkSlowDown .refLost s1) (fun p => { p with recover := false }) else s1
  else if s.power.aon && !s.power.resetLow then
    let s1 := modPower s (fun p => { p with lost := true, refOk := false, entryBefore := entries s, refStop := p.refStop || !p.ready })
    if s.power.ready then
      raiseAlert .refLost 0 (snapFail .refLost (cancelWaiting (fenceAll .refLost (clkSlowDown .refLost s1))))
    else s1
  else s

/-- A write of 0b1 to PWR_REFCTL.RECOVER: the raises begin once no switch is in progress, and LOST stands until they have ended; a
write in a recovery changes nothing (R348). -/
def refRecover (s : State) : State :=
  if s.power.lost && s.power.refOk then
    (if s.power.recover then s else clkRecover (modPower s (fun p => { p with recErr := false, recover := true })))
  else modPower s (fun p => { p with recErr := true })

/-! ### The commands -/

/-- REGION_SLEEP (R339). -/
def execRegionSleep (n : Fin 26) (quiet : Bool) (s : State) : Host.Outcome State Fault Refusal := .next (regionSleep n quiet s)

/-- REGION_RUNNING (R343). -/
def execRegionRunning (n : Fin 28) (s : State) : Host.Outcome State Fault Refusal := .next (serveWaits (regionRunning n s))

/-- SLEEP_REQUEST (R339). -/
def execSleepRequest (b : BarAcc) (v : Word) (s : State) : Host.Outcome State Fault Refusal :=
  .next (barWrite b (fun u => sleepWrite (fieldOf (merged b u.power.sleepReq.toNat v) 0 26) u) s)

/-- LOGIC_TEMP_UPDATE (R349). -/
def execLogicTempUpdate (t : Byte) (hot : BitVec 5) (s : State) : Host.Outcome State Fault Refusal := .next (logicTemp t hot s)

/-- THERM_TRIP_CLEAR (R350). -/
def execThermTripClear (b : BarAcc) (s : State) : Host.Outcome State Fault Refusal := .next (barWrite b thermTripClear s)

/-- SUPPLY_FAULT (R352). -/
def execSupplyFault (x : RailLevel) (s : State) : Host.Outcome State Fault Refusal := .next (supplyFault x.rail x.mv s)

/-- SUPPLY_STAT_CLEAR (R352). -/
def execSupplyStatClear (b : BarAcc) (v : Word) (mv : Vector (BitVec 12) 7) (s : State) : Host.Outcome State Fault Refusal :=
  .next (barWrite b (supplyClear (strobes b v) mv) s)

/-- REF_LOST (R347). -/
def execRefLost (s : State) : Host.Outcome State Fault Refusal := .next (refLost s)

/-- REF_RECOVER (R348). -/
def execRefRecover (b : BarAcc) (s : State) : Host.Outcome State Fault Refusal := .next (barWrite b refRecover s)

end Sys2Proof.Machine
end

