-- ==== Sys2Proof/Machine/Reset.lean ====
section
/-! DEFINITION. Resets, wipes and the states of supply and RESET_N (R244, R247, R255, R354 to R357, R362, R365, R367, R372). -/

namespace Sys2Proof.Machine

/-! ### Cold reset (R354, R355; spec/16, Table 6) -/

/-- The causes of PWR_STAT.CAUSE (spec/16, Table 9). -/
def causePin : Nat := 0
def causeCold : Nat := 1
def causeLife : Nat := 2
def causeWarm : Nat := 3
def causeFlr : Nat := 4
def causePerst : Nat := 5

/-- The life-cycle states that derive an identity key: PROVISIONED and DEPLOYED (R362). -/
def hasKey (lc : BitVec 3) : Bool := lc == 1 || lc == 2

/-- The public key derived at a cold reset (R362). -/
def derivedKey (uds : BitVec 256) : List Byte :=
  Config.mldsaPublic ((sha3 (leBytes 32 uds.toNat ++ [0x01#8])).take 32)

/-- A transition blown and not confirmed is completed (R367; spec/17, Table 5). -/
def confirmed (d : Ident) : Ident :=
  match d.blown with
  | none => d
  | some t => { d with lcState := t, blown := none, returns := if d.lcState = 3 ∧ t = 2 then d.returns + 1 else d.returns }

/-- The identity block at a cold reset: what the fuses hold, a fresh nonce, and the key of R362. -/
def identCold (d0 : Ident) (n : Nat) : Ident :=
  let d := confirmed d0
  { resetIdent with
    serial := d.serial, lcState := d.lcState, returns := d.returns, svnFused := d.svnFused, uds := d.uds
    nonce0 := Config.nonce n, nonce1 := Config.nonce (n + 1), idKey := hasKey d.lcState
    pubkey := if hasKey d.lcState then derivedKey d.uds else [] }

/-- A core at a cold reset: its line maps come from fuses (R121). -/
def coreCold (f : Fuses) (c : CoreId) : Core :=
  { resetCore with
    arrs := Vector.ofFn (fun m =>
      let x := cellGet (resetLines, resetLines) f.maps (c.val * 4 + m.val)
      { resetArr with rowMap := x.1, colMap := x.2 }) }

/-- A stack at a cold reset: the state of its dies is read from it (spec/16, Table 6). A rebuild begins afresh. -/
def memCold (m : MemRegion) : MemRegion :=
  { resetMem with dieState := if m.dieState = 2 then 1 else m.dieState, badDie := m.badDie, sparesUsed := m.sparesUsed }

/-- A cold reset begins with a cause: every register takes its reset value; fuses, the straps, what the stacks hold, and the hard
trip while power stays on, are kept (R351, R354, R355). -/
def coldReset (cause : Nat) (s : State) : State :=
  { State.reset with
    cores := Vector.ofFn (coreCold s.fuses), capCores := s.fuses.capCores, activeCores := s.fuses.active
    spareCores := s.fuses.spares, part := s.fuses.part, fuses := s.fuses, dram := s.dram, mems := vmap memCold s.mems
    power := { resetPower with
      cause := BitVec.ofNat 3 cause, hard := s.power.hard, thermtrip := s.power.thermtrip, auxLevel := s.power.auxLevel, resetLow := s.power.resetLow
      aon := s.power.aon }
    ident := identCold s.ident s.free, wtn := { resetWaton with inst := s.wtn.inst }, jtag := { s.jtag with effective := false }
    fabric := { resetFabric with mgr := s.fabric.mgr }, free := s.free + 2, pending := s.pending }

/-- RESET_N_RELEASE: RESET_N rises with its straps; where power had been removed, the hard trip is gone (R351, R372). -/
def resetRelease (mgrSel : Bool) (wid : BitVec 4) (s : State) : State :=
  if s.power.resetLow then
    let s1 := coldReset causePin (modPower s (fun p => { p with resetLow := false, aon := true, hard := p.hard && p.aon, thermtrip := p.thermtrip && p.aon }))
    { s1 with fabric := { s1.fabric with mgr := mgrSel }, wtn := { s1.wtn with inst := wid } }
  else s

/-- RESET_N_ASSERT: the device is held in reset (R372). -/
def resetAssert (s : State) : State :=
  if s.power.resetLow then s else coldReset causePin (modPower s (fun p => { p with resetLow := true }))

/-- POWER_REMOVED: AON has lost its supplies; what volatile memory held is lost, and the return of power is a power-up (R351, R372). -/
def powerRemoved (s : State) : State :=
  let s1 := coldReset causePin (modPower s (fun p => { p with resetLow := true, aon := false }))
  { s1 with dram := [], jtag := resetJtag, power := { s1.power with hard := false, thermtrip := false } }

/-! ### Warm reset (R356; spec/16, Tables 7 and 8) -/

/-- A core at a warm reset. -/
def coreWarm (k : Core) : Core := { resetCore with arrs := vmap keepMaps k.arrs }

/-- A CGk block at a warm reset: all but CG_CLKCTL, the frequency entry and a clock switch in progress. -/
def regionWarm (g : Region) : Region :=
  { resetRegion with lockstep := g.lockstep, guard := g.guard, lsActive := g.lsActive, switching := g.switching, freqIdx := g.freqIdx }

/-- The rebuilds that the stacks' states ask for (R240, R328). -/
def rebuildsDue (s : State) : List Repair :=
  (List.finRange 8).filterMap (fun k =>
    if (memAt s k).dieState = 1 ∨ (memAt s k).dieState = 2 then some (.rebuild k) else none)

/-- The repair engine at a warm reset: groups not yet decided, tests and fills are gone, and the cores they name are as before. -/
def spareWarm (s : State) : Spare :=
  let z := s.spare
  let named (c : CoreId) : Bool := z.repairs.any (repairNames c)
  { z with
    lastKind := 0, lastUnit := 0xFF, draining := false, testing := [], fills := []
    failed := z.failed.filter (fun c => !named c), repairs := rebuildsDue s }

/-- Barriers disarmed, receive windows and what waits in the link engines at a warm reset. -/
def fabricWarm (f : Fabric) : Fabric :=
  { f with barm := resetFabric.barm, lrx := resetFabric.lrx, arrived := [], store := [], flags := [], refused := [] }

/-- The snapshot engine at a warm reset: a snapshot in progress ends (R335). -/
def snapWarm (z : Snap) : Snap :=
  { z with state := .idle, takeGroup := none, records := [], before := [], sendLeft := 0, forwardLeft := 0, restores := [] }

/-- IDE keys are erased and the session ends (R365). -/
def spdmWarm (z : Spdm) : Spdm := { z with session := none, established := false, exchange := [], ide := Vector.replicate 4 none }

/-- A warm reset begins with a cause, unless a reset is in progress (R354). -/
def warmReset (cause : Nat) (s : State) : State :=
  if s.power.ready then
    let s1 : State :=
      { s with
        regions := vmap regionWarm s.regions, cores := vmap coreWarm s.cores, jobs := [], images := [], orderChoices := 0
        groups := Vector.replicate 16 resetGroup, rings := resetRings, host := { s.host with wins := resetHost.wins }
        digest := resetDigest, spare := spareWarm s, snap := snapWarm s.snap, fabric := fabricWarm s.fabric, spdm := spdmWarm s.spdm
        mems := vmap (fun m : MemRegion => { m with queue := [] }) s.mems, wiping := false
        power := { s.power with ready := false, warm := true, cause := BitVec.ofNat 3 cause, wiped := false, woken := 0, keep := retained s, wipes := [], refStop := false } }
    resetWipe ((List.finRange 8).foldl (fun u k => wakeRegion (powMem k) u) s1)
  else s

/-- PERST_ASSERT: the PCIe link goes down with the warm reset (R354). -/
def perst (s : State) : State := warmReset causePerst (pcieDown s)

/-- A write of PWR_RESET: KEY, COLD and WARM (R354). -/
def pwrResetWrite (x : Nat) (s : State) : State :=
  if fieldOf x 0 16 = 0xB007 then
    if bitOf x 16 then coldReset causeCold s else if bitOf x 17 then warmReset causeWarm s else s
  else s

/-- REF_PRESENT: the reference has run for 1 ms; a reset that had stopped restarts as a cold reset (R347, R354). -/
def refPresent (s : State) : State :=
  if s.power.aon && !s.power.resetLow then
    if s.power.refStop then modPower (coldReset s.power.cause.toNat s) (fun p => { p with refOk := true })
    else modPower s (fun p => { p with refOk := true })
  else s

/-! ### The end of a reset -/

/-- The repairs that self-tests found commit one after another (R323; spec/16, Table 6). -/
def commitRepairs : Nat → State → State
  | 0, s => s
  | n + 1, s => commitRepairs n (repairCommit s)

/-- Have the steps before the last ended: DRAM is wiped; in a cold reset all regions have woken, the tests are done and firmware
runs. -/
def resetMayEnd (s : State) : Bool :=
  !s.power.ready && mgtRuns s && s.power.wiped && !s.power.refStop &&
    (s.power.warm ||
      (allRegions.all (fun r => s.power.woken.getLsbD r.val) && s.spare.testing.isEmpty && s.spare.fills.isEmpty && s.ident.bootState == 2 &&
        ((List.finRange 10).all (fun p => decide (p.val < 5) || !(portAt s p).en) || s.power.woken.getLsbD 25)))

/-- Enabled ports start training (R290; spec/16, Table 6). -/
def enablePorts (s : State) : State :=
  (List.finRange 10).foldl (fun u p =>
    if (portAt u p).en && portRuns u p then modPort u p (fun q => { q with state := pTraining }) else u) s

/-- RESET_READY: firmware commits the repairs found, enables the ports and sets READY (spec/16, Tables 6 and 7). -/
def resetReady (s : State) : State :=
  if resetMayEnd s then
    let s1 := modPower s (fun p => { p with ready := true, step := 0, warm := false })
    if s.power.warm then s1
    else
      let s2 := commitRepairs s.spare.repairs.length s1
      enablePorts (modSpare s2 (fun z => { z with repairs := z.repairs ++ rebuildsDue s2 }))
  else s

/-! ### Wipes (R244, R255) -/

/-- Bytes of a granule, 1 GiB. -/
def gib : Nat := 0x40000000

/-- DRAM without the bytes whose device address satisfies `p`. -/
def dramWipe (p : Nat → Bool) (s : State) : State :=
  { s with dram := s.dram.filter (fun e => !p (dramAddr s e.1)) }

/-- Does an address lie in the region that the warm reset in progress retains (R243). -/
def isRetained (s : State) (a : Nat) : Bool := s.power.keep.any (fun x => decide (x.1 ≤ a ∧ a < x.1 + x.2))

/-- What a wipe does once it is complete. The on-die wipe clears the scalars with the rest of the core, although R84 says that no command
writes a scalar (DESIGN CHOICE, log entry 111). -/
def wipeEffect (w : Wipe) (s : State) : State :=
  match w with
  | .dram first count => dramWipe (fun a => decide (first * gib ≤ a ∧ a < (first + count) * gib)) s
  | .onDie mask => ((bitList 64 mask.toNat).filterMap (physicalOf s)).foldl (fun u c => modCore u c coreCleared) s
  | .reset =>
    modPower (if s.power.warm then dramWipe (fun a => !isRetained s a) s else { s with dram := [] })
      (fun p => { p with wiped := true })

/-- Is a wipe one of DRAM. -/
def wipesDram (w : Wipe) : Bool :=
  match w with
  | .onDie _ => false
  | _ => true

/-- The first packet that waits for `a` replies. -/
def answerFirst (a : Awaits) (st : Status) (s : State) : State :=
  match s.rings.waiting.find? (fun c => decide (c.awaits = a)) with
  | some c => putReply c.opcode.toNat c.tag c.irq st 0 (modRings s (fun r => { r with waiting := r.waiting.erase c }))
  | none => s

/-- WIPE_DONE: the wipe begun first is complete (R244, R255); that of a reset not while the reset has stopped (R354). -/
def wipeDone (s : State) : State :=
  match s.power.wipes with
  | [] => s
  | w :: r =>
    if w = .reset ∧ s.power.refStop = true then s
    else
      let s1 := modPower (wipeEffect w s) (fun p => { p with wipes := r })
      let s2 := { s1 with wiping := r.any wipesDram }
      if w = .reset then s2 else answerFirst .wipe .ok s2

/-- A wipe begins. -/
def wipeBegin (w : Wipe) (s : State) : State :=
  { modPower s (fun p => { p with wipes := p.wipes ++ [w] }) with wiping := s.wiping || wipesDram w }

/-- Does a window of a job lie in a range of DRAM. -/
def windowIn (s : State) (a n : Nat) (b : Job) : Bool := (jobWindows s b).any (fun w => rangesMeet w.base w.size a n)

/-- WIPE of DRAM granules (R255). -/
def wipeDram (first count : Nat) (s : State) : PktResult :=
  if 576 < first + count then refuse .badParam s
  else if (jobsWhere s (fun b => jobLive b && windowIn s (first * gib) (count * gib) b)).isEmpty = false then refuse .resourceConflict s
  else .waits .wipe ((List.finRange 8).foldl (fun u k => wakeRegion (powMem k) u) (wipeBegin (.dram first count) s))

/-- WIPE of idle cores (R255). A bit beyond the active cores names no core. -/
def wipeCores (mask : Word) (s : State) : PktResult :=
  let ls := bitList 64 mask.toNat
  if ls.any (fun l => decide (physicalOf s l = none)) then refuse .badParam s
  else if (ls.filterMap (physicalOf s)).any (fun c => (jobOf s c).isSome) then refuse .resourceConflict s
  else .waits .wipe (wipeBegin (.onDie mask) s)

/-! ### The commands -/

/-- RESET_N_RELEASE (R372). -/
def execResetNRelease (mgrSel : Bool) (wid : BitVec 4) (s : State) : Host.Outcome State Fault Refusal := .next (resetRelease mgrSel wid s)

/-- RESET_N_ASSERT (R372). -/
def execResetNAssert (s : State) : Host.Outcome State Fault Refusal := .next (resetAssert s)

/-- POWER_REMOVED (R351). -/
def execPowerRemoved (s : State) : Host.Outcome State Fault Refusal := .next (powerRemoved s)

/-- PWR_RESET_COLD (R354). -/
def execPwrResetCold (b : BarAcc) (v : Word) (s : State) : Host.Outcome State Fault Refusal :=
  .next (barWrite b (pwrResetWrite (strobes b v)) s)

/-- PWR_RESET_WARM (R354). -/
def execPwrResetWarm (b : BarAcc) (v : Word) (s : State) : Host.Outcome State Fault Refusal :=
  .next (barWrite b (pwrResetWrite (strobes b v)) s)

/-- FUNCTION_LEVEL_RESET (R247). -/
def execFunctionLevelReset (s : State) : Host.Outcome State Fault Refusal := .next (warmReset causeFlr s)

/-- PERST_ASSERT (R354). -/
def execPerstAssert (s : State) : Host.Outcome State Fault Refusal := .next (perst s)

/-- REF_PRESENT (R347, R354). -/
def execRefPresent (s : State) : Host.Outcome State Fault Refusal := .next (refPresent s)

/-- RESET_READY (R355). -/
def execResetReady (s : State) : Host.Outcome State Fault Refusal := .next (resetReady s)

/-- WIPE of DRAM granules (R255). -/
def execWipeDram (h : PktHdr) (first : BitVec 32) (count : BitVec 16) (s : State) : Host.Outcome State Fault Refusal :=
  .next (onPacket 0x21 h 0 (wipeDram first.toNat count.toNat) s)

/-- WIPE of on-die state (R255). -/
def execWipeOnDie (h : PktHdr) (mask : Word) (s : State) : Host.Outcome State Fault Refusal :=
  .next (onPacket 0x21 h 0 (wipeCores mask) s)

/-- WIPE_DONE (R244). -/
def execWipeDone (s : State) : Host.Outcome State Fault Refusal := .next (wipeDone s)

end Sys2Proof.Machine
end

