-- ==== Sys2Proof/Machine/DevRead.lean ====
section
/-! DEFINITION. Reading the registers of the device: the block range of spec/01, Table 4, and the register tables of spec/00, 02, 06
and 11 to 18. -/

namespace Sys2Proof.Machine

/-! ### CAP and identity -/

/-- Bytes `8 * j` to `8 * j + 7` of a byte string as a register. -/
def wordOfBytes (bs : List Byte) (j : Nat) : Nat := leNat ((bs.drop (8 * j)).take 8)

/-- CAP_GRADE (spec/00, Table 4). -/
def capGrade (s : State) : Nat :=
  packFields [(0, s.part.toNat), (8, s.activeCores.toNat), (16, s.spareCores.length), (24, s.fuses.stepping.toNat)]

/-- CAP_LATPROF (spec/02, Table 10). -/
def capLatprof (s : State) : Nat := if s.fuses.stepping = 0 then 0x101 else 0x203

/-- A register of the CAP and identity block (spec/00, 02, 16 and 17). -/
def capRead (s : State) (o : Nat) : Nat :=
  let d := s.ident
  if 0x008 ≤ o ∧ o < 0x050 then wordOfBytes s.capCores.toList ((o - 8) / 8)
  else if 0x1100 ≤ o ∧ o < 0x1200 then wordOfBytes (d.meas.get (Fin.ofNat 4 ((o - 0x1100) / 0x40))) ((o - 0x1100) % 0x40 / 8)
  else if 0x2000 ≤ o ∧ o < 0x2A20 then wordOfBytes d.pubkey ((o - 0x2000) / 8)
  else
    match o with
    | 0x000 => capGrade s
    | 0x050 => if noEngines s then 0 else 7
    | 0x058 => packFields [(0, 6), (4, 5), (8, 6), (12, 4), (16, 4), (20, 8), (24, 0xC)]
    | 0x060 => capLatprof s
    | 0x068 => 0x70
    | 0x1008 => packFields [(0, d.bootState.toNat), (16, d.bootStatus.toNat), (32, d.bootReason.toNat)]
    | 0x1010 => d.serial.toNat
    | 0x1018 =>
      packFields [(0, d.lcState.toNat), (3, d.returns.toNat), (5, bitNat d.idKey), (6, bitNat d.debugFw), (7, bitNat d.lcBusy),
        (8, d.lcStatus.toNat)]
    | 0x1020 => packFields [(0, d.svnFused.toNat), (32, d.svnImage.toNat)]
    | 0x1030 => d.nonce0.toNat
    | 0x1038 => d.nonce1.toNat
    | 0x1040 => bitNat d.ideOnly
    | _ => 0

/-! ### MGT -/

/-- The sum of a count over the compute regions (R40). -/
def tallySum (s : State) (f : Region → Nat) : Nat := satAdd 64 0 (allRegions.foldl (fun n r => n + f (regionAt s r)) 0)

/-- GRP_STAT.STATE (spec/12, Table 14). -/
def groupCode : GroupState → Nat
  | .closed => 0 | .isOpen => 1 | .preparing => 2 | .applying => 3 | .committed => 4 | .aborted => 5

/-- SNAP_STAT.STATE (spec/15, Table 7). -/
def snapCode : SnapState → Nat
  | .idle => 0 | .capturing => 1 | .sending => 2 | .failed => 3

/-- The status field of a state that has had no outcome yet reads OK. -/
def stCode (st : Status) : Nat := statusCode st

/-- HWINi (spec/12, Table 2). -/
def hwinReg (w : HostWin) : Nat := packFields [(12, w.base.toNat), (48, bitNat w.en), (49, bitNat w.wr), (50, w.size.toNat)]

/-- DIG_RBASEi and DIG_RLENi. -/
def digRange (s : State) (o : Nat) : Nat :=
  let i : Fin 4 := Fin.ofNat 4 ((o - 0x5010) / 16)
  if (o - 0x5010) % 16 = 0 then (s.digest.rbase.get i).toNat else (s.digest.rlen.get i).toNat

/-- Pending job events (R254). -/
def eventsPending (s : State) : Nat := (jobsWhere s (fun b => b.evt)).length

/-- A register of the MGT block (spec/02, 12 to 15). -/
def mgtRead (s : State) (o : Nat) : Nat :=
  let r := s.rings
  let z := s.snap
  if 0x1000 ≤ o ∧ o < 0x1080 then hwinReg (s.host.wins.get (Fin.ofNat 16 ((o - 0x1000) / 8)))
  else if 0x2008 ≤ o ∧ o < 0x2048 then (s.host.jtData.get (Fin.ofNat 8 ((o - 0x2008) / 8))).toNat
  else if 0x3000 ≤ o ∧ o < 0x3080 then
    let g := groupAt s (Fin.ofNat 16 ((o - 0x3000) / 8))
    packFields [(0, groupCode g.state), (8, stCode g.status), (32, popCount 64 g.mask.toNat), (48, g.detail.toNat)]
  else if 0x5010 ≤ o ∧ o < 0x5050 then digRange s o
  else if 0x5080 ≤ o ∧ o < 0x50C0 then (s.digest.out.get (Fin.ofNat 8 ((o - 0x5080) / 8))).toNat
  else if 0x80000 ≤ o ∧ o < 0xE0000 then leNat (memRead s.ident.staging (o - 0x80000) 8)
  else
    match o with
    | 0x000 => packFields [(0, bitNat (r.enable && ringsKeyed s)), (4, r.size.toNat), (8, r.rvec.toNat), (12, r.avec.toNat)]
    | 0x008 => r.base.toNat
    | 0x010 => r.tail.toNat
    | 0x018 => r.head.toNat
    | 0x020 => r.rrBase.toNat
    | 0x028 => r.rrHead.toNat
    | 0x030 => r.rrTail.toNat
    | 0x038 => packFields [(0, bitNat r.dmaErr), (1, bitNat r.overflow)]
    | 0x040 => packFields [(0, eventsPending s), (17, r.alerts.length), (32, r.evtMerged.toNat)]
    | 0x1080 =>
      packFields [(0, bitNat s.host.winErr), (8, s.host.lastWin.toNat), (16, s.host.lastStatus.toNat), (32, s.host.fails.toNat)]
    | 0x2000 => s.host.jtIndex.toNat
    | 0x3080 => s.prepTmo.toNat
    | 0x4000 => packFields [(0, z.epoch.toNat), (32, bitNat z.take)]
    | 0x4008 => packFields [(0, z.period.toNat), (16, z.share.toNat), (23, bitNat z.en)]
    | 0x4010 => packFields [(0, snapCode z.state), (3, bitNat z.halted), (4, bitNat z.slot), (16, stCode z.status)]
    | 0x4018 => packFields [(0, z.captured.toNat), (32, z.complete.toNat)]
    | 0x4020 => packFields [(0, z.haltEpoch.toNat), (32, z.lost.toNat)]
    | 0x4028 => z.skips.toNat
    | 0x5000 => s.digest.items.toNat
    | 0x5008 => s.digest.cores.toNat
    | 0x5050 => packFields [(0, s.digest.state.toNat), (16, stCode s.digest.status)]
    | 0x6000 => packFields [(0, s.wtn.addr.toNat), (7, bitNat s.wtn.valid), (8, s.wtn.inst.toNat)]
    | 0x7000 => packFields [(0, bitNat s.spare.auto), (1, bitNat s.spare.shedEn)]
    | 0x7008 =>
      packFields [(0, Nat.min s.spare.repairs.length 15), (8, s.spare.lastKind.toNat), (16, s.spare.lastUnit.toNat),
        (24, bitNat s.spare.draining)]
    | 0x20000 => tallySum s (fun g => g.tallyEvents.toNat)
    | 0x20008 => tallySum s (fun g => g.tallyTicks.toNat)
    | 0x20010 => s.orderChoices.toNat
    | 0x20018 => s.mgtPeriods.toNat
    | _ => 0

/-! ### AON -/

/-- The step of Table 6 or Table 7 of spec/16 in progress: of steps that run side by side, the lowest (PWR_STAT.STEP). -/
def resetStepNow (s : State) : Nat :=
  if s.power.ready then 0
  else if s.power.warm then (if s.power.wiped then 4 else 3)
  else if s.power.step.toNat < 3 then s.power.step.toNat
  else if !(mgtRuns s && s.host.linkUp) then 3
  else if !((List.finRange 8).all (fun k => s.power.woken.getLsbD (17 + k.val))) then 4
  else if !s.power.wiped then 5
  else if !(allRegions.all (fun r => s.power.woken.getLsbD r.val) && s.spare.testing.isEmpty && s.spare.fills.isEmpty) then 6
  else if s.ident.bootState ≠ 2 then 7
  else 8

/-- PWR_REGSTAT.REGn (spec/16, Table 9). -/
def powCode : RegPower → Nat
  | .asleep => 0 | .queued => 1 | .waking => 2 | .running => 3

/-- A register of the AON block (spec/16, Table 9; spec/18, Tables 4 to 6). -/
def aonRead (s : State) (o : Nat) : Nat :=
  let p := s.power
  if 0x080 ≤ o ∧ o < 0x0C0 then packFields [(0, clkMhz ((o - 0x080) / 8)), (12, clkMv ((o - 0x080) / 8))]
  else
    match o with
    | 0x000 => packFields [(0, bitNat p.ready), (1, p.cause.toNat), (4, resetStepNow s)]
    | 0x010 => p.sleepReq.toNat
    | 0x018 => packFields ((List.finRange 26).map (fun n => (2 * n.val, powCode (powAt s ⟨n.val, by omega⟩))))
    | 0x020 => packFields [(0, p.budget.toNat), (16, Nat.min p.queue.length 31)]
    | 0x028 => packFields [(0, 80), (8, 40), (16, 30), (24, 20), (32, 30)]
    | 0x030 => packFields [(0, bitNat p.lost), (1, bitNat p.refOk), (3, bitNat p.recErr)]
    | 0x040 => p.warnAt.toNat
    | 0x048 => packFields [(0, p.temp.toNat), (8, p.hot.toNat), (13, bitNat p.warned), (14, bitNat p.trip), (15, bitNat p.hard)]
    | 0x050 => p.supply.toNat
    | 0x0C0 =>
      packFields [(0, p.clkMask.toNat), (17, p.clkIdx.toNat), (22, bitNat p.clk.isSome), (23, bitNat p.clkErr), (24, p.clkStatus.toNat)]
    | 0x0D0 => packFields [(0, p.avsReq.toNat), (12, p.avsRead.toNat), (24, bitNat p.avsBusy), (25, bitNat p.avsErr)]
    | 0x0E0 => packFields [(0, bitNat p.auxBar), (1, bitNat p.auxDbg), (2, p.auxBarrier.toNat)]
    | 0x0E8 => packFields [(0, bitNat (if p.auxDbg then decide (0 < p.auxPulse) else p.auxLevel)), (1, bitNat p.auxErr), (2, p.auxStatus.toNat)]
    | _ => 0

/-! ### Memory, I/O and compute regions -/

/-- A register of block MEMk (spec/11, Tables 4 to 6). -/
def memRegRead (s : State) (k : Fin 8) (o : Nat) : Nat :=
  let m := memAt s k
  if 0x100 ≤ o ∧ o < 0x180 then wordOfBytes m.wheel.toList ((o - 0x100) / 8)
  else if 0x180 ≤ o ∧ o < 0x200 then wordOfBytes m.wheelN.toList ((o - 0x180) / 8)
  else
    match o with
    | 0x000 =>
      packFields [(0, bitNat m.rate2x), (1, bitNat m.trip), (2, m.dieState.toNat), (8, m.temp.toNat), (16, m.badDie.toNat),
        (32, m.rebuilt.toNat)]
    | 0x008 => packFields [(0, m.corrected.toNat), (32, m.parityCorr.toNat), (48, m.bondRetry.toNat)]
    | 0x010 => packFields [(0, m.errOffset.toNat), (48, m.errKind.toNat)]
    | 0x200 => packFields [(1, bitNat m.wheelNext.isSome), (2, bitNat m.wheelErr)]
    | _ => 0

/-- A register of block MEMC (spec/01, Table 5; spec/11, Table 7). -/
def memcRead (s : State) (o : Nat) : Nat :=
  match o with
  | 0x000 => bitNat s.stackLocal
  | 0x008 => packFields [(0, bitNat s.force2x), (1, bitNat s.scrub)]
  | 0x010 => packFields [(0, s.retain0.1.toNat), (16, s.retain0.2.toNat)]
  | 0x018 => packFields [(0, s.retain1.1.toNat), (16, s.retain1.2.toNat)]
  | 0x020 => packFields [(0, s.memcFailed.toNat), (8, bitNat s.wiping)]
  | _ => 0

/-- A register of a port (spec/14, Table 7). -/
def portRead (s : State) (p : PortId) (o : Nat) : Nat :=
  let q := portAt s p
  match o with
  | 0x000 => packFields [(0, bitNat q.en), (1, bitNat q.chClass), (3, q.laneThr.toNat)]
  | 0x008 =>
    packFields [(0, q.state.toNat), (2, q.lanes.toNat), (11, bitNat q.spareUsed), (12, q.failedLane.toNat), (16, q.reason.toNat),
      (19, q.peer.toNat), (33, bitNat q.peerValid), (48, q.tries.toNat)]
  | 0x010 => packFields [(0, q.fecCorr.toNat), (32, q.crcFail.toNat), (48, q.replayCnt.toNat)]
  | _ => 0

/-- FAB_RTDATA: the route entry that FAB_RTIDX names (R297). -/
def routeReg (s : State) : Nat :=
  match s.fabric.routes.find? (fun e => decide (e.1 = s.fabric.rtIndex.toNat)) with
  | some (_, some p) => packFields [(0, p.val), (4, 1)]
  | _ => 0

/-- A fabric register (spec/14, Table 8). -/
def fabRead (s : State) (o : Nat) : Nat :=
  let f := s.fabric
  if 0x040 ≤ o ∧ o < 0x080 then
    let b := f.barm.get (Fin.ofNat 8 ((o - 0x040) / 8))
    packFields [(0, b.mode.toNat), (2, b.job.toNat), (18, b.state.toNat), (20, bitNat b.late)]
  else if 0x100 ≤ o ∧ o < 0x140 then
    let w := f.lrx.get (Fin.ofNat 8 ((o - 0x100) / 8))
    packFields [(12, w.base.toNat), (48, bitNat w.en), (50, w.size.toNat)]
  else
    match o with
    | 0x000 =>
      packFields [(0, bitNat f.mgr), (1, bitNat f.idValid), (2, f.id.toNat), (16, f.depth.toNat), (21, f.parent.toNat),
        (25, f.enumSt.toNat), (27, bitNat f.tsync), (28, f.unassigned.toNat), (42, f.dropped.toNat)]
    | 0x008 => f.time.toNat
    | 0x010 => f.rtIndex.toNat
    | 0x018 => routeReg s
    | 0x020 => packFields [(0, f.hbPeriod.toNat), (16, f.hbMiss.toNat), (20, f.ackTmo.toNat)]
    | 0x028 => f.lead.toNat
    | 0x080 => f.grp.toNat
    | _ => 0

/-- A register of IO0 or IO1: five ports each, and the fabric in IO0. IO1 reads its registers only while it runs. -/
def ioRead (s : State) (io1 : Bool) (o : Nat) : Nat :=
  if io1 && powAt s 25 != .running then 0
  else if o < 0x5000 then portRead s (Fin.ofNat 10 (o / 0x1000 + if io1 then 5 else 0)) (o % 0x1000)
  else if 0x10000 ≤ o ∧ o < 0x20000 ∧ io1 = false then fabRead s (o - 0x10000)
  else 0

/-- CG_FLMX (spec/06, Table 11). -/
def flmxReg (s : State) (r : RegionId) : Nat :=
  let g := regionAt s r
  let hd (q : List Flit) (f : Flit → Nat) : Nat := match q with | x :: _ => f x | [] => 0
  packFields [(0, g.inCw.length), (8, g.inCcw.length), (16, bitNat ((coresOf r).all (isBypass s))), (17, bitNat g.flmxCrc),
    (24, hd g.inCw (fun x => x.ttl.toNat)), (32, hd g.inCw (fun x => x.tag.toNat)), (40, hd g.inCcw (fun x => x.ttl.toNat)),
    (48, hd g.inCcw (fun x => x.tag.toNat))]

/-- A register of block CGk (spec/02, Tables 2 to 8; spec/06, Table 11; spec/13, Table 6). -/
def cgRead (s : State) (r : RegionId) (o : Nat) : Nat :=
  let g := regionAt s r
  match o with
  | 0x000 => packFields [(0, bitNat g.lockstep), (1, g.guard.toNat)]
  | 0x008 => packFields [(0, bitNat g.lsActive), (1, bitNat g.switching), (2, g.freqIdx.toNat), (16, g.stretch.toNat), (48, g.forced.toNat)]
  | 0x010 => g.tick.toNat
  | 0x018 => g.periods.toNat
  | 0x100 => g.tallyEvents.toNat
  | 0x108 => g.tallyTicks.toNat
  | 0x110 =>
    let t := g.tallyLast
    packFields [(0, t.cause.toNat), (2, t.queue.toNat), (8, t.core.toNat), (16, t.tick.toNat), (48, t.periods.toNat)]
  | 0x120 => g.holdwd.toNat
  | 0x200 => flmxReg s r
  | 0x300 => packFields [(0, bitNat g.stopEn), (1, bitNat g.stopFired), (16, g.stopJob.toNat)]
  | 0x308 => g.stopAt.toNat
  | _ => 0

/-! ### The whole range -/

/-- The places of the register range (spec/01, Table 4). -/
inductive RegPlace where
  | cap (o : Nat)
  | mgt (o : Nat)
  | aon (o : Nat)
  | mem (k : Fin 8) (o : Nat)
  | memc (o : Nat)
  | io (second : Bool) (o : Nat)
  | cg (r : RegionId) (o : Nat)
  | core (c : CoreId) (o : Nat)
  | nowhere
  deriving DecidableEq, Repr

/-- Where an offset of the register range lies (spec/01, Table 4). -/
def regPlace (off : Nat) : RegPlace :=
  if off < 0x10000 then .cap off
  else if off < 0x100000 then .mgt (off - 0x10000)
  else if off < 0x200000 then .aon (off - 0x100000)
  else if off < 0x280000 then .mem (Fin.ofNat 8 ((off - 0x200000) / 0x10000)) (off % 0x10000)
  else if off < 0x290000 then .memc (off - 0x280000)
  else if off < 0x300000 then .nowhere
  else if off < 0x380000 then .io false (off - 0x300000)
  else if off < 0x400000 then .io true (off - 0x380000)
  else if off < 0x510000 then .cg (Fin.ofNat 17 ((off - 0x400000) / 0x10000)) (off % 0x10000)
  else if off < 0x1000000 then .nowhere
  else if off < 0x2100000 then .core (Fin.ofNat 68 ((off - 0x1000000) / 0x40000)) (off % 0x40000)
  else .nowhere

/-- The 64-bit register at an offset, a multiple of 8 (R248, R255): 0 where no register lies. -/
def regRead (s : State) (off : Nat) : Nat :=
  match regPlace off with
  | .cap o => capRead s o
  | .mgt o => mgtRead s o
  | .aon o => aonRead s o
  | .mem k o => memRegRead s k o
  | .memc o => memcRead s o
  | .io b o => ioRead s b o
  | .cg r o => cgRead s r o
  | .core c o => match coreRegAt o with | some r => coreRegRead s c r | none => 0
  | .nowhere => 0

/-- The state after a read of a register: its RC fields are 0 (R66, R248). -/
def regClear (s : State) (off : Nat) : State :=
  match regPlace off with
  | .mgt 0x040 => modRings s (fun r => { r with evtMerged := 0 })
  | .mgt 0x1080 => modHost s (fun h => { h with fails := 0 })
  | .mgt 0x4028 => modSnap s (fun z => { z with skips := 0 })
  | .mgt 0x20010 => { s with orderChoices := 0 }
  | .mem k 0x008 => modMem s k (fun m => { m with corrected := 0, parityCorr := 0, bondRetry := 0 })
  | .io b o =>
    if o < 0x5000 ∧ o % 0x1000 = 0x010 ∧ (b = false ∨ powAt s 25 = .running) then
      modPort s (Fin.ofNat 10 (o / 0x1000 + if b then 5 else 0)) (fun q => { q with fecCorr := 0, crcFail := 0, replayCnt := 0 })
    else if o = 0x10000 ∧ b = false then modFabric s (fun f => { f with dropped := 0 })
    else s
  | .core c o =>
    match coreRegAt o with
    | some r => modCore s c (fun k => coreClearRc k r)
    | none => s
  | _ => s

/-- The bits of a register that an access reads. -/
def laneRead (l : Lanes) (v : Nat) : Word :=
  match l with
  | .all => BitVec.ofNat 64 v
  | .low => BitVec.ofNat 64 (v % 2 ^ 32)
  | .high => BitVec.ofNat 64 (fieldOf v 32 32)

end Sys2Proof.Machine
end

