-- ==== Sys2Proof/Machine/HostPath.lean ====
section
/-! DEFINITION. The host interface: the rings, replies, events and alerts, BAR 2 windows and accesses, the job table window, QUERY and
the PCIe link (R245 to R256, R266). -/

namespace Sys2Proof.Machine

/-! ### Rings (R251) -/

/-- Entries of either ring. -/
def ringEntries (r : Rings) : Nat := 2 ^ r.size.toNat

/-- The value of CR_CTL as it is stored. -/
def crCtlValue (r : Rings) : Nat := packFields [(0, bitNat r.enable), (4, r.size.toNat), (8, r.rvec.toNat), (12, r.avec.toNat)]

/-- The rings after a write that gives CR_CTL the value `x`: SIZE stands while they are enabled; enabling them clears the counts and
lets packets be taken again. -/
def crCtlSet (x : Nat) (r : Rings) : Rings :=
  let size := if r.enable then r.size else BitVec.ofNat 4 (fieldOf x 4 4)
  let r1 := { r with size := size, rvec := BitVec.ofNat 4 (fieldOf x 8 4), avec := BitVec.ofNat 4 (fieldOf x 12 4) }
  if bitOf x 0 then
    if r.enable then r1
    else if 4 ≤ size.toNat ∧ size.toNat ≤ 12 then { r1 with enable := true, stopped := false, tail := 0, head := 0, rrHead := 0, rrTail := 0 }
    else r1
  else { r1 with enable := false }

/-- A write of CR_CTL: one that sets ENABLE before READY is ignored (R251, R357). -/
def crCtlWrite (b : BarAcc) (v : Word) (s : State) : State :=
  let x := merged b (crCtlValue s.rings) v
  if bitOf x 0 && !s.power.ready then s else modRings s (crCtlSet x)

/-- A write of CR_TAIL: more packets than the ring holds, or a failed read of the ring, stop the taking of packets (R251). -/
def crTailWrite (b : BarAcc) (v : Word) (readOk : Bool) (s : State) : State :=
  modRings s (fun r =>
    let t : BitVec 16 := BitVec.ofNat 16 (merged b r.tail.toNat v)
    let tooMany := r.enable && decide (ringEntries r < (t - r.head).toNat)
    let bad := r.enable && !readOk && decide (t ≠ r.head)
    { r with tail := t, overflow := r.overflow || tooMany, dmaErr := r.dmaErr || bad, stopped := r.stopped || tooMany || bad })

/-- May a reply be written: the rings are in use, the link is up and the reply ring has space (R253, R254, R366). -/
def mayReply (s : State) : Bool :=
  let r := s.rings
  mgtRuns s && r.enable && s.host.linkUp && ringsKeyed s && decide ((r.rrTail - r.rrHead).toNat < ringEntries r)

/-- A reply goes to the reply ring; a ring write that fails leaves it waiting and stops the taking of packets (R251, R253). -/
def writeReply (ok : Bool) (x : Reply) (vector : Option (BitVec 4)) (drop : State → State) (s : State) : State :=
  if ok then
    drop (modRings s (fun r =>
      { r with
        lastWrite := some { addr := r.rrBase + BitVec.ofNat 64 (r.rrTail.toNat % ringEntries r * 32), reply := x }
        lastVector := vector, rrTail := r.rrTail + 1 }))
  else modRings s (fun r => { r with dmaErr := true, stopped := true })

/-- REPLY_WRITE: the oldest command reply (R253). -/
def replyWrite (ok : Bool) (s : State) : State :=
  match s.rings.store with
  | x :: rest =>
    if mayReply s then
      writeReply ok x (if x.irq then some s.rings.rvec else none) (fun u => modRings u (fun r => { r with store := rest })) s
    else s
  | [] => s

/-- The reply of an alert (spec/12, Table 4). -/
def alertReply (a : Alert) : Reply :=
  { status := a.status, opcode := 0, kind := 2, tag := 0, merged := a.merged, result := resultOf [(8, a.detail.toNat)], irq := true }

/-- ALERT_WRITE: the alert raised first, once no command reply waits (R254, R255). -/
def alertWrite (ok : Bool) (s : State) : State :=
  match s.rings.alerts with
  | a :: rest =>
    if mayReply s && s.rings.store.isEmpty then
      writeReply ok (alertReply a) (some s.rings.avec) (fun u => modRings u (fun r => { r with alerts := rest })) s
    else s
  | [] => s

/-- The reply of a job event (spec/12, Table 4). -/
def eventReply (j : JobId) (b : Job) : Reply :=
  { status := b.status, opcode := 0, kind := 1, tag := b.tag, merged := 0, irq := true
    result := resultOf [(8, j.val), (16, b.holdEvents.toNat), (20, b.holdTicks.toNat)] }

/-- JOB_EVENT_WRITE: the pending event of the lowest index, once neither reply nor alert waits (R254, R255). -/
def jobEventWrite (ok : Bool) (s : State) : State :=
  match jobsWhere s (fun b => b.evt) with
  | j :: _ =>
    if mayReply s && s.rings.store.isEmpty && s.rings.alerts.isEmpty then
      writeReply ok (eventReply j (jobAt s j)) (some s.rings.avec) (fun u => modJob u j (fun b => { b with evt := false })) s
    else s
  | [] => s

/-! ### The job table window (R266) -/

/-- JOB states (spec/12, Table 8). -/
def jobCode : JobState → Nat
  | .free => 0 | .held => 1 | .waiting => 2 | .ready => 3 | .running => 4 | .stopped => 5 | .fencing => 6 | .done => 7
  | .fenced => 8 | .cancelled => 9

/-- Word `i` of a job table entry (spec/12, Table 10). -/
def jobWord (b : Job) (i : Fin 8) : Word :=
  BitVec.ofNat 64 (match i with
    | 0 => packFields [(0, jobCode b.state), (4, bitNat b.evt), (8, statusCode b.status), (24, b.pred.toNat), (40, b.tag.toNat)]
    | 1 => b.cores.toNat
    | 2 => b.slot.toNat
    | 3 => packFields [(0, b.startPeriod.toNat), (32, b.endPeriod.toNat)]
    | 4 => packFields [(0, b.holdEvents.toNat), (32, b.holdTicks.toNat)]
    | 5 => packFields [(0, b.fence.pcore.toNat), (8, b.fence.region.toNat), (16, b.fence.ltag.toNat), (32, b.fence.bundle.toNat)]
    | 6 => packFields [(0, b.fence.ltick.toNat), (32, b.fence.detail0.toNat)]
    | 7 => b.fence.detail1.toNat)

/-- A write of JT_INDEX copies the entry (R266). -/
def jtIndexWrite (b : BarAcc) (v : Word) (s : State) : State :=
  let i := merged b s.host.jtIndex.toNat v % 65536
  let e := jobAt s (Fin.ofNat 65536 i)
  modHost s (fun h => { h with jtIndex := BitVec.ofNat 16 i, jtData := Vector.ofFn (jobWord e) })

/-! ### QUERY and undefined opcodes (R252, R255) -/

/-- QUERY of a register: as a BAR 0 read of 8 bytes, its RC effects included. -/
def queryRegister (off : Nat) (s : State) : PktResult :=
  if off % 8 ≠ 0 ∨ 0x4000000 ≤ off then refuse .badParam s
  else .done .ok (resultOf [(8, regRead s off)]) (regClear s off)

/-- QUERY of a job entry: words 0, 4 and 5. -/
def queryJob (j : JobId) (s : State) : PktResult :=
  let w (i : Fin 8) : Nat := (jobWord (jobAt s j) i).toNat
  .done .ok (resultOf [(8, w 0), (16, w 4), (24, w 5)]) s

/-- The opcodes of spec/12, Table 5. -/
def opcodeKnown (o : Byte) : Bool :=
  [0x01#8, 0x02#8, 0x03#8, 0x10#8, 0x11#8, 0x18#8, 0x19#8, 0x20#8, 0x21#8, 0x22#8, 0x23#8, 0x30#8].contains o

/-- UNDEFINED_OPCODE_PACKET: answered BAD_OPCODE; an opcode that Table 5 defines names another command and does nothing here (R252). -/
def undefinedOpcode (h : PktHdr) (o : Byte) (s : State) : State :=
  if opcodeKnown o then s else onPacket o.toNat { h with rsv := false } 0 (refuse .badOpcode) s

/-! ### Register reads -/

/-- A BAR 0 read of a register (R66, R248). -/
def barRead (b : BarAcc) (off : Nat) (s : State) : State :=
  if hostReaches s then
    if ideAllows b.keyed s && decide (off % 8 = 0) && decide (off < 0x4000000) then
      regClear (answerHost (.data (laneRead b.lanes (regRead s off))) s) off
    else answerHost .unsupported s
  else s

/-! ### BAR 2 (R249, R250) -/

/-- May a window have these fields (R249). -/
def winFits (s : State) (x : Nat) : Bool :=
  let size := fieldOf x 50 6
  let base := fieldOf x 12 36 * 4096
  decide (12 ≤ size ∧ size ≤ 32) && decide (base % 2 ^ size = 0) &&
    (!bitOf x 48 || isDram s base (2 ^ size) || (localRange s base (2 ^ size)).isSome)

/-- A write of HWINi (R249). -/
def hwinWrite (b : BarAcc) (i : Fin 16) (v : Word) (s : State) : State :=
  let x := merged b (hwinReg (s.host.wins.get i)) v
  if winFits s x then
    let w : HostWin := { base := BitVec.ofNat 36 (fieldOf x 12 36), en := bitOf x 48, wr := bitOf x 49, size := BitVec.ofNat 6 (fieldOf x 50 6) }
    modHost s (fun h => { h with wins := h.wins.set i.val w i.isLt, winErr := false })
  else modHost s (fun h => { h with winErr := true })

/-- HOST_MEMORY_ACCESS (R245, R249, R250, R340, R366). -/
def hostAccess (x : HostAcc) (s : State) : State :=
  if hostReaches s then
    let w := s.host.wins.get x.slot
    if x.write && x.poisoned then poisonedWrite s
    else if !ideAllows x.keyed s then answerHost .unsupported s
    else if !w.en then answerHost (if x.write then .done else .unsupported) s
    else if 2 ^ w.size.toNat < x.off + x.len then answerHost .unsupported s
    else if x.write && !w.wr then answerHost .done s
    else
      hostTake { acc := x, addr := w.base.toNat * 4096 + x.off } s
  else s

/-! ### The PCIe link (R245 to R247) -/

/-- PCIE_LINK_TRAIN: the link comes up in FLIT mode; without it the device leaves it down and says so on the chain (R246). -/
def pcieTrain (flitMode : Bool) (s : State) : State :=
  if mgtRuns s && !(s.power.supply.getLsbD 3) then
    if flitMode then modHost s (fun h => { h with linkUp := true }) else signalIbi .linkDown (pcieDown s)
  else s

/-- What a configuration read shows: what PCIe makes of the value last written there, and of a poisoned TLP in the AER registers
(R245; log entry 6). -/
def configValue (s : State) (off : Nat) : BitVec 32 :=
  Config.pcieConfig off (cellGet none (s.host.config.map (fun x => (x.1, some x.2))) off) s.host.aerPoisoned

/-- CONFIG_REQUEST: answered once MGT and IO0 run; with Request Retry Status while a Function Level Reset's warm reset runs
(R245, R247; spec/16, Table 6). -/
def configRequest (write : Bool) (off : Nat) (v : BitVec 32) (s : State) : State :=
  if hostReaches s then
    if s.power.warm && decide (s.power.cause.toNat = causeFlr) then answerHost .retry s
    else if write then answerHost .done (modHost s (fun h => { h with config := h.config.filter (fun x => decide (x.1 ≠ off)) ++ [(off, v)] }))
    else answerHost (.data (BitVec.ofNat 64 (configValue s off).toNat)) s
  else s

/-! ### The commands -/

/-- CR_CTL_WRITE (R251). -/
def execCrCtlWrite (b : BarAcc) (v : Word) (s : State) : Host.Outcome State Fault Refusal := .next (barWrite b (crCtlWrite b v) s)

/-- CR_TAIL_WRITE (R251). -/
def execCrTailWrite (b : BarAcc) (v : Word) (readOk : Bool) (s : State) : Host.Outcome State Fault Refusal :=
  .next (barWrite b (crTailWrite b v readOk) s)

/-- REPLY_WRITE (R253). -/
def execReplyWrite (ok : Bool) (s : State) : Host.Outcome State Fault Refusal := .next (replyWrite ok s)

/-- JOB_EVENT_WRITE (R254). -/
def execJobEventWrite (ok : Bool) (s : State) : Host.Outcome State Fault Refusal := .next (jobEventWrite ok s)

/-- ALERT_WRITE (R254). -/
def execAlertWrite (ok : Bool) (s : State) : Host.Outcome State Fault Refusal := .next (alertWrite ok s)

/-- JT_INDEX_WRITE (R266). -/
def execJtIndexWrite (b : BarAcc) (v : Word) (s : State) : Host.Outcome State Fault Refusal := .next (barWrite b (jtIndexWrite b v) s)

/-- QUERY of a register (R255). -/
def execQueryRegister (h : PktHdr) (off : Word) (s : State) : Host.Outcome State Fault Refusal :=
  .next (onPacket 0x30 h 0 (queryRegister off.toNat) s)

/-- QUERY of a job entry (R255). -/
def execQueryJobEntry (h : PktHdr) (j : Fin 65536) (s : State) : Host.Outcome State Fault Refusal :=
  .next (onPacket 0x30 h 0 (queryJob j) s)

/-- UNDEFINED_OPCODE_PACKET (R252). -/
def execUndefinedOpcodePacket (h : PktHdr) (opcode : Byte) (s : State) : Host.Outcome State Fault Refusal :=
  .next (undefinedOpcode h opcode s)

/-- RC_REGISTER_READ (R66). -/
def execRcRegisterRead (b : BarAcc) (off : Nat) (s : State) : Host.Outcome State Fault Refusal := .next (barRead b off s)

/-- HWIN_WRITE (R249). -/
def execHwinWrite (b : BarAcc) (i : Fin 16) (v : Word) (s : State) : Host.Outcome State Fault Refusal :=
  .next (barWrite b (hwinWrite b i v) s)

/-- HOST_MEMORY_ACCESS (R250). -/
def execHostMemoryAccess (x : HostAcc) (s : State) : Host.Outcome State Fault Refusal := .next (hostAccess x s)

/-- PCIE_LINK_TRAIN (R246). -/
def execPcieLinkTrain (flitMode : Bool) (s : State) : Host.Outcome State Fault Refusal := .next (pcieTrain flitMode s)

/-- PCIE_LINK_DOWN (R246). -/
def execPcieLinkDown (s : State) : Host.Outcome State Fault Refusal := .next (pcieDown s)

/-- CONFIG_REQUEST (R245). -/
def execConfigRequest (write : Bool) (off : Nat) (v : BitVec 32) (s : State) : Host.Outcome State Fault Refusal :=
  .next (configRequest write off v s)

end Sys2Proof.Machine
end

