-- ==== Sys2Proof/Machine/Digest.lean ====
section
/-! DEFINITION. The state digest (R286, R287; spec/13, Tables 7 and 8). -/

namespace Sys2Proof.Machine

/-- A register as it enters a digest: 8 bytes, little-endian. -/
def digReg (s : State) (c : CoreId) (r : CoreReg) : List Byte := leBytes 8 (coreRegRead s c r)

/-- Zeros up to a whole number of flits (R139). -/
def flitPad (bs : List Byte) : List Byte := bs ++ List.replicate ((2048 - bs.length % 2048) % 2048) 0

/-- Item 0: the sequencer, the scalar registers and the loop counters. -/
def digSeq (s : State) (c : CoreId) : List Byte :=
  digReg s c .seqJtick ++ digReg s c .seqPc ++ digReg s c .seqStat ++ (List.finRange 64).flatMap (fun n => digReg s c (.scalar n)) ++
    (List.finRange 8).flatMap (fun n => digReg s c (.lc n))

/-- A tile's bytes: its rows, then its scale plane. -/
def tileBytesOf (t : Tile) : List Byte :=
  let mx := match cfgFormat t.cfg with | some f => f.mx | none => false
  (List.range (cfgBytes t.cfg)).map (fun i => memGet t.data i) ++
    (if mx then (List.range 2048).map (fun i => tileScale t i) else [])

/-- Item 1: the tile registers. -/
def digTiles (s : State) (c : CoreId) : List Byte :=
  (List.finRange 32).flatMap (fun n =>
    let t := tileOf (coreAt s c) n
    digReg s c (.tcfg n) ++ digReg s c (.tsrr n) ++ leBytes 8 (bitNat t.empty) ++ (if t.empty then [] else tileBytesOf t))

/-- `n` elements of an accumulator bank, 4 bytes each. -/
def bankBytes (b : AccBank) (n : Nat) : List Byte :=
  (List.range n).flatMap (fun i => leBytes 4 (storeGet b.elems i).bits.toNat)

/-- Item 2: the arrays' status and accumulators. -/
def digBanks (s : State) (c : CoreId) : List Byte :=
  (List.finRange 4).flatMap (fun m =>
    let a := arrOf (coreAt s c) m
    digReg s c (.arrStat m) ++ bankBytes a.acc0 16384 ++ bankBytes a.acc1 16384)

/-- The element bytes of `rows` rows of stored weights, from tile row `r0` on. -/
def weightRows (w : Weights) (f : Format) (r0 rows cols : Nat) : List Byte :=
  (List.range rows).flatMap (fun r =>
    packRow f.elem ((List.range cols).map (fun j => (cellGet 0#16 w.cells (cellKey (slotsPerCell f) w.axisCols (r0 + r) j)).toNat)))

/-- Stored weights as the bytes of their load train (R139, R140): each stacked register's flits, its scale flit, then the metadata.
More than 128 rows came from two registers. -/
def trainBytes (w : Weights) : List Byte :=
  match w.kind, formatOfCode w.fmt.toNat with
  | .empty, _ => []
  | _, none => []
  | _, some f =>
    let stored := w.k / sparseFactor w.kind
    let rows := if w.axisCols then w.n else stored
    let cols := if w.axisCols then stored else w.n
    let regs := if 128 < rows then [(0, rows / 2), (rows / 2, rows / 2)] else [(0, rows)]
    let body := regs.flatMap (fun x =>
      flitPad (weightRows w f x.1 x.2 cols) ++
        (if f.mx then
          let off := if w.scaleAxis then x.1 / 32 * 512 else x.1 * 16
          (List.range 2048).map (fun i => cellGet 0x7F#8 w.scales (off + i))
        else []))
    let groups := stored / 2
    let mb (g j : Nat) : Byte := cellGet 0#8 w.mbytes (g * 256 + j)
    let metas : List Byte :=
      if w.kind = .dense then []
      else if w.axisCols then (List.range w.n).flatMap (fun j => (List.range groups).map (fun g => mb g j))
      else (List.range groups).flatMap (fun g => (List.range w.n).map (fun j => mb g j))
    body ++ flitPad metas

/-- Item 3: the active and the shadow weights. -/
def digWeights (s : State) (c : CoreId) : List Byte :=
  (List.finRange 4).flatMap (fun m =>
    let a := arrOf (coreAt s c) m
    trainBytes a.active ++ trainBytes a.shadow)

/-- A row of a softmax context. -/
def sxBytes (x : SxRow) : List Byte :=
  leBytes 4 x.m.toNat ++ leBytes 4 x.l.toNat ++ leBytes 4 x.alpha.toNat ++ leBytes 4 x.k ++ leBytes 4 (bitNat x.nan)

/-- Item 4: the vector registers, the softmax contexts and their flags. -/
def digVec (s : State) (c : CoreId) : List Byte :=
  let v := (coreAt s c).vec
  (List.finRange 8).flatMap (fun n => (List.range 8192).flatMap (fun i => leBytes 4 (cellGet 0#32 (v.regs.get n) i).toNat)) ++
    (List.range 64).flatMap (fun r => sxBytes (storeGet v.sx0 r)) ++ (List.range 64).flatMap (fun r => sxBytes (storeGet v.sx1 r)) ++
    [CoreReg.sxflag false false, .sxflag false true, .sxflag true false, .sxflag true true].flatMap (fun r => digReg s c r)

/-- Item 5: the matrix-vector unit. -/
def digMvu (s : State) (c : CoreId) : List Byte :=
  let u := (coreAt s c).mvu
  let e := ((formatOfCode u.bufFmt.toNat).getD ⟨.int8, false⟩).elem
  digReg s c .mvuStat ++ bankBytes u.bank0 4096 ++ bankBytes u.bank1 4096 ++
    (List.range 8).flatMap (fun v => packRow e ((List.range 512).map (fun i => (cellGet 0#32 u.buf (v * 512 + i)).toNat)))

/-- Item 6: the wide tiles; nothing where the grade lacks them. -/
def digWide (s : State) (c : CoreId) : List Byte :=
  if hasWide s then
    [false, true].flatMap (fun w =>
      digReg s c (.wabCtl w) ++ digReg s c (.wabStat w) ++
        (List.range 16384).flatMap (fun i => leBytes 16 (cellGet 0#128 (wideOf (coreAt s c) w).elems i).toNat))
  else []

/-- Item 7: the Scaler and its statistics area. -/
def digScaler (s : State) (c : CoreId) : List Byte :=
  let k := coreAt s c
  digReg s c .sclCtl ++ digReg s c .sclStat ++ memRead k.store (k.reg.sclBase.toNat * 256) ((k.reg.sclCount.toNat + 1) * 256)

/-- Item `i` of a core (spec/13, Table 7). -/
def digItem (s : State) (c : CoreId) (i : Nat) : List Byte :=
  match i with
  | 0 => digSeq s c
  | 1 => digTiles s c
  | 2 => digBanks s c
  | 3 => digWeights s c
  | 4 => digVec s c
  | 5 => digMvu s c
  | 6 => digWide s c
  | _ => digScaler s c

/-- A header and what follows it (R287). -/
def digPart (item core : Nat) (bs : List Byte) : List Byte :=
  BitVec.ofNat 8 item :: BitVec.ofNat 8 core :: leBytes 6 bs.length ++ bs

/-- The bytes of a range: of DRAM or of a local store. -/
def digRangeBytes (s : State) (r : Nat × Nat) : List Byte :=
  match localRange s r.1 r.2 with
  | some (c, o) => memRead (coreAt s c).store o r.2
  | none => dramRead s r.1 r.2

/-- The input of a digest (R287). -/
def digestInput (s : State) (d : DigestRun) : List Byte :=
  (bitList 64 d.cores.toNat).flatMap (fun l =>
    match physicalOf s l with
    | some c => (bitList 8 d.items.toNat).flatMap (fun i => digPart i l (digItem s c i))
    | none => []) ++
    d.ranges.flatMap (fun r => digPart 8 0xFF (digRangeBytes s r))

/-- Does a core belong to a job that is RUNNING or FENCING (R286). -/
def digBusy (s : State) (c : CoreId) : Bool :=
  (jobsWhere s (fun b => b.state == .running || b.state == .fencing)).any (fun j => (jobCores s (jobAt s j)).contains c)

/-- The digest that the registers name. -/
def digestNamed (s : State) : DigestRun :=
  let z := s.digest
  { items := z.items, cores := z.cores
    ranges := if z.items.getLsbD 8 then
        ((List.finRange 4).map (fun i => ((z.rbase.get i).toNat, (z.rlen.get i).toNat))).filter (fun r => decide (r.2 ≠ 0))
      else [] }

/-- Does a range touch the local store of a core that satisfies `p`. -/
def touchesStore (s : State) (p : CoreId → Bool) (r : Nat × Nat) : Bool :=
  (List.range 68).any (fun l =>
    match physicalOf s l with
    | some c => p c && rangesMeet r.1 r.2 (0xC00000000000 + l * 0x1000000) 0x800000
    | none => false)

/-- Why a digest is refused (R286). A bit beyond the active cores names no core. -/
def digestRefusal (s : State) (d : DigestRun) : Option Status :=
  let cs := (bitList 64 d.cores.toNat).map (physicalOf s)
  if cs.any (fun c => match c with | some c => digBusy s c | none => false) then some .resourceConflict
  else if d.ranges.any (touchesStore s (digBusy s)) then some .resourceConflict
  else if s.digest.active.isSome then some .resourceConflict
  else if cs.any (fun c => c.isNone) || d.ranges.any (fun r => !isDram s r.1 r.2 && (localRange s r.1 r.2).isNone) then some .badParam
  else none

/-- A write of DIG_CTL: ITEMS is written, and START starts a digest or is refused (R286). -/
def digCtlWrite (b : BarAcc) (v : Word) (s : State) : State :=
  let s1 := { s with digest := { s.digest with items := BitVec.ofNat 9 (merged b s.digest.items.toNat v) } }
  if bitOf (strobes b v) 32 then
    let d := digestNamed s1
    match digestRefusal s1 d with
    | some st => { s1 with digest := { s1.digest with state := 3, status := st } }
    | none => { s1 with digest := { s1.digest with state := 1, status := .ok, active := some d } }
  else s1

/-- DIGEST_DONE: no named core has a transfer outstanding, and the digest appears (R286). -/
def digestDone (s : State) : State :=
  match s.digest.active with
  | none => s
  | some d =>
    let quiet (c : CoreId) : Bool := (List.finRange 16).all (fun q => (qOf (coreAt s c) q).xfers.isEmpty)
    if ((bitList 64 d.cores.toNat).filterMap (physicalOf s)).all quiet then
      let bs := sha3 (digestInput s d)
      { s with digest := { s.digest with
          state := 2, active := none, out := Vector.ofFn (fun i => BitVec.ofNat 64 (wordOfBytes bs i.val)) } }
    else s

/-- DIGEST_START (R286). -/
def execDigestStart (b : BarAcc) (v : Word) (s : State) : Host.Outcome State Fault Refusal := .next (barWrite b (digCtlWrite b v) s)

/-- DIGEST_DONE (R286). -/
def execDigestDone (s : State) : Host.Outcome State Fault Refusal := .next (digestDone s)

end Sys2Proof.Machine
end

