-- ==== Sys2Proof/Machine/Identity.lean ====
section
/-! DEFINITION. Firmware trust, measurements, the life cycle, and SPDM with IDE keys (R358 to R369). -/

namespace Sys2Proof.Machine

/-- The state with the identity block changed. -/
def modIdent (s : State) (f : Ident → Ident) : State := { s with ident := f s.ident }

/-! ### The firmware image (R358 to R361; spec/17, Table 1) -/

/-- Bytes `lo` to `lo + n - 1` of a byte memory that holds an image or a token. -/
def imgBytes (m : ByteMem) (lo n : Nat) : List Byte := memRead m lo n

/-- Are bytes `lo` to `lo + n - 1` all zero. -/
def imgZero (m : ByteMem) (lo n : Nat) : Bool := (imgBytes m lo n).all (fun b => b == 0)

/-- Does a public key belong to vendor key slot `slot`: the slot is in use and holds the digest of the key (R359). -/
def keyMatches (slot : Nat) (key : List Byte) : Bool :=
  if h : slot < 4 then
    let d := Config.keyDigest ⟨slot, h⟩
    !(d.all (fun b => b == 0)) && sha3 key == d
  else false

/-- Bytes of the staging window (R359). -/
def stagingBytes : Nat := 393216

/-- The check of R359 that an image fails, 0 where it fails none. An image longer than the window fails the first. -/
def imageReason (d : Ident) : Nat :=
  let m := d.staging
  let n := d.bootLen.toNat
  let debug := (memGet m 5).getLsbD 0
  if n < 8256 ∨ n ≠ 8192 + memNat m 12 4 ∨ stagingBytes < n ∨ 2 ≤ (memGet m 5).toNat ∨ imgZero m 6 2 = false ∨
      imgZero m 7235 957 = false then 1
  else if keyMatches (memGet m 4).toNat (imgBytes m 16 2592) = false then 2
  else if Config.mldsaVerify (imgBytes m 16 2592) (imgBytes m 0 2608 ++ imgBytes m 8192 (n - 8192)) (imgBytes m 2608 4627) = false then 3
  else if memNat m 8 4 < d.svnFused.toNat then 4
  else if debug = true ∧ hasKey d.lcState = true then 5
  else if debug = false ∧ d.lcState = 4 then 6
  else 0

/-- The fused fields that MEAS2 covers, in the order of spec/17, Table 2; how the fuse map lays them out is not given. -/
def fuseFields (s : State) : List Byte :=
  [s.fuses.part] ++ s.fuses.capCores.toList ++ (List.finRange 4).flatMap Config.keyDigest ++ leBytes 4 s.ident.svnFused.toNat ++
    [BitVec.ofNat 8 s.ident.lcState.toNat, BitVec.ofNat 8 s.ident.returns.toNat]

/-- The measurements of an accepted image (R361; spec/17, Table 2). -/
def measurements (s : State) : Vector (List Byte) 4 :=
  let m := s.ident.staging
  Vector.ofFn (fun i => sha3 (match i with
    | 0 => Config.romBytes
    | 1 => imgBytes m 0 s.ident.bootLen.toNat
    | 2 => Config.fuseMap (fuseFields s)
    | 3 => imgBytes m 4 8 ++ [BitVec.ofNat 8 s.ident.lcState.toNat]))

/-- BOOT_IMAGE_CHECK: the boot ROM accepts or rejects the staged image (R359, R361). -/
def bootCheck (s : State) : State :=
  if s.ident.bootState = 1 ∧ s.power.refStop = false then
    let r := imageReason s.ident
    if r = 0 then
      modIdent s (fun d =>
        { d with bootState := 2, bootStatus := 0, bootReason := 0, svnImage := BitVec.ofNat 32 (memNat d.staging 8 4)
                 debugFw := (memGet d.staging 5).getLsbD 0, meas := measurements s })
    else
      modIdent s (fun d =>
        { d with bootState := 3, bootStatus := BitVec.ofNat 16 (statusCode .signatureInvalid), bootReason := BitVec.ofNat 8 r })
  else s

/-- A write of BOOT_CTL with the bits `x`: GO starts the check of the staged image, in step 7 of a cold reset (R359). -/
def bootCtlWrite (x : Nat) (s : State) : State :=
  if bitOf x 0 && !s.power.ready && !s.power.warm && (s.ident.bootState == 0 || s.ident.bootState == 3) then
    modIdent s (fun d => { d with bootState := 1, bootStatus := 0, bootReason := 0, bootLen := BitVec.ofNat 19 (fieldOf x 8 19) })
  else s

/-- A write of bytes to the staging window: ignored while an image is checked or runs (R359). -/
def stagingWrite (o : Nat) (bs : List Byte) (s : State) : State :=
  if s.ident.bootState = 1 ∨ s.ident.bootState = 2 then s else modIdent s (fun d => { d with staging := memWrite d.staging o bs })

/-! ### SEC_CTL (R360, R366) -/

/-- A write of 0b1 to SEC_CTL.SVN_ADV (R360). -/
def svnAdvance (s : State) : State :=
  if s.ident.lcState = 2 then
    modIdent s (fun d => { d with svnFused := if d.svnFused.toNat < d.svnImage.toNat then d.svnImage else d.svnFused })
  else s

/-- A write of 0b1 to SEC_CTL.IDE_ONLY (R366). -/
def ideOnlySet (s : State) : State := modIdent s (fun d => { d with ideOnly := true })

/-- A write of SEC_CTL with the bits `x`. -/
def secCtlWrite (x : Nat) (s : State) : State :=
  let s1 := if bitOf x 1 then svnAdvance s else s
  if bitOf x 0 then ideOnlySet s1 else s1

/-! ### The life cycle (R367 to R369) -/

/-- Is a transition listed, and does RETURNS allow it (spec/17, Table 5). -/
def lcListed (d : Ident) (dst : BitVec 3) : Bool :=
  match d.lcState.toNat, dst.toNat with
  | 0, 1 | 1, 2 | 2, 3 => true
  | 3, 2 => decide (d.returns ≠ 3)
  | 0, 4 | 1, 4 | 2, 4 | 3, 4 => true
  | _, _ => false

/-- Does a transition need a token (spec/17, Table 5). -/
def lcToken (d : Ident) (dst : BitVec 3) : Bool :=
  match d.lcState.toNat, dst.toNat with
  | 0, 1 | 2, 3 | 3, 2 => true
  | _, _ => false

/-- Does the token name this device, this transition and this nonce (R368; spec/17, Table 6). -/
def tokenNames (d : Ident) (dst : BitVec 3) : Bool :=
  decide (memNat d.token 0 8 = d.serial.toNat) && decide ((memGet d.token 8).toNat = d.lcState.toNat) &&
    decide ((memGet d.token 9).toNat = dst.toNat) && decide (memNat d.token 16 8 = d.nonce0.toNat) &&
    decide (memNat d.token 24 8 = d.nonce1.toNat)

/-- Do the token's key and signature hold (R368). -/
def tokenSigned (d : Ident) : Bool :=
  let key := imgBytes d.token 32 2592
  keyMatches (memGet d.token 10).toNat key && Config.mldsaVerify key (imgBytes d.token 0 32) (imgBytes d.token 2624 4627)

/-- A fresh nonce (R368). -/
def freshNonce (s : State) : State :=
  { modIdent s (fun d => { d with nonce0 := Config.nonce s.free, nonce1 := Config.nonce (s.free + 1) }) with free := s.free + 2 }

/-- A refused request leaves its status. -/
def lcRefuse (st : Status) (s : State) : State := modIdent s (fun d => { d with lcStatus := BitVec.ofNat 16 (statusCode st) })

/-- An accepted request: the transition is blown, and a cold reset completes it (R362, R367, R369). -/
def lcAccept (dst : BitVec 3) (s : State) : State :=
  let s1 := { modIdent s (fun d =>
    { d with
      blown := some dst
      uds := if d.lcState = 0 ∧ dst = 1 then Config.seed s.free else d.uds
      serial := if d.lcState = 0 ∧ dst = 1 then Config.serial s.free else d.serial }) with free := s.free + 1 }
  coldReset causeLife s1

/-- A life-cycle request (R368). -/
def lcRequest (dst : BitVec 3) (s : State) : State :=
  let d := s.ident
  if s.power.ready = false then lcRefuse .badParam s
  else if lcListed d dst = false then lcRefuse .lifecycleDenied s
  else if lcToken d dst then
    (if tokenNames d dst = false then lcRefuse .lifecycleDenied (freshNonce s)
      else if tokenSigned d = false then lcRefuse .signatureInvalid (freshNonce s)
      else lcAccept dst (freshNonce s))
  else lcAccept dst s

/-- A write of LC_REQ with the bits `x` (R368). -/
def lcReqWrite (x : Nat) (s : State) : State :=
  if bitOf x 3 && !s.ident.lcBusy then lcRequest (BitVec.ofNat 3 x) s else s

/-! ### SPDM (R363 to R365) -/

/-- The state with the SPDM responder changed. -/
def modSpdm (s : State) (f : Spdm → Spdm) : State := { s with spdm := f s.spdm }

/-- A request that the responder answers once MGT and IO0 run and the link is up. -/
def spdmServe (f : State → State) (s : State) : State := if hostReaches s then f s else s

/-- An answer of the responder. -/
def spdmSay (x : SpdmRsp) (s : State) : State := modSpdm s (fun z => { z with out := x })

/-- GET_VERSION: SPDM 1.3; the connection starts afresh. -/
def getVersion (s : State) : State :=
  modSpdm s (fun z => { z with versioned := true, capable := false, negotiated := false, out := .version 0x13 })

/-- GET_CAPABILITIES (spec/17, Table 3; R364): measurements are signed while the identity key exists. -/
def getCapabilities (s : State) : State :=
  if s.spdm.versioned then
    modSpdm s (fun z => { z with capable := true, out := .capabilities true true true true true true s.ident.idKey })
  else spdmSay .unexpected s

/-- NEGOTIATE_ALGORITHMS (spec/17, Table 3). -/
def negotiate (s : State) : State :=
  if s.spdm.capable then modSpdm s (fun z => { z with negotiated := true, out := .algorithms }) else spdmSay .unexpected s

/-- The attestation report (spec/17, Table 4). -/
def attestReport (s : State) (nonce : BitVec 256) : List Byte :=
  let d := s.ident
  leBytes 4 1 ++ leBytes 1 d.lcState.toNat ++ leBytes 1 (bitNat d.debugFw + 2 * bitNat d.ideOnly) ++ leBytes 1 d.returns.toNat ++
    leBytes 1 0 ++ leBytes 8 d.serial.toNat ++ leBytes 4 d.svnImage.toNat ++ leBytes 4 d.svnFused.toNat ++
    leBytes 4 (capGrade s) ++ List.replicate 60 0 ++ leBytes 32 nonce.toNat

/-- A measurement register's 64 bytes. -/
def measBytes (d : Ident) (m : Fin 4) : List Byte := ((d.meas.get m) ++ List.replicate 64 0).take 64

/-- The blocks that an index names: 1 to 4 the digests, 5 the report, 0xFF all, 0 their number (R364). -/
def measBlocks (s : State) (index : Byte) (nonce : BitVec 256) : Option (List Byte) :=
  let m (i : Fin 4) : List Byte := measBytes s.ident i
  match index.toNat with
  | 0 => some [5]
  | 1 => some (m 0)
  | 2 => some (m 1)
  | 3 => some (m 2)
  | 4 => some (m 3)
  | 5 => some (attestReport s nonce)
  | 255 => some (m 0 ++ m 1 ++ m 2 ++ m 3 ++ attestReport s nonce)
  | _ => none

/-- The value from which the identity key derives (R362). -/
def idSeed (s : State) : List Byte := (sha3 (leBytes 32 s.ident.uds.toNat ++ [0x01#8])).take 32

/-- GET_MEASUREMENTS (R364). -/
def spdmMeasure (index : Byte) (signed : Bool) (nonce : BitVec 256) (s : State) : State :=
  if !s.spdm.negotiated then spdmSay .unexpected s
  else if signed && !s.ident.idKey then spdmSay .unsupported s
  else
    match measBlocks s index nonce with
    | none => spdmSay .unsupported s
    | some bs =>
      if signed then
        spdmSay (.measurements bs (Config.mldsaSign (idSeed s) (bs ++ leBytes 32 nonce.toNat) s.free)) { s with free := s.free + 1 }
      else spdmSay (.measurements bs []) s

/-- KEY_EXCHANGE: one session at a time (R363, R364). -/
def spdmExchange (session : BitVec 16) (exchange : List Byte) (s : State) : State :=
  if !s.spdm.negotiated then spdmSay .unexpected s
  else if !s.ident.idKey then spdmSay .unsupported s
  else if s.spdm.session.isSome then spdmSay .busy s
  else
    let own := Config.dheShare s.free
    modSpdm { s with free := s.free + 1 } (fun z =>
      { z with session := some session, established := false, exchange := exchange
               out := .keyExchange own (Config.mldsaSign (idSeed s) (exchange ++ own) s.free) })

/-- FINISH: the session is established where the requester's verify data holds; else it ends (R363, R364). -/
def spdmFinishOf (verify : List Byte) (s : State) : State :=
  if s.spdm.session.isNone || s.spdm.established || !s.ident.idKey then spdmSay .unexpected s
  else if Config.finishOk s.spdm.exchange verify then modSpdm s (fun z => { z with established := true, out := .finish })
  else modSpdm s (fun z => { z with session := none, out := .decryptError })

/-- HEARTBEAT of an established session. -/
def spdmBeat (s : State) : State := if s.spdm.established then spdmSay .heartbeat s else spdmSay .unexpected s

/-- END_SESSION: keyed streams run on (R365). -/
def spdmEnd (s : State) : State :=
  if s.spdm.established then modSpdm s (fun z => { z with session := none, established := false, out := .ended }) else spdmSay .unexpected s

/-- IDE_KM: a stream is keyed inside the session (R365). -/
def ideKey (stream : Fin 4) (key : BitVec 256) (s : State) : State :=
  if s.spdm.established then
    modSpdm s (fun z => { z with ide := z.ide.set stream.val (some key) stream.isLt, out := .keyed stream })
  else spdmSay .unexpected s

/-! ### The commands -/

/-- BOOT_IMAGE_CHECK (R359). -/
def execBootImageCheck (s : State) : Host.Outcome State Fault Refusal := .next (bootCheck s)

/-- SVN_ADVANCE (R360). -/
def execSvnAdvance (b : BarAcc) (s : State) : Host.Outcome State Fault Refusal := .next (barWrite b svnAdvance s)

/-- IDE_ONLY_SET (R366). -/
def execIdeOnlySet (b : BarAcc) (s : State) : Host.Outcome State Fault Refusal := .next (barWrite b ideOnlySet s)

/-- LIFECYCLE_REQUEST (R368). -/
def execLifecycleRequest (b : BarAcc) (v : Word) (s : State) : Host.Outcome State Fault Refusal :=
  .next (barWrite b (lcReqWrite (strobes b v)) s)

/-- GET_VERSION (R363). -/
def execGetVersion (s : State) : Host.Outcome State Fault Refusal := .next (spdmServe getVersion s)

/-- GET_CAPABILITIES (R363). -/
def execGetCapabilities (s : State) : Host.Outcome State Fault Refusal := .next (spdmServe getCapabilities s)

/-- NEGOTIATE_ALGORITHMS (R363). -/
def execNegotiateAlgorithms (s : State) : Host.Outcome State Fault Refusal := .next (spdmServe negotiate s)

/-- GET_MEASUREMENTS (R364). -/
def execGetMeasurements (index : Byte) (signed : Bool) (nonce : BitVec 256) (s : State) : Host.Outcome State Fault Refusal :=
  .next (spdmServe (spdmMeasure index signed nonce) s)

/-- KEY_EXCHANGE (R363). -/
def execKeyExchange (session : BitVec 16) (exchange : List Byte) (s : State) : Host.Outcome State Fault Refusal :=
  .next (spdmServe (spdmExchange session exchange) s)

/-- FINISH (R363). -/
def execSpdmFinish (verify : List Byte) (s : State) : Host.Outcome State Fault Refusal := .next (spdmServe (spdmFinishOf verify) s)

/-- HEARTBEAT (R363). -/
def execSpdmHeartbeat (s : State) : Host.Outcome State Fault Refusal := .next (spdmServe spdmBeat s)

/-- END_SESSION (R365). -/
def execEndSession (s : State) : Host.Outcome State Fault Refusal := .next (spdmServe spdmEnd s)

/-- VENDOR_DEFINED_REQUEST for IDE_KM (R365). -/
def execIdeKmRequest (stream : Fin 4) (key : BitVec 256) (s : State) : Host.Outcome State Fault Refusal :=
  .next (spdmServe (ideKey stream key) s)

end Sys2Proof.Machine
end

