-- ==== Sys2Proof/Machine/Board.lean ====
section
/-! DEFINITION. The board's side: AUX_SYNC, the JTAG port and the Waton target's common commands (R298, R374, R375, R383). -/

namespace Sys2Proof.Machine

/-! ### AUX_SYNC (R374, R375) -/

/-- A write of AUX_CTL (R375). -/
def auxCtlWrite (b : BarAcc) (v : Word) (s : State) : State :=
  let p := s.power
  let x := merged b (packFields [(0, bitNat p.auxBar), (1, bitNat p.auxDbg), (2, p.auxBarrier.toNat)]) v
  if (bitOf x 0 && bitOf x 1) || s.fabric.barm.toList.any (fun m => decide (m.mode ≠ 0)) then
    modPower s (fun p => { p with auxErr := true, auxStatus := BitVec.ofNat 16 (statusCode .resourceConflict) })
  else
    modPower s (fun p =>
      { p with auxBar := bitOf x 0, auxDbg := bitOf x 1, auxBarrier := BitVec.ofNat 3 (fieldOf x 2 3), auxErr := false, auxStatus := 0 })

/-- AUX_SYNC_EDGE: a rising edge lets the gated barrier arrive once its condition holds (R374). -/
def auxEdge (s : State) : State :=
  if s.power.aon && !s.power.resetLow then
    let s1 := modPower s (fun p => { p with auxLevel := true })
    let b : Fin 8 := Fin.ofNat 8 s.power.auxBarrier.toNat
    if s.power.auxBar && barCondition s1 b && mgtRuns s1 then barCheck b (modBar s1 b (fun x => { x with selfIn := true })) else s1
  else s

/-! ### JTAG (R383) -/

/-- The state with the JTAG port changed, while AON has power. -/
def modJtag (s : State) (f : Jtag → Jtag) : State := if s.power.aon then { s with jtag := f s.jtag } else s

/-- The identity word of IDCODE: version, part number, manufacturer and the fixed bit 0 of IEEE 1149.1. -/
def idcodeWord (s : State) : BitVec 32 :=
  BitVec.ofNat 32 (packFields [(0, 1), (1, Config.jedecId.toNat), (12, 0x8864), (28, s.fuses.stepping.toNat)])

/-- An instruction of the TAP; one that drives or isolates the lands is in effect only while RESET_N is low. -/
def tapLoad (i : TapInstr) (s : State) : State :=
  let drives := match i with | .extest | .clamp | .highz => true | _ => false
  modJtag s (fun j => { j with ir := i, effective := drives && s.power.resetLow })

/-- IDCODE. -/
def tapIdcode (s : State) : State := modJtag (tapLoad .idcode s) (fun j => { j with out := idcodeWord s })

/-- SAMPLE/PRELOAD: the lands' levels are captured, and the boundary register is loaded. -/
def tapSample (pins shift : BitVec 17) (s : State) : State :=
  modJtag (tapLoad .samplePreload s) (fun j => { j with captured := pins, boundary := shift })

/-- EXTEST: while RESET_N is low it captures the lands and drives them; else the TAP acts as BYPASS. -/
def tapExtest (pins shift : BitVec 17) (s : State) : State :=
  modJtag (tapLoad .extest s) (fun j => if j.effective then { j with captured := pins, boundary := shift } else j)

/-! ### The Waton target (R298) -/

/-- The state with the Waton target changed. -/
def modWtn (s : State) (f : Waton → Waton) : State := { s with wtn := f s.wtn }

/-- What the target answers. -/
def wtnSay (x : WtnOut) (s : State) : State := modWtn s (fun w => { w with out := x })

/-- A transfer to the target's dynamic address: it answers only once it has one. -/
def wtnServe (f : State → State) (s : State) : State := if s.wtn.valid then f s else wtnSay .nack s

/-- The provisioned ID: 6 bytes, the most significant first. -/
def provisionedId (s : State) : List Byte :=
  (leBytes 6 (packFields [(20, s.wtn.inst.toNat), (24, s.part.toNat), (33, Config.mipiId.toNat)])).reverse

/-- ENTDAA: a target without an address that has joined the segment takes one. -/
def entdaa (addr : BitVec 7) (s : State) : State :=
  if mgtRuns s && !s.wtn.valid then
    modWtn s (fun w => { w with addr := addr, valid := true, hotJoin := false, out := .bytes (provisionedId s ++ [0x06, 0x00]) })
  else wtnSay .nack s

/-- RSTDAA: the address is given up. -/
def rstdaa (s : State) : State := modWtn s (fun w => { w with addr := 0, valid := false, out := .ack })

/-- ENEC and DISEC: events are enabled or disabled. -/
def wtnEvents (f : Byte → Byte) (s : State) : State :=
  if mgtRuns s then modWtn s (fun w => { w with events := f w.events, out := .ack }) else wtnSay .nack s

/-! ### The commands -/

/-- AUX_CTL_WRITE (R375). -/
def execAuxCtlWrite (b : BarAcc) (v : Word) (s : State) : Host.Outcome State Fault Refusal := .next (barWrite b (auxCtlWrite b v) s)

/-- AUX_SYNC_EDGE (R374). -/
def execAuxSyncEdge (s : State) : Host.Outcome State Fault Refusal := .next (auxEdge s)

/-- BYPASS (R383). -/
def execJtagBypass (s : State) : Host.Outcome State Fault Refusal := .next (tapLoad .bypass s)

/-- IDCODE (R383). -/
def execJtagIdcode (s : State) : Host.Outcome State Fault Refusal := .next (tapIdcode s)

/-- SAMPLE/PRELOAD (R383). -/
def execSamplePreload (pins shift : BitVec 17) (s : State) : Host.Outcome State Fault Refusal := .next (tapSample pins shift s)

/-- EXTEST (R383). -/
def execExtest (pins shift : BitVec 17) (s : State) : Host.Outcome State Fault Refusal := .next (tapExtest pins shift s)

/-- CLAMP (R383). -/
def execClamp (s : State) : Host.Outcome State Fault Refusal := .next (tapLoad .clamp s)

/-- HIGHZ (R383). -/
def execHighz (s : State) : Host.Outcome State Fault Refusal := .next (tapLoad .highz s)

/-- ENTDAA (R298). -/
def execEntdaa (addr : BitVec 7) (s : State) : Host.Outcome State Fault Refusal := .next (entdaa addr s)

/-- RSTDAA (R298). -/
def execRstdaa (s : State) : Host.Outcome State Fault Refusal := .next (rstdaa s)

/-- ENEC (R298). -/
def execEnec (ev : Byte) (s : State) : Host.Outcome State Fault Refusal := .next (wtnEvents (fun e => e ||| ev) s)

/-- DISEC (R298). -/
def execDisec (ev : Byte) (s : State) : Host.Outcome State Fault Refusal := .next (wtnEvents (fun e => e &&& ~~~ev) s)

/-- GETPID (R298). -/
def execGetpid (s : State) : Host.Outcome State Fault Refusal := .next (wtnServe (wtnSay (.bytes (provisionedId s))) s)

/-- GETBCR (R298). -/
def execGetbcr (s : State) : Host.Outcome State Fault Refusal := .next (wtnServe (wtnSay (.bytes [0x06])) s)

/-- GETDCR (R298). -/
def execGetdcr (s : State) : Host.Outcome State Fault Refusal := .next (wtnServe (wtnSay (.bytes [0x00])) s)

/-- GETSTATUS (R298): the bytes it returns are not given. -/
def execGetstatus (s : State) : Host.Outcome State Fault Refusal :=
  .next (wtnServe (fun u => wtnSay (.bytes (leBytes 2 (Config.wtnStatus u.free).toNat)) { u with free := u.free + 1 }) s)

/-- GETMXDS (R298): the bytes it returns are not given. -/
def execGetmxds (s : State) : Host.Outcome State Fault Refusal :=
  .next (wtnServe (wtnSay (.bytes (leBytes 2 Config.wtnMaxSpeed.toNat))) s)

end Sys2Proof.Machine
end

