-- ==== Sys2Proof/Machine/Registers.lean ====
section
/-! DEFINITION. Writing the registers of the device, through BAR 0 and over the Waton chain (R10, R97, R172, R224, R248, R256, R299). -/

namespace Sys2Proof.Machine

/-! ### Registers without a command of their own -/

/-- A new value of the bytes that a write covers: its place among the register's 8 bytes, and the bytes. -/
def laneBytes (b : BarAcc) (v : Word) : Nat × List Byte :=
  match b.lanes with
  | .all => (0, leBytes 8 v.toNat)
  | .low => (0, leBytes 4 v.toNat)
  | .high => (4, leBytes 4 (fieldOf v.toNat 32 32))

/-- A wheel with 8 entries from place `8 * i` on replaced. -/
def wheelSet (w : Vector Byte 128) (i v : Nat) : Vector Byte 128 :=
  Vector.ofFn (fun e => if e.val / 8 = i then BitVec.ofNat 8 (fieldOf v (8 * (e.val % 8)) 8) else w.get e)

/-- A write of LRX_WINi: another SIZE, a BASE that is not a multiple of the size, or a range outside DRAM is ignored (spec/14, Table 8). -/
def lrxWrite (i : Fin 8) (x : Nat) (s : State) : State :=
  let size := fieldOf x 50 6
  let base := fieldOf x 12 36 * 4096
  if 12 ≤ size ∧ size ≤ 40 ∧ base % 2 ^ size = 0 ∧ isDram s base (2 ^ size) = true then
    let w : LrxWin := { base := BitVec.ofNat 36 (fieldOf x 12 36), en := bitOf x 48, size := BitVec.ofNat 6 size }
    modFabric s (fun f => { f with lrx := f.lrx.set i.val w i.isLt })
  else s

/-- A write of FAB_GRP: the bit of a group that is not CLOSED stands (spec/14, Table 8). -/
def fabGrpWrite (x : Nat) (s : State) : State :=
  let bit (g : Fin 16) : Nat :=
    if (groupAt s g).state = .closed then bitNat (bitOf x g.val) else bitNat (fabricWide s g)
  modFabric s (fun f => { f with grp := BitVec.ofNat 16 (packFields ((List.finRange 16).map (fun g => (g.val, bit g)))) })

/-- A write of one of the digest's range registers (spec/13, Table 8). -/
def digRangeWrite (o x : Nat) (s : State) : State :=
  let i : Fin 4 := Fin.ofNat 4 ((o - 0x5010) / 16)
  if (o - 0x5010) % 16 = 0 then { s with digest := { s.digest with rbase := s.digest.rbase.set i.val (BitVec.ofNat 48 x) i.isLt } }
  else { s with digest := { s.digest with rlen := s.digest.rlen.set i.val (BitVec.ofNat 40 x) i.isLt } }

/-- A write of a register of the CAP and identity block (spec/17, Table 8). -/
def capWrite (b : BarAcc) (o : Nat) (v : Word) (s : State) : State :=
  let x := strobes b v
  if 0x4000 ≤ o ∧ o < 0x5C58 then
    let p := laneBytes b v
    modIdent s (fun d => { d with token := memWrite d.token (o - 0x4000 + p.1) p.2 })
  else
    match o with
    | 0x1000 => bootCtlWrite x s
    | 0x1028 => lcReqWrite x s
    | 0x1040 => secCtlWrite x s
    | _ => s

/-- A write of a register of the MGT block (spec/12 to 15). SNAP_EPOCH is written by commit groups only. -/
def mgtWrite (b : BarAcc) (o : Nat) (v : Word) (s : State) : State :=
  let x := strobes b v
  let m := merged b (mgtRead s o) v
  if 0x1000 ≤ o ∧ o < 0x1080 then hwinWrite b (Fin.ofNat 16 ((o - 0x1000) / 8)) v s
  else if 0x5010 ≤ o ∧ o < 0x5050 then digRangeWrite o m s
  else if 0x80000 ≤ o ∧ o < 0xE0000 then stagingWrite (o - 0x80000 + (laneBytes b v).1) (laneBytes b v).2 s
  else
    match o with
    | 0x000 => crCtlWrite b v s
    | 0x008 => if s.rings.enable then s else modRings s (fun r => { r with base := BitVec.ofNat 64 (m / 64 * 64) })
    | 0x010 => crTailWrite b v true s
    | 0x020 => if s.rings.enable then s else modRings s (fun r => { r with rrBase := BitVec.ofNat 64 (m / 32 * 32) })
    | 0x028 => modRings s (fun r => { r with rrHead := BitVec.ofNat 16 m })
    | 0x038 => modRings s (fun r => { r with dmaErr := r.dmaErr && !bitOf x 0, overflow := r.overflow && !bitOf x 1 })
    | 0x2000 => jtIndexWrite b v s
    | 0x3080 => { s with prepTmo := BitVec.ofNat 32 m }
    | 0x4008 => modSnap s (fun z => { z with period := BitVec.ofNat 16 m, share := BitVec.ofNat 7 (fieldOf m 16 7), en := bitOf m 23 })
    | 0x4010 => modSnap s (fun z => { z with halted := z.halted && (!bitOf x 3 || lostManager s) })
    | 0x5000 => digCtlWrite b v s
    | 0x5008 => { s with digest := { s.digest with cores := BitVec.ofNat 64 m } }
    | 0x7000 => sprCtlWrite b v s
    | 0x7010 => sprReqWrite b v s
    | _ => s

/-- SUPPLY_STAT written without word of the rails' levels: they are free values (R352). -/
def supplyStatWrite (x : Nat) (s : State) : State :=
  supplyClear x (Config.railLevels s.free) { s with free := s.free + 1 }

/-- A write of a register of the AON block (spec/16, Table 9; spec/18, Tables 4 to 6). -/
def aonWrite (b : BarAcc) (o : Nat) (v : Word) (s : State) : State :=
  let x := strobes b v
  let m := merged b (aonRead s o) v
  match o with
  | 0x008 => pwrResetWrite x s
  | 0x010 => sleepWrite (fieldOf m 0 26) s
  | 0x020 => modPower s (fun p => { p with budget := BitVec.ofNat 12 m })
  | 0x030 => if bitOf x 2 then refRecover s else s
  | 0x040 => modPower s (fun p => { p with warnAt := BitVec.ofNat 8 m })
  | 0x048 => if bitOf x 14 then thermTripClear s else s
  | 0x050 => supplyStatWrite x s
  | 0x0C0 => clkReqWrite b v s
  | 0x0D0 => modPower s (fun p => { p with avsErr := p.avsErr && !bitOf x 25 })
  | 0x0E0 => auxCtlWrite b v s
  | _ => s

/-- A write of a register of block MEMk (spec/11, Tables 4 to 6). -/
def memRegWrite (b : BarAcc) (k : Fin 8) (o : Nat) (v : Word) (s : State) : State :=
  if 0x180 ≤ o ∧ o < 0x200 then
    modMem s k (fun z => { z with wheelN := wheelSet z.wheelN ((o - 0x180) / 8) (merged b (memRegRead s k o) v) })
  else
    match o with
    | 0x000 => if bitOf (strobes b v) 1 then memTripClear k s else s
    | 0x200 => wheelApply b k v s
    | _ => s

/-- A write of a register of block MEMC (spec/01, Table 5; spec/11, Table 7). -/
def memcWrite (b : BarAcc) (o : Nat) (v : Word) (s : State) : State :=
  let m := merged b (memcRead s o) v
  match o with
  | 0x000 => decodeWrite b v s
  | 0x008 => { s with force2x := bitOf m 0, scrub := bitOf m 1 }
  | 0x010 => { s with retain0 := (BitVec.ofNat 10 m, BitVec.ofNat 10 (fieldOf m 16 10)) }
  | 0x018 => { s with retain1 := (BitVec.ofNat 10 m, BitVec.ofNat 10 (fieldOf m 16 10)) }
  | _ => s

/-- A write of a fabric register (spec/14, Table 8). -/
def fabWrite (b : BarAcc) (o : Nat) (v : Word) (s : State) : State :=
  let m := merged b (fabRead s o) v
  if 0x040 ≤ o ∧ o < 0x080 then barmWrite b (Fin.ofNat 8 ((o - 0x040) / 8)) v s
  else if 0x100 ≤ o ∧ o < 0x140 then lrxWrite (Fin.ofNat 8 ((o - 0x100) / 8)) m s
  else
    match o with
    | 0x010 => modFabric s (fun f => { f with rtIndex := BitVec.ofNat 14 m })
    | 0x020 =>
      modFabric s (fun f =>
        { f with hbPeriod := BitVec.ofNat 16 m, hbMiss := BitVec.ofNat 4 (fieldOf m 16 4), ackTmo := BitVec.ofNat 16 (fieldOf m 20 16) })
    | 0x028 => modFabric s (fun f => { f with lead := BitVec.ofNat 16 m })
    | 0x080 => fabGrpWrite m s
    | _ => s

/-- A write of a register of IO0 or IO1; IO1 takes it only while it runs. -/
def ioWrite (b : BarAcc) (io1 : Bool) (o : Nat) (v : Word) (s : State) : State :=
  if io1 && powAt s 25 != .running then s
  else if o < 0x5000 ∧ o % 0x1000 = 0 then bpCtlWrite b (Fin.ofNat 10 (o / 0x1000 + if io1 then 5 else 0)) v s
  else if 0x10000 ≤ o ∧ o < 0x20000 ∧ io1 = false then fabWrite b (o - 0x10000) v s
  else s

/-- A write of a register of block CGk (spec/02, Tables 2 to 8; spec/06, Table 11; spec/13, Table 6). -/
def cgWrite (b : BarAcc) (r : RegionId) (o : Nat) (v : Word) (s : State) : State :=
  let x := strobes b v
  let m := merged b (cgRead s r o) v
  match o with
  | 0x000 => cgClkctlWrite b r v s
  | 0x118 => tallyClear b r v s
  | 0x120 => modRegion s r (fun g => { g with holdwd := BitVec.ofNat 32 m })
  | 0x200 => modRegion s r (fun g => { g with flmxCrc := g.flmxCrc && !bitOf x 17 })
  | 0x300 =>
    modRegion s r (fun g => { g with stopEn := bitOf m 0, stopFired := g.stopFired && !bitOf x 1, stopJob := BitVec.ofNat 16 (fieldOf m 16 16) })
  | 0x308 => modRegion s r (fun g => { g with stopAt := BitVec.ofNat 64 m })
  | _ => s

/-! ### Cores: channel commands (R224) and other registers -/

/-- A pop of a register-mode endpoint: its oldest message goes, and one credit returns (R224). -/
def chPop (c : CoreId) (e : Fin 32) (s : State) : State :=
  let x := epOf (coreAt s c) e
  match x.held with
  | _ :: rest =>
    if x.isOpen && chRecv x.word && decide (chLand x.word = 0) then
      sendCredit c e 1 (setEp c e (fun y => { y with held := rest, occ := y.occ - 1 }) s)
    else s
  | [] => s

/-- A receive end opens from CH_CFG on a core that runs no job; one that an OPEN would refuse does not (R207, R224). -/
def chOpenCfg (c : CoreId) (e : Fin 32) (s : State) : State :=
  let w := (epOf (coreAt s c) e).word
  if !coreBusy (coreAt s c) && chRecv w && (openFault s c e w.toNat).isNone then openEp c e w (openCredits c e w s) else s

/-- A write of CH_CMD with the bits `x` (spec/10, Table 9). A core of a STOPPED job takes none (R285). -/
def chCmdWrite (c : CoreId) (x : Nat) (s : State) : State :=
  let e : Fin 32 := Fin.ofNat 32 (fieldOf x 0 5)
  if !regionRuns s (regionOf c) || coreHalted s c then s
  else
    match fieldOf x 5 3 with
    | 1 => chOpenCfg c e s
    | 2 => if coreBusy (coreAt s c) then s else closeEp c e s
    | 3 => chPop c e s
    | _ => s

/-- A write of a core's register. A sleeping region takes none (spec/16, Table 1). -/
def coreWrite (b : BarAcc) (c : CoreId) (o : Nat) (v : Word) (s : State) : State :=
  if regionRuns s (regionOf c) then
    match coreRegAt o with
    | none => s
    | some .chCmd => chCmdWrite c (strobes b v) s
    | some r => coreSoftWrite c r (if coreRwMask r = 0 then strobes b v else merged b (coreRegRead s c r) v) s
  else s

/-! ### The whole range -/

/-- A write of the register at an offset, a multiple of 8 (R248, R256). -/
def regWrite (b : BarAcc) (off : Nat) (v : Word) (s : State) : State :=
  match regPlace off with
  | .cap o => capWrite b o v s
  | .mgt o => mgtWrite b o v s
  | .aon o => aonWrite b o v s
  | .mem k o => memRegWrite b k o v s
  | .memc o => memcWrite b o v s
  | .io d o => ioWrite b d o v s
  | .cg r o => cgWrite b r o v s
  | .core c o => coreWrite b c o v s
  | .nowhere => s

/-- A BAR 0 write: one that is not aligned, or outside the range, is an Unsupported Request (R248). -/
def barRegWrite (b : BarAcc) (off : Nat) (v : Word) (s : State) : State :=
  if hostReaches s then
    if decide (off % 8 = 0) && decide (off < 0x4000000) then barWrite b (regWrite b off v) s else answerHost .unsupported s
  else s

/-! ### The Waton chain (R299) -/

/-- The AON registers marked "chain" (spec/16, Table 9). -/
def chainWritable (off : Nat) : Bool :=
  [0x100008, 0x100010, 0x100020, 0x100030, 0x100040, 0x100048, 0x100050].contains off

/-- The blocks that the chain reads: CAP, MGT, AON and MEMk. -/
def chainReadable (off : Nat) : Bool :=
  decide (off % 8 = 0) &&
    (match regPlace off with
      | .cap _ | .mgt _ | .aon _ | .mem _ _ => true
      | _ => false)

/-- WATON_WRITE: a direct write of 13 bytes writes a register. -/
def wtnWrite (bytes : List Byte) (s : State) : State :=
  let off := leNat ((bytes.drop 1).take 4)
  let v : Word := BitVec.ofNat 64 (leNat (bytes.drop 5))
  if bytes.length = 13 ∧ bytes.head? = some 0x02#8 ∧ chainWritable off = true then
    regWrite { lanes := .all, keyed := true } off v (wtnSay .ack s)
  else wtnSay .nack s

/-- WATON_READ: a direct write of 5 bytes and a read of 8. -/
def wtnRead (bytes : List Byte) (s : State) : State :=
  let off := leNat (bytes.drop 1)
  if bytes.length = 5 ∧ bytes.head? = some 0x01#8 ∧ chainReadable off = true then
    regClear (wtnSay (.bytes (leBytes 8 (regRead s off))) s) off
  else wtnSay .nack s

/-! ### The commands -/

/-- REGISTER_WRITE (R256). -/
def execRegisterWrite (b : BarAcc) (off : Nat) (v : Word) (s : State) : Host.Outcome State Fault Refusal :=
  .next (barRegWrite b off v s)

/-- WAB_CLEARING_LOAD (R172). -/
def execWabClearingLoad (b : BarAcc) (c : CoreId) (w : Bool) (v : Word) (s : State) : Host.Outcome State Fault Refusal :=
  .next (barWrite b (coreWrite b c (if w then 0x8008 else 0x8000) v) s)

/-- The value that a channel command writes to CH_CMD. -/
def chCmdBits (b : BarAcc) (op : Nat) (ch : Fin 32) : Nat := strobes b (BitVec.ofNat 64 (packFields [(0, ch.val), (5, op)]))

/-- CH_CMD_OPEN (R224). -/
def execChCmdOpen (b : BarAcc) (c : CoreId) (ch : Fin 32) (s : State) : Host.Outcome State Fault Refusal :=
  .next (barWrite b (chCmdWrite c (chCmdBits b 1 ch)) s)

/-- CH_CMD_CLOSE (R224). -/
def execChCmdClose (b : BarAcc) (c : CoreId) (ch : Fin 32) (s : State) : Host.Outcome State Fault Refusal :=
  .next (barWrite b (chCmdWrite c (chCmdBits b 2 ch)) s)

/-- CH_CMD_POP (R224). -/
def execChCmdPop (b : BarAcc) (c : CoreId) (ch : Fin 32) (s : State) : Host.Outcome State Fault Refusal :=
  .next (barWrite b (chCmdWrite c (chCmdBits b 3 ch)) s)

/-- WATON_WRITE (R299). -/
def execWatonWrite (bytes : List Byte) (s : State) : Host.Outcome State Fault Refusal := .next (wtnServe (wtnWrite bytes) s)

/-- WATON_READ (R299). -/
def execWatonRead (bytes : List Byte) (s : State) : Host.Outcome State Fault Refusal := .next (wtnServe (wtnRead bytes) s)

end Sys2Proof.Machine
end

