-- ==== Sys2Proof/Machine/Dispatch.lean ====
section
/-! DEFINITION. One arm per command: a direct call of its meaning. -/

namespace Sys2Proof.Machine
/-- The effect of a command on everything but the queue. -/
def exec (i : Instr) (s : State) : Host.Outcome State Fault Refusal :=
  match i with
  | .sadd c rd rs1 rs2 => Sys2Proof.Machine.execSadd c rd rs1 rs2 s
  | .ssub c rd rs1 rs2 => Sys2Proof.Machine.execSsub c rd rs1 rs2 s
  | .sand c rd rs1 rs2 => Sys2Proof.Machine.execSand c rd rs1 rs2 s
  | .sor c rd rs1 rs2 => Sys2Proof.Machine.execSor c rd rs1 rs2 s
  | .sxor c rd rs1 rs2 => Sys2Proof.Machine.execSxor c rd rs1 rs2 s
  | .sshl c rd rs1 rs2 => Sys2Proof.Machine.execSshl c rd rs1 rs2 s
  | .sshr c rd rs1 rs2 => Sys2Proof.Machine.execSshr c rd rs1 rs2 s
  | .ssra c rd rs1 rs2 => Sys2Proof.Machine.execSsra c rd rs1 rs2 s
  | .slt c rd rs1 rs2 => Sys2Proof.Machine.execSlt c rd rs1 rs2 s
  | .sltu c rd rs1 rs2 => Sys2Proof.Machine.execSltu c rd rs1 rs2 s
  | .sseq c rd rs1 rs2 => Sys2Proof.Machine.execSseq c rd rs1 rs2 s
  | .smul c rd rs1 rs2 => Sys2Proof.Machine.execSmul c rd rs1 rs2 s
  | .saddi c rd rs1 imm => Sys2Proof.Machine.execSaddi c rd rs1 imm s
  | .sandi c rd rs1 imm => Sys2Proof.Machine.execSandi c rd rs1 imm s
  | .sori c rd rs1 imm => Sys2Proof.Machine.execSori c rd rs1 imm s
  | .sshli c rd rs1 imm => Sys2Proof.Machine.execSshli c rd rs1 imm s
  | .sshri c rd rs1 imm => Sys2Proof.Machine.execSshri c rd rs1 imm s
  | .sli c rd imm => Sys2Proof.Machine.execSli c rd imm s
  | .slc c rd lc => Sys2Proof.Machine.execSlc c rd lc s
  | .rep c lc bodyM1 count => Sys2Proof.Machine.execRep c lc bodyM1 count s
  | .reps c lc bodyM1 rs => Sys2Proof.Machine.execReps c lc bodyM1 rs s
  | .nextLayer c => Sys2Proof.Machine.execNextLayer c s
  | .jsel c q j => Sys2Proof.Machine.execJsel c q j s
  | .jtrip c q lc bodyM1 h => Sys2Proof.Machine.execJtrip c q lc bodyM1 h s
  | .join c j => Sys2Proof.Machine.execJoin c j s
  | .tcfg c t rows rowb fmt axis => Sys2Proof.Machine.execTcfg c t rows rowb fmt axis s
  | .trel c rs => Sys2Proof.Machine.execTrel c rs s
  | .treli c t => Sys2Proof.Machine.execTreli c t s
  | .wclr c w => Sys2Proof.Machine.execWclr c w s
  | .xsend c nM1 => Sys2Proof.Machine.execXsend c nM1 s
  | .xwait c f k => Sys2Proof.Machine.execXwait c f k s
  | .xsync c k => Sys2Proof.Machine.execXsync c k s
  | .mma c x => Sys2Proof.Machine.execMma c x s
  | .wld c x => Sys2Proof.Machine.execWld c x s
  | .wswap c mask => Sys2Proof.Machine.execWswap c mask s
  | .absw c mask => Sys2Proof.Machine.execAbsw c mask s
  | .aclr c mask bank int => Sys2Proof.Machine.execAclr c mask bank int s
  | .mvld c t e => Sys2Proof.Machine.execMvld c t e s
  | .mvm c x => Sys2Proof.Machine.execMvm c x s
  | .wadd c x => Sys2Proof.Machine.execWadd c x s
  | .vdrn c x => Sys2Proof.Machine.execVdrn c x s
  | .vld c x => Sys2Proof.Machine.execVld c x s
  | .vst c x => Sys2Proof.Machine.execVst c x s
  | .vop c x => Sys2Proof.Machine.execVop c x s
  | .vfn c x => Sys2Proof.Machine.execVfn c x s
  | .vred c x => Sys2Proof.Machine.execVred c x s
  | .vsmx c x => Sys2Proof.Machine.execVsmx c x s
  | .vresc c x => Sys2Proof.Machine.execVresc c x s
  | .vsmxf c x => Sys2Proof.Machine.execVsmxf c x s
  | .vwcv c x => Sys2Proof.Machine.execVwcv c x s
  | .vrng c x => Sys2Proof.Machine.execVrng c x s
  | .vscln c => Sys2Proof.Machine.execVscln c s
  | .waitq c q nM1 => Sys2Proof.Machine.execWaitq c q nM1 s
  | .sdrop c q nM1 => Sys2Proof.Machine.execSdrop c q nM1 s
  | .sdesc c q nM1 => Sys2Proof.Machine.execSdesc c q nM1 s
  | .sarm c q => Sys2Proof.Machine.execSarm c q s
  | .sfence c q => Sys2Proof.Machine.execSfence c q s
  | .sld c q t f mM1 => Sys2Proof.Machine.execSld c q t f mM1 s
  | .sput c x => Sys2Proof.Machine.execSput c x s
  | .bpush c b k => Sys2Proof.Machine.execBpush c b k s
  | .fsend c x => Sys2Proof.Machine.execFsend c x s
  | .frcv c d t => Sys2Proof.Machine.execFrcv c d t s
  | .fxin c d flitsM1 => Sys2Proof.Machine.execFxin c d flitsM1 s
  | .chOpen c ch k => Sys2Proof.Machine.execChOpen c ch k s
  | .chClose c ch => Sys2Proof.Machine.execChClose c ch s
  | .csend c ch nM1 => Sys2Proof.Machine.execCsend c ch nM1 s
  | .cack c ch nM1 => Sys2Proof.Machine.execCack c ch nM1 s
  | .cwait c ch k => Sys2Proof.Machine.execCwait c ch k s
  | .kwait c k rs => Sys2Proof.Machine.execKwait c k rs s
  | .kout c x => Sys2Proof.Machine.execKout c x s
  | .scheduleTick r => Sys2Proof.Machine.execScheduleTick r s
  | .holdRelease r => Sys2Proof.Machine.execHoldRelease r s
  | .droopStretch r mv => Sys2Proof.Machine.execDroopStretch r mv s
  | .lockstepActive r => Sys2Proof.Machine.execLockstepActive r s
  | .holdWatchdog r => Sys2Proof.Machine.execHoldWatchdog r s
  | .regionClockSwitch r => Sys2Proof.Machine.execRegionClockSwitch r s
  | .clockSwitchDone r => Sys2Proof.Machine.execClockSwitchDone r s
  | .layerStart c => Sys2Proof.Machine.execLayerStart c s
  | .recordPush c => Sys2Proof.Machine.execRecordPush c s
  | .coreComplete c => Sys2Proof.Machine.execCoreComplete c s
  | .accumulatorWrite c m => Sys2Proof.Machine.execAccumulatorWrite c m s
  | .checksumCompare c m => Sys2Proof.Machine.execChecksumCompare c m s
  | .shadowWeightWrite c => Sys2Proof.Machine.execShadowWeightWrite c s
  | .mvmLine c => Sys2Proof.Machine.execMvmLine c s
  | .vectorResultWrite c => Sys2Proof.Machine.execVectorResultWrite c s
  | .scalerRecordWrite c => Sys2Proof.Machine.execScalerRecordWrite c s
  | .wideRowAdd c => Sys2Proof.Machine.execWideRowAdd c s
  | .flitExitWrite r d => Sys2Proof.Machine.execFlitExitWrite r d s
  | .fxinRead r d => Sys2Proof.Machine.execFxinRead r d s
  | .fsendFlitInject c d => Sys2Proof.Machine.execFsendFlitInject c d s
  | .flitCapture c d => Sys2Proof.Machine.execFlitCapture c d s
  | .autoForward r d => Sys2Proof.Machine.execAutoForward r d s
  | .sldGroupLoad c => Sys2Proof.Machine.execSldGroupLoad c s
  | .sputGroupWrite c => Sys2Proof.Machine.execSputGroupWrite c s
  | .descriptorStart c q => Sys2Proof.Machine.execDescriptorStart c q s
  | .handleTake c q => Sys2Proof.Machine.execHandleTake c q s
  | .transferIssue c => Sys2Proof.Machine.execTransferIssue c s
  | .returnLand c q id => Sys2Proof.Machine.execReturnLand c q id s
  | .gatherIndexTake c q => Sys2Proof.Machine.execGatherIndexTake c q s
  | .writeAccept c q id => Sys2Proof.Machine.execWriteAccept c q id s
  | .boutPush c q => Sys2Proof.Machine.execBoutPush c q s
  | .creditWatchdog c q => Sys2Proof.Machine.execCreditWatchdog c q s
  | .messageLand c ch => Sys2Proof.Machine.execMessageLand c ch s
  | .creditArrive c ch => Sys2Proof.Machine.execCreditArrive c ch s
  | .closeNotice c ch => Sys2Proof.Machine.execCloseNotice c ch s
  | .discardNotice c ch => Sys2Proof.Machine.execDiscardNotice c ch s
  | .combineNarrow c k => Sys2Proof.Machine.execCombineNarrow c k s
  | .combineWideRow c k => Sys2Proof.Machine.execCombineWideRow c k s
  | .stopAtTickMatch r => Sys2Proof.Machine.execStopAtTickMatch r s
  | .jobStopped j => Sys2Proof.Machine.execJobStopped j s
  | .jobStart j => Sys2Proof.Machine.execJobStart j s
  | .jobDone j => Sys2Proof.Machine.execJobDone j s
  | .jobFenced j => Sys2Proof.Machine.execJobFenced j s
  | .loadConfigLoad h addr len slot wset ecc => Sys2Proof.Machine.execLoadConfigLoad h addr len slot wset ecc s
  | .loadConfigUnload h slot => Sys2Proof.Machine.execLoadConfigUnload h slot s
  | .submitGraph h addr count => Sys2Proof.Machine.execSubmitGraph h addr count s
  | .startRelease h j => Sys2Proof.Machine.execStartRelease h j s
  | .startResume h j => Sys2Proof.Machine.execStartResume h j s
  | .commitOpen h g mask journal jlen => Sys2Proof.Machine.execCommitOpen h g mask journal jlen s
  | .commitStage h g addr count => Sys2Proof.Machine.execCommitStage h g addr count s
  | .commitCommit h g => Sys2Proof.Machine.execCommitCommit h g s
  | .commitDiscard h g => Sys2Proof.Machine.execCommitDiscard h g s
  | .stepAdvance h g mask => Sys2Proof.Machine.execStepAdvance h g mask s
  | .memberPrepare g l => Sys2Proof.Machine.execMemberPrepare g l s
  | .commitDecision g => Sys2Proof.Machine.execCommitDecision g s
  | .prepTimeout g => Sys2Proof.Machine.execPrepTimeout g s
  | .commitApply g l => Sys2Proof.Machine.execCommitApply g l s
  | .commitComplete g chks => Sys2Proof.Machine.execCommitComplete g chks s
  | .snapshotPlan h addr => Sys2Proof.Machine.execSnapshotPlan h addr s
  | .snapshotWaitCaptured h => Sys2Proof.Machine.execSnapshotWaitCaptured h s
  | .snapshotWaitComplete h => Sys2Proof.Machine.execSnapshotWaitComplete h s
  | .restoreLocal h slot => Sys2Proof.Machine.execRestoreLocal h slot s
  | .restoreVerify h slot partner => Sys2Proof.Machine.execRestoreVerify h slot partner s
  | .restoreForward h slot off len dest daddr => Sys2Proof.Machine.execRestoreForward h slot off len dest daddr s
  | .fenceCancel h j => Sys2Proof.Machine.execFenceCancel h j s
  | .fenceStop h j => Sys2Proof.Machine.execFenceStop h j s
  | .wipeDram h first count => Sys2Proof.Machine.execWipeDram h first count s
  | .wipeOnDie h mask => Sys2Proof.Machine.execWipeOnDie h mask s
  | .wipeDone => Sys2Proof.Machine.execWipeDone s
  | .setClock h mask idx => Sys2Proof.Machine.execSetClock h mask idx s
  | .setWheel h mask addr => Sys2Proof.Machine.execSetWheel h mask addr s
  | .queryRegister h off => Sys2Proof.Machine.execQueryRegister h off s
  | .queryJobEntry h j => Sys2Proof.Machine.execQueryJobEntry h j s
  | .undefinedOpcodePacket h opcode => Sys2Proof.Machine.execUndefinedOpcodePacket h opcode s
  | .replyWrite ok => Sys2Proof.Machine.execReplyWrite ok s
  | .jobEventWrite ok => Sys2Proof.Machine.execJobEventWrite ok s
  | .alertWrite ok => Sys2Proof.Machine.execAlertWrite ok s
  | .crCtlWrite b v => Sys2Proof.Machine.execCrCtlWrite b v s
  | .crTailWrite b v readOk => Sys2Proof.Machine.execCrTailWrite b v readOk s
  | .registerWrite b off v => Sys2Proof.Machine.execRegisterWrite b off v s
  | .rcRegisterRead b off => Sys2Proof.Machine.execRcRegisterRead b off s
  | .tallyClear b r v => Sys2Proof.Machine.execTallyClear b r v s
  | .cgClkctlWrite b r v => Sys2Proof.Machine.execCgClkctlWrite b r v s
  | .memcDecodeWrite b v => Sys2Proof.Machine.execMemcDecodeWrite b v s
  | .wheelApply b k v => Sys2Proof.Machine.execWheelApply b k v s
  | .wheelTakesEffect k => Sys2Proof.Machine.execWheelTakesEffect k s
  | .hwinWrite b i0 v => Sys2Proof.Machine.execHwinWrite b i0 v s
  | .hostMemoryAccess x => Sys2Proof.Machine.execHostMemoryAccess x s
  | .jtIndexWrite b v => Sys2Proof.Machine.execJtIndexWrite b v s
  | .wabClearingLoad b c w v => Sys2Proof.Machine.execWabClearingLoad b c w v s
  | .chCmdOpen b c ch => Sys2Proof.Machine.execChCmdOpen b c ch s
  | .chCmdClose b c ch => Sys2Proof.Machine.execChCmdClose b c ch s
  | .chCmdPop b c ch => Sys2Proof.Machine.execChCmdPop b c ch s
  | .digestStart b v => Sys2Proof.Machine.execDigestStart b v s
  | .digestDone => Sys2Proof.Machine.execDigestDone s
  | .selfTestRequest b v => Sys2Proof.Machine.execSelfTestRequest b v s
  | .selfTestDone c x => Sys2Proof.Machine.execSelfTestDone c x s
  | .repairCommit => Sys2Proof.Machine.execRepairCommit s
  | .pieceAccess k e ch chk => Sys2Proof.Machine.execPieceAccess k e ch chk s
  | .patrolScrub k off chk => Sys2Proof.Machine.execPatrolScrub k off chk s
  | .dieFailure k die => Sys2Proof.Machine.execDieFailure k die s
  | .dieRebuildPiece k => Sys2Proof.Machine.execDieRebuildPiece k s
  | .rebuildCommit k => Sys2Proof.Machine.execRebuildCommit k s
  | .rowRepair k ch die bank row => Sys2Proof.Machine.execRowRepair k ch die bank row s
  | .stackTempUpdate k t => Sys2Proof.Machine.execStackTempUpdate k t s
  | .refreshRateChange k => Sys2Proof.Machine.execRefreshRateChange k s
  | .memTripClear b k => Sys2Proof.Machine.execMemTripClear b k s
  | .logicTempUpdate t hot => Sys2Proof.Machine.execLogicTempUpdate t hot s
  | .thermTripClear b => Sys2Proof.Machine.execThermTripClear b s
  | .supplyFault rail => Sys2Proof.Machine.execSupplyFault rail s
  | .supplyStatClear b v mv => Sys2Proof.Machine.execSupplyStatClear b v mv s
  | .avsAck mv => Sys2Proof.Machine.execAvsAck mv s
  | .avsTimeout => Sys2Proof.Machine.execAvsTimeout s
  | .refLost => Sys2Proof.Machine.execRefLost s
  | .refPresent => Sys2Proof.Machine.execRefPresent s
  | .refRecover b => Sys2Proof.Machine.execRefRecover b s
  | .clkReqGo b v => Sys2Proof.Machine.execClkReqGo b v s
  | .sleepRequest b v => Sys2Proof.Machine.execSleepRequest b v s
  | .regionSleep n quiet => Sys2Proof.Machine.execRegionSleep n quiet s
  | .governorWindow => Sys2Proof.Machine.execGovernorWindow s
  | .regionRunning n => Sys2Proof.Machine.execRegionRunning n s
  | .resetNRelease mgrSel wid => Sys2Proof.Machine.execResetNRelease mgrSel wid s
  | .pwrResetCold b v => Sys2Proof.Machine.execPwrResetCold b v s
  | .pwrResetWarm b v => Sys2Proof.Machine.execPwrResetWarm b v s
  | .functionLevelReset => Sys2Proof.Machine.execFunctionLevelReset s
  | .perstAssert => Sys2Proof.Machine.execPerstAssert s
  | .resetReady => Sys2Proof.Machine.execResetReady s
  | .bootImageCheck => Sys2Proof.Machine.execBootImageCheck s
  | .svnAdvance b => Sys2Proof.Machine.execSvnAdvance b s
  | .ideOnlySet b => Sys2Proof.Machine.execIdeOnlySet b s
  | .lifecycleRequest b v => Sys2Proof.Machine.execLifecycleRequest b v s
  | .auxCtlWrite b v => Sys2Proof.Machine.execAuxCtlWrite b v s
  | .auxSyncEdge => Sys2Proof.Machine.execAuxSyncEdge s
  | .watonWrite bytes => Sys2Proof.Machine.execWatonWrite bytes s
  | .watonRead bytes => Sys2Proof.Machine.execWatonRead bytes s
  | .entdaa addr => Sys2Proof.Machine.execEntdaa addr s
  | .rstdaa => Sys2Proof.Machine.execRstdaa s
  | .enec ev => Sys2Proof.Machine.execEnec ev s
  | .disec ev => Sys2Proof.Machine.execDisec ev s
  | .getpid => Sys2Proof.Machine.execGetpid s
  | .getbcr => Sys2Proof.Machine.execGetbcr s
  | .getdcr => Sys2Proof.Machine.execGetdcr s
  | .getstatus => Sys2Proof.Machine.execGetstatus s
  | .getmxds => Sys2Proof.Machine.execGetmxds s
  | .getVersion => Sys2Proof.Machine.execGetVersion s
  | .getCapabilities => Sys2Proof.Machine.execGetCapabilities s
  | .negotiateAlgorithms => Sys2Proof.Machine.execNegotiateAlgorithms s
  | .getMeasurements index signed nonce => Sys2Proof.Machine.execGetMeasurements index signed nonce s
  | .keyExchange session exchange => Sys2Proof.Machine.execKeyExchange session exchange s
  | .spdmFinish verify => Sys2Proof.Machine.execSpdmFinish verify s
  | .spdmHeartbeat => Sys2Proof.Machine.execSpdmHeartbeat s
  | .endSession => Sys2Proof.Machine.execEndSession s
  | .ideKmRequest stream key => Sys2Proof.Machine.execIdeKmRequest stream key s
  | .configRequest write off v => Sys2Proof.Machine.execConfigRequest write off v s
  | .pcieLinkTrain flitMode => Sys2Proof.Machine.execPcieLinkTrain flitMode s
  | .jtagBypass => Sys2Proof.Machine.execJtagBypass s
  | .jtagIdcode => Sys2Proof.Machine.execJtagIdcode s
  | .samplePreload pins shift => Sys2Proof.Machine.execSamplePreload pins shift s
  | .extest pins shift => Sys2Proof.Machine.execExtest pins shift s
  | .clamp => Sys2Proof.Machine.execClamp s
  | .highz => Sys2Proof.Machine.execHighz s
  | .portTrain p x => Sys2Proof.Machine.execPortTrain p x s
  | .trainRetry p => Sys2Proof.Machine.execTrainRetry p s
  | .portRetrain b p => Sys2Proof.Machine.execPortRetrain b p s
  | .laneFailureWindow p counts word => Sys2Proof.Machine.execLaneFailureWindow p counts word s
  | .laneSwitchRequest p lane word => Sys2Proof.Machine.execLaneSwitchRequest p lane word s
  | .laneSwitchAccept p word => Sys2Proof.Machine.execLaneSwitchAccept p word s
  | .linkFlitReceive p bytes marked corrected => Sys2Proof.Machine.execLinkFlitReceive p bytes marked corrected s
  | .nakReplay p => Sys2Proof.Machine.execNakReplay p s
  | .creditStopTimeout p cls => Sys2Proof.Machine.execCreditStopTimeout p cls s
  | .controlFlit p credits mark => Sys2Proof.Machine.execControlFlit p credits mark s
  | .timeExchange p sent recv peerSent peerRecv => Sys2Proof.Machine.execTimeExchange p sent recv peerSent peerRecv s
  | .packetForward p x => Sys2Proof.Machine.execPacketForward p x s
  | .linkCommandTake c => Sys2Proof.Machine.execLinkCommandTake c s
  | .linkWritePacket p x final => Sys2Proof.Machine.execLinkWritePacket p x final s
  | .linkContributionPacket p x i0 => Sys2Proof.Machine.execLinkContributionPacket p x i0 s
  | .contributionEntry c => Sys2Proof.Machine.execContributionEntry c s
  | .linkFlagPacket p x rcore f => Sys2Proof.Machine.execLinkFlagPacket p x rcore f s
  | .linkAckPacket x => Sys2Proof.Machine.execLinkAckPacket x s
  | .progressAckTimer c => Sys2Proof.Machine.execProgressAckTimer c s
  | .ackTimeout c n => Sys2Proof.Machine.execAckTimeout c n s
  | .heartbeatSend => Sys2Proof.Machine.execHeartbeatSend s
  | .heartbeatPacket src => Sys2Proof.Machine.execHeartbeatPacket src s
  | .heartbeatMiss peer => Sys2Proof.Machine.execHeartbeatMiss peer s
  | .enumerationStart => Sys2Proof.Machine.execEnumerationStart s
  | .enumerationPacket x => Sys2Proof.Machine.execEnumerationPacket x s
  | .barrierArrive b child => Sys2Proof.Machine.execBarrierArrive b child s
  | .barrierRelease b t => Sys2Proof.Machine.execBarrierRelease b t s
  | .barrierStartAtT b => Sys2Proof.Machine.execBarrierStartAtT b s
  | .fabricPrepared g child => Sys2Proof.Machine.execFabricPrepared g child s
  | .fabricAbort g l => Sys2Proof.Machine.execFabricAbort g l s
  | .fabricApply g t take => Sys2Proof.Machine.execFabricApply g t take s
  | .captureComplete chks => Sys2Proof.Machine.execCaptureComplete chks s
  | .snapshotSent src epoch => Sys2Proof.Machine.execSnapshotSent src epoch s
  | .completeEpochAdvance epoch => Sys2Proof.Machine.execCompleteEpochAdvance epoch s
  | .haltEpoch epoch lost => Sys2Proof.Machine.execHaltEpoch epoch lost s
  | .resetNAssert => Sys2Proof.Machine.execResetNAssert s
  | .powerRemoved => Sys2Proof.Machine.execPowerRemoved s
  | .pcieLinkDown => Sys2Proof.Machine.execPcieLinkDown s
  | .signalLost p lanes word => Sys2Proof.Machine.execSignalLost p lanes word s
  | .laneSwitchRetry p word => Sys2Proof.Machine.execLaneSwitchRetry p word s
  | .laneSwitchAtCount p => Sys2Proof.Machine.execLaneSwitchAtCount p s

end Sys2Proof.Machine
end

