-- ==== Sys2Proof/Machine/Idle.lean ====
section
/-! DEFINITION. What passes while no command waits: one period of MGT (R33, R41, R305, R374, R389). -/

namespace Sys2Proof.Machine

/-- A region in a hold holds for one period more (R33, R37). -/
def idleHolds (s : State) : State :=
  allRegions.foldl (fun u r => if (regionAt u r).hold.isSome && regionRuns u r then heldPeriod r u else u) s

/-- One period without a command: MGT and fabric time count, a debug pulse and the 10 µs after a voltage change run out, regions in a
hold stay held, and step 1 of a cold reset, at most 0.2 ms, ends (R355, R376; log entry 100). While RESET_N is low, or without
power, nothing passes. -/
def idle (s : State) : State :=
  if s.power.aon && !s.power.resetLow then
    let s1 := if powAt s 26 = .running then { s with mgtPeriods := s.mgtPeriods + 1 } else s
    let s2 := if powAt s 27 = .running then modFabric s1 (fun f => { f with time := f.time + 16 }) else s1
    idleHolds (modPower s2 (fun p =>
      { p with
        auxPulse := p.auxPulse - 1, avsTail := p.avsTail - bitNat p.avsAcked
        step := if p.step = 1 ∧ p.warm = false ∧ p.ready = false then 2 else p.step }))
  else s

end Sys2Proof.Machine
end

