-- ==== Sys2Proof/Safety.lean ====
section
/-! DEFINITION. What a safe state is: every memory of the device is in its canonical form. -/

namespace Sys2Proof.Machine

/-- The cell lists of a core that are memories: its local store. -/
def Core.memsWf (k : Core) : Bool := memWf k.store

/-- The memories of the device: DRAM, the local stores, the staging window and the token. -/
def State.memoriesWf (s : State) : Bool :=
  memWf s.dram && s.cores.toList.all Core.memsWf && memWf s.ident.staging && memWf s.ident.token

end Sys2Proof.Machine
end

