-- ==== Sys2Proof/Certificates/Slice0/Obligations.lean ====
section
/-! DEFINITION. The statements about the block that are to be proved: one proposition each, from the rules of spec/. -/

namespace Sys2Proof.Machine

/-- Nothing outside core `c` differs between the two states. -/
def onlyCore (c : CoreId) (s t : State) : Prop := t = setCore s c (coreAt t c)

/-- The state in which nothing differs but a result of core `c` on its way: visible `lat` ticks after the tick of the issue. -/
def withResult (s : State) (c : CoreId) (lat slot : Nat) (e : Eff) : State :=
  setCore s c { coreAt s c with
    pend := pendInsert { due := nowAt s c + lat, issued := nowAt s c * 8 + slot, eff := e } (coreAt s c).pend }

/-- The state in which only the sequencer of core `c` differs. -/
def withSeq (s : State) (c : CoreId) (q : Seq) : State := setCore s c { coreAt s c with seq := q }

/-- Operation `i` of core `c` streams from `t`: its first step at tick `t0`, one step every `step` ticks, `count` steps. -/
def streams (t : State) (c : CoreId) (i : Instr) (slot t0 step count : Nat) : Prop :=
  ∃ o : Strm, (coreAt t c).ops.getLast? = some o ∧ o.instr = i ∧ o.issued = issueKey (nowAt t c) slot ∧ o.t0 = t0 ∧ o.step = step ∧
    o.count = count ∧ o.next = 0 ∧ o.cfg = (coreAt t c).live ∧ o.prof = (coreAt t c).seq.latprof

/-- Core `c` of `t` is as in `s` but for the operations in progress and the ports they have taken, and nothing else differs. -/
def onlyOps (c : CoreId) (s t : State) : Prop :=
  onlyCore c s t ∧
    { coreAt t c with
      ops := (coreAt s c).ops, tileUse := (coreAt s c).tileUse, vecUse := (coreAt s c).vecUse
      bankUse := (coreAt s c).bankUse, wideUse := (coreAt s c).wideUse } = coreAt s c ∧
    (coreAt s c).ops <+: (coreAt t c).ops

end Sys2Proof.Machine

open Sys2Proof Sys2Proof.Machine

/-- The command at the front of the queue is what a step runs, on the state with the queue's rest. -/
def Obligations.StepRunsFrontCommand : Prop :=
  ∀ (i : Instr) (rest : List Instr) (s : State), step { s with pending := i :: rest } = exec i { s with pending := rest }

/-- With no command waiting and no region in a hold, a step lets one period of MGT pass where MGT runs (R389), 16 units of fabric time
where IO0 runs (R305), one period of the debug pulse and one of the 10 µs that follow an acknowledged voltage change (R376), ends
step 1 of a cold reset (R355; log entry 100), and lets nothing pass while RESET_N is low or AON is without supply. That a step idles so
is the model's choice: log entry 12. -/
def Obligations.EmptyQueueIdles : Prop :=
  ∀ s : State, s.pending = [] → (s.regions.toList.all (fun g => g.hold.isNone)) = true →
    (s.power.aon = false ∨ s.power.resetLow = true → step s = .next s) ∧
    (s.power.aon = true → s.power.resetLow = false → step s = .next { s with
      mgtPeriods := if s.power.regs.get 26 = .running then s.mgtPeriods + 1 else s.mgtPeriods
      fabric := { s.fabric with time := if s.power.regs.get 27 = .running then s.fabric.time + 16 else s.fabric.time }
      power := { s.power with
        auxPulse := s.power.auxPulse - 1
        avsTail := if s.power.avsAcked = true then s.power.avsTail - 1 else s.power.avsTail
        step := if s.power.step = 1 ∧ s.power.warm = false ∧ s.power.ready = false then 2 else s.power.step } })

/-- The K-slot arithmetic of R85: each instruction puts one result on its way, visible in the next tick, SMUL's after 3 ticks, and
changes nothing else. -/
def Obligations.ScalarResults : Prop :=
  ∀ (s : State) (c : CoreId) (rd a b : SReg) (i : BitVec 12) (w : BitVec 18) (lc : Fin 8), canIssue s c = true →
    let x := sreg (coreAt s c) a
    let y := sreg (coreAt s c) b
    let res (lat : Nat) (v : Word) : Host.Outcome State Fault Refusal := .next (withResult s c lat 0 (.scalar rd v))
    exec (.sadd c rd a b) s = res 1 (BitVec.ofNat 64 (x.toNat + y.toNat)) ∧
    exec (.ssub c rd a b) s = res 1 (BitVec.ofInt 64 (x.toInt - y.toInt)) ∧
    exec (.sand c rd a b) s = res 1 (x &&& y) ∧
    exec (.sor c rd a b) s = res 1 (x ||| y) ∧
    exec (.sxor c rd a b) s = res 1 (x ^^^ y) ∧
    exec (.sshl c rd a b) s = res 1 (BitVec.ofNat 64 (x.toNat * 2 ^ (y.toNat % 64))) ∧
    exec (.sshr c rd a b) s = res 1 (BitVec.ofNat 64 (x.toNat / 2 ^ (y.toNat % 64))) ∧
    exec (.ssra c rd a b) s = res 1 (BitVec.ofInt 64 (x.toInt / 2 ^ (y.toNat % 64))) ∧
    exec (.slt c rd a b) s = res 1 (if x.toInt < y.toInt then 1 else 0) ∧
    exec (.sltu c rd a b) s = res 1 (if x.toNat < y.toNat then 1 else 0) ∧
    exec (.sseq c rd a b) s = res 1 (if x = y then 1 else 0) ∧
    exec (.smul c rd a b) s = res 3 (BitVec.ofNat 64 (x.toNat * y.toNat)) ∧
    exec (.saddi c rd a i) s = res 1 (BitVec.ofInt 64 (x.toInt + i.toInt)) ∧
    exec (.sandi c rd a i) s = res 1 (x &&& BitVec.ofInt 64 i.toInt) ∧
    exec (.sori c rd a i) s = res 1 (x ||| BitVec.ofNat 64 i.toNat) ∧
    exec (.sshli c rd a i) s = res 1 (BitVec.ofNat 64 (x.toNat * 2 ^ (i.toNat % 64))) ∧
    exec (.sshri c rd a i) s = res 1 (BitVec.ofNat 64 (x.toNat / 2 ^ (i.toNat % 64))) ∧
    exec (.sli c rd w) s = res 1 (BitVec.ofInt 64 w.toInt) ∧
    exec (.slc c rd lc) s =
      (let l := (coreAt s c).seq.loops.get lc
       res 1 (if l.active then BitVec.ofNat 64 l.iter.toNat else 0))

/-- A scalar result that becomes visible is what its register reads from then on, register S0 apart, which reads 0; every other
scalar register and the rest of the state stay as they are (R84). -/
def Obligations.ScalarWriteback : Prop :=
  ∀ (s : State) (c : CoreId) (rd r : SReg) (v : Word) (due issued : Nat),
    let t := applyPend c { due := due, issued := issued, eff := .scalar rd v } s
    onlyCore c s t ∧
    { coreAt t c with seq := { (coreAt t c).seq with scalars := (coreAt s c).seq.scalars } } = coreAt s c ∧
    sreg (coreAt t c) 0 = 0 ∧
    (rd.val ≠ 0 → sreg (coreAt t c) rd = v) ∧
    (r ≠ rd → sreg (coreAt t c) r = sreg (coreAt s c) r)

/-- Repeats, joins and the end of a layer, each with the bundle that follows (R86, R87, R90, R91). `p` is the bundle that holds the
instruction; a count of 0 goes on behind the body. -/
def Obligations.SequencerControl : Prop :=
  ∀ (s : State) (c : CoreId) (lc j : Fin 8) (b : Fin 1024) (n : Fin 2048) (rs : SReg), canIssue s c = true →
    let q := (coreAt s c).seq
    let p := q.lastBundle
    let last := p + BitVec.ofNat 12 (b.val + 1)
    let opened (count : BitVec 24) : Seq := { q with
      repeats := { lc := lc, first := p + 1#12, last := last } :: q.repeats
      loops := q.loops.set lc.val { iter := 0, count := count, active := true } lc.isLt
      pc := p + 1#12, moved := true }
    (0 < n.val → exec (.rep c lc b n) s = .next (withSeq s c (opened (BitVec.ofNat 24 n.val)))) ∧
    (n.val = 0 → exec (.rep c lc b n) s = .next (withSeq s c { seqFall q last with moved := true })) ∧
    (let count := BitVec.ofNat 24 (sreg (coreAt s c) rs).toNat
     (count ≠ 0 → exec (.reps c lc b rs) s = .next (withSeq s c (opened count))) ∧
     (count = 0 → exec (.reps c lc b rs) s = .next (withSeq s c { seqFall q last with moved := true }))) ∧
    exec (.join c j) s = .next (withSeq s c { q with pc := (q.juncs.get j).join, moved := true }) ∧
    exec (.nextLayer c) s = .next (withSeq s c { q with
      layerOn := false, trailing := 8, pc := p + 1#12, moved := true
      afterNext := !q.finalLayer, finishing := q.finalLayer, awaiting := !q.finalLayer
      startDue := if q.finalLayer = true ∨ q.runq.isEmpty = true then none else some (BitVec.ofNat 64 (nowAt s c + 1)) })

/-- JSEL takes the head entry of its queue and JTRIP the count of the queue's next gather; seven shadow bundles follow, then the
variant's entry bundle or the repeat (R88, R89, R90). A selector or trip count out of range fences with BOUNDS. -/
def Obligations.JunctionControl : Prop :=
  ∀ (s : State) (c : CoreId) (q : QId) (j lc : Fin 8) (b : Fin 1024) (h : Fin 32), canIssue s c = true →
    let k := coreAt s c
    let branch (k1 : Core) (a : AfterShadow) : Core := { k1 with
      seq := { k1.seq with shadow := some (7, a), pc := k.seq.lastBundle + 1#12, moved := true } }
    (∀ v, 0 < qReadable (qOf k q) (periodAt s c) → v = leNat (qHeadBytes k q 4) →
      (v < nvarOf (k.seq.juncs.get j) →
        exec (.jsel c q j) s = .next (setCore s c
          (branch (modQ k q (fun x => qDropEntries x 1)) (.variant ((k.seq.juncs.get j).vars.toList.getD v 0))))) ∧
      (nvarOf (k.seq.juncs.get j) ≤ v → exec (.jsel c q j) s = .next (fenceCore c (flt .bounds c) s))) ∧
    (∀ e, tripCount k q (periodAt s c) = some e →
      let trips := (e + 2 ^ h.val - 1) / 2 ^ h.val
      (trips < 2 ^ 24 →
        exec (.jtrip c q lc b h) s = .next (setCore s c
          (branch (modQ k q (fun x => { x with tripsTaken := x.tripsTaken + 1 }))
            (.trip lc (b.val + 1) (BitVec.ofNat 24 trips))))) ∧
      (2 ^ 24 ≤ trips → exec (.jtrip c q lc b h) s = .next (fenceCore c (flt .bounds c) s)))

/-- What each slot instruction does is one of three things: an unmet wait holds its region with the instruction, a fault fences its
job, and otherwise its own effect takes place; a core that may not issue does nothing (R30, R32, R33, R265, R280). -/
def Obligations.SlotIssueOutcome : Prop :=
  ∀ (i : Instr) (x : Issue) (s : State), issueOf i = some x → i.wf = true →
    (canIssue s x.core = false → exec i s = .next s) ∧
    (∀ h, canIssue s x.core = true → x.wait s = some h →
      exec i s = .next (modRegion (holdBegin (regionOf x.core) [h] s) (regionOf x.core)
        (fun g => { g with heldOps := g.heldOps ++ [i] }))) ∧
    (∀ f, canIssue s x.core = true → x.wait s = none → x.fault s = some f → exec i s = .next (fenceCore x.core f s)) ∧
    (canIssue s x.core = true → x.wait s = none → x.fault s = none → exec i s = .next (x.effect s))

/-- A slot instruction with a reserved code in a field is no instruction that a slot holds: the command is refused, and no other
command is (R83). -/
def Obligations.OnlyReservedEncodingsAreRefused : Prop :=
  ∀ (i : Instr) (s : State),
    (i.wf = true → ∃ t, exec i s = .next t) ∧ (i.wf = false → ∃ m, exec i s = .refused (.reservedEncoding m))

namespace Sys2Proof.Machine

/-- A V-slot operation has issued on core `c`: the pipe is held for `busy` ticks with its opcode, the operation streams, and beside
the pipe, the operations in progress and the ports nothing differs. -/
def vectorIssued (c : CoreId) (i : Instr) (op : Byte) (busy first count : Nat) (s t : State) : Prop :=
  onlyCore c s t ∧ streams t c i 2 (nowAt s c + first) 1 count ∧
    (coreAt t c).vec = { (coreAt s c).vec with pipeUntil := nowAt s c + busy, opcode := op } ∧
    (coreAt s c).ops <+: (coreAt t c).ops ∧
    { coreAt t c with
      vec := (coreAt s c).vec, ops := (coreAt s c).ops, tileUse := (coreAt s c).tileUse, vecUse := (coreAt s c).vecUse
      bankUse := (coreAt s c).bankUse, wideUse := (coreAt s c).wideUse } = coreAt s c

end Sys2Proof.Machine

open Sys2Proof Sys2Proof.Machine

/-- Instructions whose whole effect is one change that shows from the next tick on: a tile's configuration (R98, R99), a release
(R101), a clearing of a wide tile (R173), an exchange of weights (R114), a switch of banks (R116), the close of a Scaler record
(R165), a push into a Boom queue (R202) and a close of an endpoint (R216). -/
def Obligations.NextTickInstructions : Prop :=
  ∀ (s : State) (c : CoreId) (t : TReg) (rows : Byte) (rowb fmt : BitVec 5) (axis : Bool) (r : SReg) (w : Bool) (m : Fin 16)
    (b : Fin 8) (e : Fin 32), canIssue s c = true →
    let k := coreAt s c
    let cfg : TileCfg := { rows := rows, rowb := rowb, fmt := fmt, axis := axis }
    let inUse (n : TReg) : Bool := stillUsed k.tileUse n.val (nowAt s c)
    let mask : BitVec 32 := BitVec.ofNat 32 (sreg k r).toNat
    (cfgValid cfg = true → cfg = (tileOf k t).cfg ∨ inUse t = false →
      exec (.tcfg c t rows rowb fmt axis) s = .next (withResult s c 1 0 (.tcfg t cfg))) ∧
    ((∀ n : TReg, mask.getLsbD n.val = true → (tileOf k n).empty = true ∨ inUse n = false) →
      exec (.trel c r) s = .next (withResult s c 1 0 (.release mask))) ∧
    ((tileOf k t).empty = true ∨ inUse t = false →
      exec (.treli c t) s = .next (withResult s c 1 0 (.release (1#32 <<< t.val)))) ∧
    ((wideOf k w).mode = false → wideBusy k w (nowAt s c + 1) = false →
      exec (.wclr c w) s = .next (withResult s c 1 0 (.wclr w))) ∧
    exec (.wswap c m) s = .next (withResult s c 1 1 (.swap m)) ∧
    exec (.absw c m) s = .next (withResult s c 1 1 (.absw m)) ∧
    exec (.vscln c) s = .next (withResult s c 1 2 (.sclClose (nowAt s c) k.seq.tag k.live.sclEmin)) ∧
    ((boomOf k b).length < 16 → boomNamed k b = false →
      exec (.bpush c b r) s = .next (withResult s c 1 3 (.bpush b (sreg k r)))) ∧
    exec (.chClose c e) s = .next (withResult s c 1 4 (.chClose e))

/-- What those changes are when they show: a new configuration empties the tile and an identical one changes nothing, a release
empties, WSWAP exchanges the shadow and active weights, ABSW inverts the fill bank, and a push appends (R99, R101, R114, R116). -/
def Obligations.NextTickResults : Prop :=
  ∀ (s : State) (c : CoreId) (t u : TReg) (cfg : TileCfg) (mask : BitVec 32) (m : Fin 16) (a : Fin 4) (b : Fin 8) (v : Word)
    (due issued : Nat),
    let k := coreAt s c
    let after (e : Eff) : Core := coreAt (applyPend c { due := due, issued := issued, eff := e } s) c
    (∀ e : Eff, e = .tcfg t cfg ∨ e = .release mask ∨ e = .swap m ∨ e = .absw m ∨ e = .bpush b v →
      onlyCore c s (applyPend c { due := due, issued := issued, eff := e } s)) ∧
    (cfg = (tileOf k t).cfg → after (.tcfg t cfg) = k) ∧
    (cfg ≠ (tileOf k t).cfg → tileOf (after (.tcfg t cfg)) t =
      { tileOf k t with cfg := cfg, empty := true, data := [], scales := [] }) ∧
    (u ≠ t → tileOf (after (.tcfg t cfg)) u = tileOf k u) ∧
    (mask.getLsbD u.val = true → (tileOf (after (.release mask)) u).empty = true ∧
      (tileOf (after (.release mask)) u).cfg = (tileOf k u).cfg) ∧
    (mask.getLsbD u.val = false → tileOf (after (.release mask)) u = tileOf k u) ∧
    (m.val.testBit a.val = true → arrOf (after (.swap m)) a =
      { arrOf k a with active := (arrOf k a).shadow, shadow := (arrOf k a).active }) ∧
    (m.val.testBit a.val = true → arrOf (after (.absw m)) a = { arrOf k a with fill := !(arrOf k a).fill }) ∧
    (m.val.testBit a.val = false → arrOf (after (.swap m)) a = arrOf k a ∧ arrOf (after (.absw m)) a = arrOf k a) ∧
    boomOf (after (.bpush b v)) b = boomOf k b ++ [v]

/-- ACLR sets the class of the banks it names at once and clears them in the next tick (R117); OPEN opens its endpoint in the next
tick and, at a receive end, sends the credits of its depth (R208, R209). -/
def Obligations.ClearAndOpen : Prop :=
  ∀ (s : State) (c : CoreId) (m : Fin 16) (bank int : Bool) (e : Fin 32) (r : SReg), canIssue s c = true →
    let k := coreAt s c
    (∃ t, exec (.aclr c m bank int) s = .next t ∧ onlyCore c s t ∧
      (∀ a : Fin 4, m.val.testBit a.val = true →
        (bankOf (arrOf (coreAt t c) a) (xor bank (arrOf k a).fill)).int = int ∧
        { due := nowAt s c + 1, issued := issueKey (nowAt s c) 1, eff := .aclr a (xor bank (arrOf k a).fill) int } ∈
          (coreAt t c).pend) ∧
      (∀ a : Fin 4, m.val.testBit a.val = false → arrOf (coreAt t c) a = arrOf k a) ∧
      (∀ p, p ∈ k.pend → p ∈ (coreAt t c).pend) ∧
      { coreAt t c with arrs := k.arrs, pend := k.pend } = k) ∧
    (openFault s c e (sreg k r).toNat = none →
      let w := BitVec.ofNat 29 (sreg k r).toNat
      exec (.chOpen c e r) s = .next (openCredits c e w (withResult s c 1 4 (.chOpen e w))))

/-- The A-slot operations that stream: MMA on each array of its mask, WLD, MVM, WADD, and MVLD (R108 to R114, R127, R174). Each takes
its ports and its operand feed, and the results follow at their ticks. -/
def Obligations.MatrixStreams : Prop :=
  ∀ (s : State) (c : CoreId) (x : MmaFields) (y : WldFields) (z : MvmFields) (u : WaddFields) (tr : TReg) (e0 : Fin 512),
    canIssue s c = true →
    let k := coreAt s c
    let now := nowAt s c
    (wfMma x = true → (mmaIssue c x).fault s = none →
      ∃ t, exec (.mma c x) s = .next t ∧ onlyCore c s t ∧
        (∀ m : Fin 4, x.mask.val.testBit m.val = true →
          (arrOf (coreAt t c) m).feedUntil = now + (x.nM1.val + 1) * mmaInterval k x m ∧
          ∃ o ∈ (coreAt t c).ops, o.instr = .mma c { x with mask := oneMask m } ∧ o.t0 = now ∧ o.step = mmaInterval k x m ∧
            o.count = x.nM1.val + 1 ∧ o.next = 0) ∧
        (∀ m : Fin 4, x.mask.val.testBit m.val = false → arrOf (coreAt t c) m = arrOf k m) ∧
        { coreAt t c with arrs := k.arrs, ops := k.ops, tileUse := k.tileUse } = k) ∧
    (wfWld y = true → (wldIssue c y).fault s = none →
      ∃ t, exec (.wld c y) s = .next t ∧ onlyCore c s t ∧ streams t c (.wld c y) 1 now 1 (wldTicks k y) ∧
        (coreAt t c).weightFeedUntil = now + wldTicks k y ∧
        { coreAt t c with ops := k.ops, tileUse := k.tileUse, weightFeedUntil := k.weightFeedUntil } = k) ∧
    ((mvmIssue c z).fault s = none →
      ∃ t, exec (.mvm c z) s = .next t ∧ onlyCore c s t ∧ streams t c (.mvm c z) 1 now (mvmInterval k) (z.linesM1.val + 1) ∧
        (coreAt t c).mvu.feedUntil = now + (z.linesM1.val + 1) * mvmInterval k ∧
        { coreAt t c with mvu := k.mvu, ops := k.ops } = k) ∧
    ((waddIssue c u).fault s = none →
      ∃ t, exec (.wadd c u) s = .next t ∧ onlyOps c s t ∧ streams t c (.wadd c u) 1 (now + 1) 1 (u.rowsM1.val + 1)) ∧
    ((mvldIssue c tr e0).fault s = none →
      let cfg := (tileOf k tr).cfg
      let n := mvldTicks cfg
      ∃ t, exec (.mvld c tr e0) s = .next t ∧ onlyCore c s t ∧
        (coreAt t c).mvu = { k.mvu with feedUntil := now + n } ∧
        (let v := mvldVals (tileOf k tr) e0.val
         (coreAt t c).pend =
          pendInsert { due := now + 2 + n, issued := issueKey now 1, eff := .mvbuf cfg.fmt v.1 v.2 } k.pend) ∧
        { coreAt t c with mvu := k.mvu, pend := k.pend, tileUse := k.tileUse } = k)

/-- The V-slot operations (R146, R150, R154 to R163): the pipe is held to the last read of the operation, one tick for each group of
four rows, one for each row where accumulator banks or their rows are read, from the tick after the issue. -/
def Obligations.VectorStreams : Prop :=
  ∀ (s : State) (c : CoreId), canIssue s c = true →
    let rows (n : Nat) : Nat := (n + 1 + 3) / 4
    let runs (i : Instr) (op : Byte) (busy first count : Nat) : Prop :=
      ∃ t, exec i s = .next t ∧ vectorIssued c i op busy first count s t
    (∀ x, wfVdrn x = true → (vdrnIssue c x).fault s = none →
      runs (.vdrn c x) 0x01 (x.nM1.val + 2) 1 (x.nM1.val + 1)) ∧
    (∀ x, (vldIssue c x).fault s = none → runs (.vld c x) 0x10 (rows x.nM1.val) 0 (rows x.nM1.val)) ∧
    (∀ x, (vstIssue c x).fault s = none → runs (.vst c x) 0x11 (rows x.nM1.val) 0 (rows x.nM1.val)) ∧
    (∀ x, wfVop x = true → (vopIssue c x).fault s = none → runs (.vop c x) 0x20 (rows x.nM1.val) 0 (rows x.nM1.val)) ∧
    (∀ x, wfVfn x = true → (vfnIssue c x).fault s = none → runs (.vfn c x) 0x21 (rows x.nM1.val) 0 (rows x.nM1.val)) ∧
    (∀ x, wfVred x = true → (vredIssue c x).fault s = none → runs (.vred c x) 0x22 (rows x.nM1.val) 0 (rows x.nM1.val)) ∧
    (∀ x, (vsmxIssue c x).fault s = none → runs (.vsmx c x) 0x30 (rows x.nM1.val) 0 (rows x.nM1.val)) ∧
    (∀ x, (vrescIssue c x).fault s = none → runs (.vresc c x) 0x31 (x.nM1.val + 2) 1 (x.nM1.val + 1)) ∧
    (∀ x, (vsmxfIssue c x).fault s = none → runs (.vsmxf c x) 0x32 (rows x.nM1.val) 0 (rows x.nM1.val)) ∧
    (∀ x, (vwcvIssue c x).fault s = none → runs (.vwcv c x) 0x40 (rows x.nM1.val) 0 (rows x.nM1.val)) ∧
    (∀ x, (vrngIssue c x).fault s = none → runs (.vrng c x) 0x50 (rows x.nM1.val) 0 (rows x.nM1.val))

/-- The streaming operations of slots S, C and K that move data: SLD, SPUT, FSEND, FRCV, FXIN, CSEND, KOUT and XSEND issue with one
step per tick from their issue tick, and change nothing else at issue (R139 to R142, R195, R197, R209, R223, R309). -/
def Obligations.DataStreams : Prop :=
  ∀ (s : State) (c : CoreId), canIssue s c = true →
    let k := coreAt s c
    let now := nowAt s c
    let runs (i : Instr) (slot count : Nat) : Prop :=
      ∃ t, exec i s = .next t ∧ onlyOps c s t ∧ streams t c i slot now 1 count
    (∀ q t f m, (sldIssue c q t f m).fault s = none →
      runs (.sld c q t f m) 3 (rowGroups (tileOf k t).cfg (m.val + 1))) ∧
    (∀ x, (sputIssue c x).fault s = none → runs (.sput c x) 3 (rowGroups (tileOf k x.tile).cfg (x.mM1.val + 1))) ∧
    (∀ x, wfFsend x = true → (fsendIssue c x).fault s = none → runs (.fsend c x) 3 (fsendFlits k x)) ∧
    (∀ d t, (frcvIssue c d t).fault s = none → runs (.frcv c d t) 3 (tileFlits (tileOf k t).cfg)) ∧
    (∀ d n, (fxinIssue c d n).fault s = none → runs (.fxin c d n) 3 (n.val + 1)) ∧
    (∀ e n, (csendIssue c e n).fault s = none → runs (.csend c e n) 4 (n.val + 1)) ∧
    (∀ x, (koutIssue c x).fault s = none → runs (.kout c x) 4 (x.rowsM1.val + 1)) ∧
    (∀ n, (xsendIssue c n).fault s = none → runs (.xsend c n) 0 (n.val + 1))

/-- The waiting reads and the instructions that act at once: a wait that is met passes without an effect; SDROP drops the entries, SARM
takes the staged base, SDESC releases its descriptors, CACK frees its messages and sends their credits (R30, R185 to R188, R198, R204,
R210, R215, R224, R314). -/
def Obligations.WaitsAndReleases : Prop :=
  ∀ (s : State) (c : CoreId) (q : QId) (n : Fin 64) (d : Fin 1024) (e : Fin 32) (g f : Fin 8) (r : SReg), canIssue s c = true →
    let k := coreAt s c
    let x := qOf k q
    let limit := (sreg k r).toNat % 2 ^ 32
    (n.val + 1 ≤ qReadable x (periodAt s c) →
      exec (.waitq c q n) s = .next s ∧
      exec (.sdrop c q n) s = .next (setCore s c (modQ k q (fun y => qDropEntries y (n.val + 1))))) ∧
    (x.limit ≠ 0 → d.val + 1 + x.rel.length ≤ x.llen.toNat → queueNamed k q = false →
      exec (.sdesc c q d) s = .next (setCore s c (releaseRing k q (d.val + 1) (nowAt s c + 1) (periodAt s c)))) ∧
    (x.staged = true → (∀ y ∈ x.rel, x.armMark ≤ y.seqNo) →
      exec (.sarm c q) s = .next (setCore s c (modQ k q (fun y =>
        { y with base := y.next, staged := false, released := 0, armMark := k.skd.relCount })))) ∧
    (x.wTail ≤ x.accepted → exec (.sfence c q) s = .next s) ∧
    (isRecvEnd (epOf k e) = true → chLand (epOf k e).word = 4 → limit ≤ (epOf k e).flag.toNat →
      exec (.cwait c e r) s = .next s) ∧
    (limit ≤ (combOf k g).done.toNat → exec (.kwait c g r) s = .next s) ∧
    (limit ≤ (k.xflags.get f).toNat → exec (.xwait c f r) s = .next s) ∧
    (limit ≤ k.xcomp.toNat → exec (.xsync c r) s = .next s) ∧
    (isRecvEnd (epOf k e) = true → chLand (epOf k e).word ≠ 0 →
      exec (.cack c e n) s = .next (sendCredit c e (n.val + 1)
        (setCore s c (modEp k e (fun y => { y with occ := BitVec.ofNat 7 (y.occ.toNat - (n.val + 1)) })))))

namespace Sys2Proof.Machine

/-- A core whose pipelines advance in a region that holds no period: its units may step. -/
def unitsStep (s : State) (c : CoreId) : Bool := coreAdvances (coreAt s c) && (regionAt s (regionOf c)).hold.isNone

/-- The results of a core that are due at its region's tick and of the kind `want`. -/
def dueResults (want : Eff → Bool) (s : State) (c : CoreId) : List Pend :=
  (coreAt s c).pend.filter (fun p => decide (p.due ≤ nowAt s c) && want p.eff)

/-- The state in which no result of the kind `want` that is due waits any more. -/
def withoutDue (want : Eff → Bool) (s : State) (c : CoreId) : State :=
  setCore s c { coreAt s c with pend := (coreAt s c).pend.filter (fun p => !(decide (p.due ≤ nowAt s c) && want p.eff)) }

/-- The units of core `c` may step in a region that has met neither a wait nor a fault yet. -/
def stepsClean (s : State) (c : CoreId) : Prop :=
  unitsStep s c = true ∧ (regionAt s (regionOf c)).waits = [] ∧ (regionAt s (regionOf c)).faults = []

/-- The operations `os` of core `c` take one step each, in order, and move on. -/
def stepAll (c : CoreId) (now : Nat) (found : Vector Tile 32) (os : List Strm) (s : State) : State :=
  os.foldl (fun u o => opAdvance c o (opStep c o now found u)) s

/-- The state in which the operations of core `c` of the kind `want` that have a step due have taken it, and the faults that the steps
bring have fenced their jobs. -/
def stepped (want : Instr → Bool) (c : CoreId) (s : State) : State :=
  settleFaults (regionOf c) (stepAll c (nowAt s c) (coreAt s c).tiles (dueOps want (coreAt s c) (nowAt s c)) s)

/-- No operation of core `c` of the kind `want` that has a step due meets an unmet wait at its turn. -/
def stepsFree (want : Instr → Bool) (c : CoreId) (s : State) : Prop :=
  ∀ (before : List Strm) (o : Strm) (after : List Strm), dueOps want (coreAt s c) (nowAt s c) = before ++ o :: after →
    opWait (stepAll c (nowAt s c) (coreAt s c).tiles before s) c o = none

end Sys2Proof.Machine

open Sys2Proof Sys2Proof.Machine

/-- A schedule tick of a region that does not hold: where it meets no unmet crossing condition, the region's tick and period each count
one, and where it meets one the region holds instead: the period counts, the tick does not, and no unit of any core changes but what
R33 lets continue, the Skidder and the channel endpoints. No other region's counts move (R20, R32, R33, R37). -/
def Obligations.ScheduleTickOrHold : Prop :=
  ∀ (r : RegionId) (errs : List StoreError) (s : State), regionTicks s r = true → (regionAt s r).hold = none →
    let g := regionAt s r
    let ws := (regionAt (tickBody [] [] r s) r).waits
    ∃ t, exec (.scheduleTick ⟨r, errs⟩) s = .next t ∧
      (regionAt t r).periods = g.periods + 1 ∧
      (∀ q, q ≠ r → (regionAt t q).tick = (regionAt s q).tick ∧ (regionAt t q).periods = (regionAt s q).periods) ∧
      (ws = [] → (regionAt t r).tick = g.tick + 1 ∧ (regionAt t r).hold = none) ∧
      (ws ≠ [] →
        (regionAt t r).tick = g.tick ∧
        (∃ h, (regionAt t r).hold = some h ∧ h.cause = (holdChoice ws).cause ∧ h.queue = (holdChoice ws).queue ∧ h.periods = 1) ∧
        (regionAt t r).tallyEvents = BitVec.ofNat 64 (Nat.min (g.tallyEvents.toNat + 1) (2 ^ 64 - 1)) ∧
        (regionAt t r).tallyTicks = BitVec.ofNat 64 (Nat.min (g.tallyTicks.toNat + 1) (2 ^ 64 - 1)) ∧
        ∀ c, { coreAt t c with skd := (coreAt s c).skd, eps := (coreAt s c).eps } = coreAt s c)

/-- Once every condition of a hold is met the hold ends, TALLY_HOLD_LAST takes the event, which counts at least one held period, and the
held work issues: the tick that was due, or the slot commands that waited, which count no tick (R34, R37, R38). -/
def Obligations.HoldEndsWhenConditionsMet : Prop :=
  ∀ (r : RegionId) (s : State) (h : HoldRun), (regionAt s r).hold = some h → regionTicks s r = true → unmetNow s r = [] →
    ∃ t, exec (.holdRelease r) s = .next t ∧ (regionAt t r).hold = none ∧
      (regionAt t r).tallyLast = { cause := h.cause, queue := h.queue, core := h.core, tick := h.tick,
                                   periods := BitVec.ofNat 16 (Nat.min (Nat.max h.periods 1) 0xFFFF) } ∧
      ((regionAt s r).heldOps = [] → (regionAt t r).tick = (regionAt s r).tick + 1) ∧
      ((regionAt s r).heldOps ≠ [] → (regionAt t r).tick = (regionAt s r).tick)

/-- The events of a region's clock: VDD_CORE more than 25 mV below its request stretches a period, in lock-step mode only more than 45 mV
below it and then as a forced stretch too; lock-step takes effect once the regulator covers its guard band; a clock switch holds its
region, and with its end the region takes the new entry (R25, R26, R32, R43, R376). -/
def Obligations.RegionClockEvents : Prop :=
  ∀ (r : RegionId) (mv : BitVec 12) (s : State) (q : ClockReq),
    let g := regionAt s r
    (regionRuns s r = true → mv.toNat + (if g.lsActive = true then 45 else 25) < s.power.avsReq.toNat →
      exec (.droopStretch r mv) s = .next (modRegion s r (fun g => { g with
        stretch := BitVec.ofNat 32 (Nat.min (g.stretch.toNat + 1) (2 ^ 32 - 1))
        forced := if g.lsActive then BitVec.ofNat 16 (Nat.min (g.forced.toNat + 1) (2 ^ 16 - 1)) else g.forced }))) ∧
    (s.power.avsReq.toNat ≤ mv.toNat + (if g.lsActive = true then 45 else 25) → exec (.droopStretch r mv) s = .next s) ∧
    (g.lockstep = true → regionRuns s r = true → s.power.avsBusy = false → neededMv s (needEntry s) ≤ s.power.avsReq.toNat →
      exec (.lockstepActive r) s = .next (modRegion s r (fun g => { g with lsActive := true }))) ∧
    (s.power.clk = some q → clkNext q = some r → q.waitsVolt = false → q.ends = none → q.busy = none → clkAdmitted s q r = true →
      regionRuns s r = true → g.hold = none →
      ∃ t, exec (.regionClockSwitch r) s = .next t ∧ (regionAt t r).switching = true ∧
        (∃ h, (regionAt t r).hold = some h ∧ h.cause = 0b11) ∧ (regionAt t r).tick = g.tick) ∧
    (s.power.clk = some q → g.switching = true → regionRuns s r = true →
      ∃ t, exec (.clockSwitchDone r) s = .next t ∧ (regionAt t r).switching = false ∧
        (regionAt t r).freqIdx = if q.by_ = .recover then s.power.entryBefore.get r else q.idx)

/-- A region held past its limit with a crossing cause unmet fences the job that owns the cause with FLAG_TIMEOUT, and its conditions
are withdrawn (R36). One unmet condition of a core whose credit watchdog has not fired too. -/
def Obligations.HoldWatchdogFences : Prop :=
  ∀ (r : RegionId) (s : State) (h : HoldRun) (w : HoldCond) (c : CoreId) (j : JobId),
    (regionAt s r).hold = some h → Nat.max (regionAt s r).holdwd.toNat 0x1000 < h.crossing →
    unmetNow s r = [w] → w.core = some c → creditToo s w = none → jobOf s c = some j → canFence (jobAt s j) = true →
    ∃ t, exec (.holdWatchdog r) s = .next t ∧ (jobAt t j).state = .fencing ∧ (jobAt t j).status = .flagTimeout ∧
      (jobAt t j).fence.pcore.toNat = c.val ∧ (jobAt t j).fence.detail0 = w.detail0 ∧
      (∀ d, (coreAt s d).seq.job = some j → (coreAt t d).seq.run = .fenced) ∧
      (∀ i, i ≠ j → jobAt t i = jobAt s i) ∧ (regionAt t r).tick = (regionAt s r).tick

/-- Layers, in a region that does not hold: a START that passes its checks puts the record in force at layer tick 0; the Landing pushes
the next record of a core whose run-ahead queue has room into the management crossing, from which a running core takes it at its next
tick; a core whose last layer has ended and whose operations have completed reports to the Landing and is idle (R13, R33, R91, R94,
R95, R96). -/
def Obligations.LayerEvents : Prop :=
  ∀ (c : CoreId) (s : State) (rec_ : CfgRecord) (rest : List CfgRecord) (j : JobId), (regionAt s (regionOf c)).hold = none →
    let q := (coreAt s c).seq
    let g := regionAt s (regionOf c)
    (startIsDue s c = true → q.runq = rec_ :: rest → startCheck s c q.firstStart rec_ = none →
      (regionAt s (regionOf c)).faults = [] →
      ∃ t, exec (.layerStart c) s = .next t ∧ (coreAt t c).seq.tag = rec_.tag ∧ (coreAt t c).seq.ltick = 0 ∧
        (coreAt t c).seq.entry = rec_.entry ∧ (coreAt t c).seq.entryDue = true ∧ (coreAt t c).seq.finalLayer = rec_.final ∧
        (coreAt t c).seq.awaiting = false ∧ (coreAt t c).seq.firstStart = false ∧ (coreAt t c).live = (coreAt t c).reg) ∧
    (q.job = some j → (jobAt s j).toPush = [(c, rec_ :: rest)] → q.runq.length + recordsComing s c < 256 → g.mgtIn.length < 32 →
      (jobAt s j).state = .running →
      ∃ t, exec (.recordPush c) s = .next t ∧ (regionAt t (regionOf c)).mgtIn = g.mgtIn ++ [.record c rec_] ∧
        (jobAt t j).toPush = [(c, rest)] ∧ coreAt t c = coreAt s c) ∧
    (q.run = .running → g.mgtIn = [.record c rec_] →
      let u := mgtArrive (regionOf c) s
      (regionAt u (regionOf c)).mgtIn = [] ∧ (coreAt u c).seq.runq = q.runq ++ [rec_] ∧
        (coreAt u c).seq.startDue = (if q.awaiting = true ∧ q.startDue = none then some (BitVec.ofNat 64 (nowAt s c + 1))
          else q.startDue)) ∧
    (q.job = some j → q.run = .running → q.finishing = true → q.trailing = 0 → coreQuiet (coreAt s c) = true →
      ∃ t, exec (.coreComplete c) s = .next t ∧ (regionAt t (regionOf c)).mgtOut = g.mgtOut ++ [{ core := c, job := j }] ∧
        (coreAt t c).seq.run = .idle ∧
        (coreAt t c).seq.job = none ∧ (jobAt t j).state = (jobAt s j).state ∧ (coreAt t c).skd.boom = (coreAt s c).skd.boom)

/-- The writes of units, one command each: in a core whose units may step, every result of the unit's kind that is due shows, in order
of tick and issue, the faults they bring fence their jobs, and no other result is touched (R45, R46, R110, R113, R125, R147, R174).
The Scaler writes its closed records that are due (R165). The steps of streams, one command each (R127, R135, R138, R140, R196, R197,
R223): every operation of the command's kind that has a step due takes it, in order of issue, where none meets an unmet wait. -/
def Obligations.UnitResultsLand : Prop :=
  ∀ (c : CoreId) (m : Fin 4) (d : Dir) (s : State), unitsStep s c = true →
    let r := regionOf c
    let lands (want : Eff → Bool) : Host.Outcome State Fault Refusal :=
      .next (settleFaults (regionOf c) ((dueResults want s c).foldl (fun u p => applyPend c p u) (withoutDue want s c)))
    exec (.accumulatorWrite c m) s = lands (fun e => match e with
      | .acc n _ _ _ _ _ => decide (n = m)
      | .ck n _ _ _ => decide (n = m)
      | .ckClear n _ _ => decide (n = m)
      | .aclr n _ _ => decide (n = m)
      | .rowSum n _ _ _ _ _ _ _ => decide (n = m)
      | _ => false) ∧
    exec (.checksumCompare c m) s = lands (fun e => match e with | .compare n _ _ _ _ => decide (n = m) | _ => false) ∧
    exec (.shadowWeightWrite c) s = lands (fun e => match e with | .shadow _ _ _ _ _ _ _ _ => true | _ => false) ∧
    exec (.vectorResultWrite c) s = lands (fun e => match e with
      | .vec _ _ => true | .sx _ _ _ => true | .sxflag _ _ _ => true | .counts _ _ => true | .tile _ _ _ none => true
      | _ => false) ∧
    exec (.wideRowAdd c) s = lands (fun e => match e with | .wide _ _ _ _ _ _ => true | _ => false) ∧
    exec (.scalerRecordWrite c) s = .next (setCore s c (sclDue (coreAt s c) (nowAt s c))) ∧
    (stepsClean s c →
      (let lines : Instr → Bool := fun i => match i with | .mvm _ _ => true | _ => false
       stepsFree lines c s → exec (.mvmLine c) s = .next (stepped lines c s)) ∧
      (let groups : Instr → Bool := fun i => match i with | .sld _ _ _ _ _ => true | _ => false
       stepsFree groups c s → exec (.sldGroupLoad c) s = .next (stepped groups c s)) ∧
      exec (.flitCapture c d) s = .next (stepped (fun i => match i with
        | .frcv _ e _ => decide (e = d)
        | .wld _ x => decide (x.src.val ≠ 0) && decide (wldDir x = d)
        | _ => false) c s) ∧
      (let reads : Instr → Bool := fun i => match i with | .fxin _ e _ => decide (e = d) | _ => false
       (∀ e ∈ coresOf r, stepsClean s e) → (∀ e ∈ coresOf r, e ≠ c → dueOps reads (coreAt s e) (nowAt s e) = []) → stepsFree reads c s →
        exec (.fxinRead r d) s = .next (stepped reads c s)) ∧
      (let puts : Instr → Bool := fun i => match i with | .sput _ _ => true | .kout _ _ => true | _ => false
       let s0 := runLate c (nowAt s c) s
       let s1 := settleFaults r s0
       (regionAt s0 r).waits = [] → (unitsStep s1 c = true → stepsFree puts c s1) →
        exec (.sputGroupWrite c) s = .next (if unitsStep s1 c = true then stepped puts c s1 else s1)))

/-- What a unit's result is when it shows: an accumulator element holds the value written and its class, saturated sums counted, and
every other element, the weights and the other arrays stay; a wide row's addends are added modulo 2^128 and its flags and counts
follow; a vector register's element holds the value written (R60, R68, R69, R71, R117, R145, R174). -/
def Obligations.UnitResultValues : Prop :=
  ∀ (k : Core) (m n : Fin 4) (bank w : Bool) (row col r2 c2 : Nat) (v : AccElem) (sat : Nat) (adds : List Int) (ovf nans : Nat)
    (nan : Bool) (x : VRegId) (i : Nat) (y : BitVec 32),
    let elem (k : Core) (m : Fin 4) (b : Bool) (r c : Nat) : AccElem := storeGet (bankOf (arrOf k m) b).elems (r * 128 + c)
    let k1 := effCore k (.acc m bank row col v sat)
    let k2 := effCore k (.wide w row adds ovf nans nan)
    let k3 := effCore k (.vec x [(i, y)])
    (storeWf (bankOf (arrOf k m) bank).elems = true → col < 128 → c2 < 128 →
      elem k1 m bank r2 c2 = (if r2 = row ∧ c2 = col then v else elem k m bank r2 c2) ∧
      k1.satCount = BitVec.ofNat 32 (Nat.min (k.satCount.toNat + sat) (2 ^ 32 - 1))) ∧
    (arrOf k1 m).active = (arrOf k m).active ∧ (n ≠ m → arrOf k1 n = arrOf k n) ∧ k1.tiles = k.tiles ∧ k1.vec = k.vec ∧
    (cellWf 0#128 (wideOf k w).elems = true → adds.length = 128 → c2 < 128 →
      cellGet 0#128 (wideOf k2 w).elems (r2 * 128 + c2) =
        cellGet 0#128 (wideOf k w).elems (r2 * 128 + c2) + (if r2 = row then BitVec.ofInt 128 (adds.getD c2 0) else 0)) ∧
    (wideOf k2 w).anchor = (wideOf k w).anchor ∧ (wideOf k2 w).nan = ((wideOf k w).nan || nan) ∧
    wideOf k2 (!w) = wideOf k (!w) ∧ k2.tiles = k.tiles ∧ k2.arrs = k.arrs ∧
    k2.wafOvf = BitVec.ofNat 32 (Nat.min (k.wafOvf.toNat + ovf) (2 ^ 32 - 1)) ∧
    (cellWf 0#32 (k.vec.regs.get x) = true → ∀ a, cellGet 0#32 (k3.vec.regs.get x) a =
      (if a = i then y else cellGet 0#32 (k.vec.regs.get x) a)) ∧
    (∀ z, z ≠ x → k3.vec.regs.get z = k.vec.regs.get z) ∧ k3.arrs = k.arrs ∧ k3.tiles = k.tiles

/-- The sum that a wide tile holds does not depend on the order in which rows are added to it (R69). -/
def Obligations.WideSumOrderFree : Prop :=
  ∀ (es : List (Nat × BitVec 128)) (r1 r2 : Nat) (a b : List Int), cellWf 0#128 es = true → a.length = 128 → b.length = 128 →
    wideElems (wideElems es r1 a) r2 b = wideElems (wideElems es r2 b) r1 a

namespace Sys2Proof.Machine

/-- Operation `o` is the only one of the kind `want` on core `c` that has a step due. -/
def onlyDue (want : Instr → Bool) (s : State) (c : CoreId) (o : Strm) : Prop := dueOps want (coreAt s c) (nowAt s c) = [o]

/-- Operation `o` of core `c` has moved on by one step between the two states. -/
def movedOn (c : CoreId) (o : Strm) (t : State) : Prop :=
  ∃ n ∈ (coreAt t c).ops, n.instr = o.instr ∧ n.issued = o.issued ∧ n.next = o.next + 1

end Sys2Proof.Machine

open Sys2Proof Sys2Proof.Machine

/-- One step of an operation in progress, one command for each unit (R127, R135, R138, R140, R196, R197): the MVM takes a weight line
from its queue, SLD a row group, FXIN the head of the inbound crossing, which reaches the entry position with one hop less, FRCV the
flit in its ring register, which stays there, and SPUT reads a row group that reaches its queue two ticks later. -/
def Obligations.StreamSteps : Prop :=
  ∀ (s : State) (c : CoreId) (o : Strm) (f : Flit) (d : Dir), stepsClean s c →
    let k := coreAt s c
    let now := nowAt s c
    let r := regionOf c
    (∀ x, onlyDue (fun i => match i with | .mvm _ _ => true | _ => false) s c o → o.instr = .mvm c x → mvmWait s c o x = none →
      mvmTakesScale k o = false ∨ x.q.val < 15 →
      ∃ t, exec (.mvmLine c) s = .next t ∧ movedOn c o t ∧ onlyCore c s t ∧
        (qOf (coreAt t c) x.q).headCount = (qOf k x.q).headCount + 1 ∧ (coreAt t c).tiles = k.tiles ∧ (coreAt t c).arrs = k.arrs) ∧
    (∀ q u g m, onlyDue (fun i => match i with | .sld _ _ _ _ _ => true | _ => false) s c o → o.instr = .sld c q u g m →
      sldWait s c o q u g m = none →
      (let cfg := (tileOf (opView o now k.tiles k) u).cfg
       let rows := groupOf cfg g.val (m.val + 1) o.next
       cfgMx cfg = false ∨ q.val < 15 →
       ∃ t, exec (.sldGroupLoad c) s = .next t ∧ movedOn c o t ∧ onlyCore c s t ∧
        qOf (coreAt t c) q = qTake (qOf k q) (rows.length * cfgRowBytes cfg) ∧
        (∃ bytes scales nr, { due := now + 2, issued := o.issued, eff := .tile u bytes scales nr } ∈ (coreAt t c).pend) ∧
        (coreAt t c).tiles = k.tiles ∧ (coreAt t c).store = k.store)) ∧
    (∀ rest n, (∀ e ∈ coresOf r, stepsClean s e) →
      onlyDue (fun i => match i with | .fxin _ e _ => decide (e = d) | _ => false) s c o → o.instr = .fxin c d n →
      (∀ e ∈ coresOf r, e ≠ c →
        dueOps (fun i => match i with | .fxin _ x _ => decide (x = d) | _ => false) (coreAt s e) (nowAt s e) = []) →
      inboundOf (regionAt s r) d = f :: rest → flitOk f = true → ringOf (coreAt s (entryPos r d)) d = none →
      ∃ t, exec (.fxinRead r d) s = .next t ∧ movedOn c o t ∧ inboundOf (regionAt t r) d = rest ∧
        ringOf (coreAt t (entryPos r d)) d = some { f with ttl := f.ttl - 1, exited := false }) ∧
    (∀ u, onlyDue (fun i => match i with
        | .frcv _ e _ => decide (e = d)
        | .wld _ x => decide (x.src.val ≠ 0) && decide (wldDir x = d)
        | _ => false) s c o → o.instr = .frcv c d u → ringOf k d = some f → flitOk f = true →
      ∃ t, exec (.flitCapture c d) s = .next t ∧ movedOn c o t ∧ onlyCore c s t ∧ ringOf (coreAt t c) d = some f ∧
        (coreAt t c).flmCaptured = BitVec.ofNat 32 (Nat.min (k.flmCaptured.toNat + 1) (2 ^ 32 - 1)) ∧
        ∃ n ∈ (coreAt t c).ops, n.issued = o.issued ∧ n.bytes = o.bytes ++ f.payload) ∧
    (∀ x, (∀ p ∈ k.pend, isLate p.eff = false ∨ now < p.due) →
      onlyDue (fun i => match i with | .sput _ _ => true | .kout _ _ => true | _ => false) s c o → o.instr = .sput c x →
      ∃ t, exec (.sputGroupWrite c) s = .next t ∧ movedOn c o t ∧ onlyCore c s t ∧
        (∃ bs, { due := now + 2, issued := o.issued, eff := .qput x.q bs } ∈ (coreAt t c).pend) ∧
        (coreAt t c).tiles = k.tiles ∧ (coreAt t c).skd = k.skd)

/-- Flits on the ring (R134, R136, R138): a flit due for injection enters the sender's ring register and is counted; the flit at an
exit is written into the next region's crossing once; a region of bypass positions takes the head of its inbound crossing, with one
hop less. -/
def Obligations.FlitMovement : Prop :=
  ∀ (s : State) (r : RegionId) (c : CoreId) (d : Dir) (f : Flit) (rest : List Flit) (p : Pend),
    (stepsClean s c → dueResults (fun e => match e with | .inject x _ => decide (x = d) | _ => false) s c = [p] →
      p.eff = .inject d f → dueOps (fun i => match i with | .fsend _ x => decide (x.dir = d) | _ => false) (coreAt s c) (nowAt s c) = [] →
      ringOf (coreAt s c) d = none →
      ∃ t, exec (.fsendFlitInject c d) s = .next t ∧ onlyCore c s t ∧ ringOf (coreAt t c) d = some f ∧
        (coreAt t c).flmSent = BitVec.ofNat 32 (Nat.min ((coreAt s c).flmSent.toNat + 1) (2 ^ 32 - 1))) ∧
    (regionTicks s r = true → (regionAt s r).hold = none → exitFull s r d = false → exitDue s r d = true →
      ringOf (coreAt s (exitPos r d)) d = some f →
      ∃ t, exec (.flitExitWrite r d) s = .next t ∧
        inboundOf (regionAt t (nextRegion r d)) d = inboundOf (regionAt s (nextRegion r d)) d ++ [{ f with exited := false }] ∧
        ringOf (coreAt t (exitPos r d)) d = some { f with exited := true } ∧
        exitDue t r d = false) ∧
    (autoReady s r d = true → inboundOf (regionAt s r) d = f :: rest → flitOk f = true →
      ∃ t, exec (.autoForward r d) s = .next t ∧ inboundOf (regionAt t r) d = rest ∧
        ringOf (coreAt t (entryPos r d)) d = some { f with ttl := f.ttl - 1, exited := false } ∧
        ∀ e, e ≠ entryPos r d → coreAt t e = coreAt s e)

/-- The Skidder of a core at work (R188, R189, R192, R200): a released descriptor starts, a started one takes its handle, a transfer
issues and counts as outstanding, a gather takes its next index value, and the handle of a complete descriptor passes on. -/
def Obligations.SkidderProgress : Prop :=
  ∀ (s : State) (c : CoreId) (qi : QId),
    let k := coreAt s c
    let q := qOf k qi
    (∀ r, startReady s c qi = some r → descCheck s k q (relWords k qi r) r.base = none →
      ∃ t, exec (.descriptorStart c qi) s = .next t ∧ onlyCore c s t ∧ (qOf (coreAt t c) qi).rel = q.rel.drop 1 ∧
        (qOf (coreAt t c) qi).started = q.started + 1 ∧
        (∃ a, (qOf (coreAt t c) qi).act = q.act ++ [a] ∧ a.seqNo = r.seqNo ∧ a.desc = relWords k qi r ∧ a.base = r.base ∧ a.issued = 0) ∧
        (∀ x, x ≠ qi → qOf (coreAt t c) x = qOf k x)) ∧
    (∀ a h rest, handleNext q = some a → boomOf k (dBin a.desc) = h :: rest → skdRuns k q = true →
      (dKind a.desc = 3 ∨ (dBytes a.desc ≤ handleSize h ∧
        (landsInBuffer a.desc = true → handleAddr h + dBytes a.desc ≤ storeSize) ∧
        ((dBuf a.desc ≠ 2 ∧ dKind a.desc ≠ 2) ∨ rowsAllowed s k a.desc a.base (some h) = true))) →
      ∃ t, exec (.handleTake c qi) s = .next t ∧ onlyCore c s t ∧ boomOf (coreAt t c) (dBin a.desc) = rest ∧
        (qOf (coreAt t c) qi).entries = q.entries ∧
        ∃ b ∈ (qOf (coreAt t c) qi).act, b.seqNo = a.seqNo ∧ b.handle = some h ∧ b.handleTaken = true) ∧
    (∀ a p, issueReady s c = some (qi, a, p) →
      ∃ t, exec (.transferIssue c) s = .next t ∧ onlyCore c s t ∧ (qOf (coreAt t c) qi).xfers.length = q.xfers.length + 1 ∧
        (qOf (coreAt t c) qi).xferId = q.xferId + 1 ∧
        (coreAt t c).skd.lastIssue = some (BitVec.ofNat 64 (periodAt s c)) ∧ (coreAt t c).seq = k.seq ∧
        (coreAt t c).tiles = k.tiles ∧ (memLocal a.desc = true → (coreAt t c).skd.requests = k.skd.requests)) ∧
    (∀ a e, issuing k q = some a → gatherKnown k q a.seqNo = some e → dKind a.desc = 3 → a.item = none → a.itemsTaken < e →
      4 ≤ qAvail (qOf k (dIdxq a.desc)) (periodAt s c) → skdRuns k q = true → dBuf a.desc = 0 →
      (let v := leNat (qPeek k (dIdxq a.desc) 4)
       runAllowed s k a.desc (baseAddr a.desc a.base (memHandle a.desc a.handle) v) (dBytes a.desc) = true →
       ∃ t, exec (.gatherIndexTake c qi) s = .next t ∧ onlyCore c s t ∧
        ∃ b ∈ (qOf (coreAt t c) qi).act, b.seqNo = a.seqNo ∧ b.item = some (BitVec.ofNat 32 v) ∧ b.itemsTaken = a.itemsTaken + 1)) ∧
    (∀ a, q.act.find? (fun a => a.donePeriod.isSome && dBoutEn a.desc && a.handleTaken) = some a →
      (a.donePeriod.getD 0).toNat < periodAt s c → (boomOf k (dBout a.desc)).length < 16 →
      ∃ t, exec (.boutPush c qi) s = .next t ∧ onlyCore c s t ∧
        boomOf (coreAt t c) (dBout a.desc) = boomOf k (dBout a.desc) ++ [a.handle.getD 0] ∧
        (∀ b ∈ (qOf (coreAt t c) qi).act, b.seqNo ≠ a.seqNo))

/-- The memory's side of a stream queue (R181, R198, R201, R203): a read transfer whose pieces have been served lands and is no longer
outstanding, one of a queue that was reset since is discarded, a write transfer that is accepted counts towards SFENCE, and a queue that has been credit-blocked past its limit fences
its job with CREDIT_STALL and records the stall. -/
def Obligations.SkidderMemorySide : Prop :=
  ∀ (s : State) (c : CoreId) (qi : QId) (id : Nat) (x : Xfer) (a : ActDesc),
    let k := coreAt s c
    let q := qOf k qi
    (xferOf q id = none → exec (.returnLand c qi id) s = .next s ∧ exec (.writeAccept c qi id) s = .next s) ∧
    (xferOf q id = some x → xferReady x = false → exec (.returnLand c qi id) s = .next s ∧ exec (.writeAccept c qi id) s = .next s) ∧
    (xferOf q id = some x → x.write = false → xferReady x = true → x.dropped = true ∨ actOf q x.desc = none →
      exec (.returnLand c qi id) s = .next (setCore s c (modQ k qi (fun q => dropXfer q id)))) ∧
    (xferOf q id = some x → x.write = false → xferReady x = true → x.dropped = false → actOf q x.desc = some a →
      (dKind a.desc = 4 → dCounted a.desc = true → a.count = none →
        leNat ((xferBytes k x).take 4) ≤ (dLength a.desc - 1) * 8) →
      ∃ t, exec (.returnLand c qi id) s = .next t ∧ onlyCore c s t ∧ xferOf (qOf (coreAt t c) qi) id = none ∧
        (coreAt t c).tiles = k.tiles ∧ (coreAt t c).seq = k.seq ∧ (qOf (coreAt t c) qi).rel = q.rel) ∧
    (xferOf q id = some x → x.write = true → xferReady x = true → x.dropped = false →
      ∃ t, exec (.writeAccept c qi id) s = .next t ∧ onlyCore c s t ∧ xferOf (qOf (coreAt t c) qi) id = none ∧
        (qOf (coreAt t c) qi).accepted = q.accepted + x.len ∧ (x.inStore = false → (coreAt t c).store = k.store)) ∧
    (∀ kind waited j, creditLimit k < q.cperiods → creditBlock k qi (periodAt s c) = some (kind, waited) →
      jobOf s c = some j → canFence (jobAt s j) = true →
      ∃ t, exec (.creditWatchdog c qi) s = .next t ∧
        (coreAt t c).skd.stall = { queue := BitVec.ofNat 4 qi.val, waited := waited, kind := kind,
                                   period := BitVec.ofNat 32 (periodAt s c) } ∧
        (jobAt t j).state = .fencing ∧ (jobAt t j).status = .creditStall)

open Sys2Proof Sys2Proof.Machine

/-- What reaches a channel endpoint (R208, R214, R216, R217, R224): a message to an open receive end of the peer and generation it
carries is held in register mode and counts in flag mode; credits raise a send end's credits up to the depth; a close notice marks its
peer closed; a discard notice of a channel that tolerates closing is counted. -/
def Obligations.ChannelArrivals : Prop :=
  ∀ (s : State) (c : CoreId) (e : Fin 32) (m : ChMsg),
    let k := coreAt s c
    let x := epOf k e
    let arrives (want : ChMsgKind → Bool) : Prop := nextItem (mayArrive want (nowAt s c)) [] x.transit = some m
    let fromPeer : Prop := x.isOpen = true ∧ peerIs s x.word m = true
    (∀ d, arrives (fun k => match k with | .message _ => true | _ => false) → m.kind = .message d → fromPeer →
      chRecv x.word = true → m.gen = x.gen → chLand x.word = 0 →
      ∃ t, exec (.messageLand c e) s = .next t ∧ (epOf (coreAt t c) e).held = x.held ++ [d] ∧
        (epOf (coreAt t c) e).occ = x.occ + 1 ∧ (epOf (coreAt t c) e).transit = dropItem m x.transit ∧
        (coreAt t c).store = k.store ∧ (coreAt t c).seq = k.seq) ∧
    (∀ d, arrives (fun k => match k with | .message _ => true | _ => false) → m.kind = .message d → fromPeer →
      chRecv x.word = true → m.gen = x.gen → chLand x.word = 4 → x.held = [] → chAutoAck x.word = false →
      ∃ t, exec (.messageLand c e) s = .next t ∧ (epOf (coreAt t c) e).flag = x.flag + 1 ∧
        (epOf (coreAt t c) e).occ = x.occ + 1 ∧ (epOf (coreAt t c) e).held = [] ∧ (coreAt t c).store = k.store) ∧
    (∀ n depth, arrives (fun k => match k with | .credit _ _ => true | _ => false) → m.kind = .credit n depth → fromPeer →
      chRecv x.word = false → x.credits.toNat ≤ depth → depth ≤ 64 →
      ∃ t, exec (.creditArrive c e) s = .next t ∧ onlyCore c s t ∧
        (epOf (coreAt t c) e).credits.toNat = Nat.min (x.credits.toNat + n) depth ∧
        (epOf (coreAt t c) e).creditGen = m.gen ∧ { coreAt t c with eps := k.eps } = k) ∧
    (arrives (fun k => match k with | .close => true | _ => false) → m.kind = .close → fromPeer → chRecv x.word = false →
      ∃ t, exec (.closeNotice c e) s = .next t ∧ onlyCore c s t ∧
        epOf (coreAt t c) e = { x with transit := dropItem m x.transit, peerClosed := true } ∧
        { coreAt t c with eps := k.eps } = k) ∧
    (∀ landed, arrives (fun k => match k with | .discard _ => true | _ => false) → m.kind = .discard landed → fromPeer →
      chRecv x.word = false → chTolerate x.word = true → (regionAt s (regionOf c)).faults = [] →
      ∃ t, exec (.discardNotice c e) s = .next t ∧ onlyCore c s t ∧
        (coreAt t c).chDiscards = BitVec.ofNat 32 (Nat.min (k.chDiscards.toNat + 1) (2 ^ 32 - 1)) ∧
        (epOf (coreAt t c) e).unsettled = (if landed = true then x.unsettled else x.unsettled - 1) ∧
        { coreAt t c with eps := k.eps, chDiscards := k.chDiscards } = k)

/-- Combining queues of a region that does not hold (R33, R221, R222): a narrow contribution's words are added to its accumulators six ticks later, and a wide
contribution's next row, once its bytes are readable, to its wide tile; nothing else of the core changes but what feeds the addition. -/
def Obligations.CombiningSteps : Prop :=
  ∀ (s : State) (c : CoreId) (q : Fin 8) (d : Desc) (en : CombEntry), (regionAt s (regionOf c)).faults = [] →
    (regionAt s (regionOf c)).hold = none →
    let k := coreAt s c
    let x := combOf k q
    (narrowReady k q = some d → narrowFault x d = none →
      let p : Pend := { due := nowAt s c + 6, issued := issueKey (nowAt s c) 4, eff := .comb q (narrowAdds x d) }
      exec (.combineNarrow c q) s = .next (setCore s c { k with
        combs := k.combs.set q.val { x with busy := true } q.isLt
        pend := pendInsert p k.pend })) ∧
    (wideReady k q = some en → wideFault (wideOf k x.wt) en.words = none →
      wideRowBytes en.words ≤ qAvail (qOf k x.sq) (periodAt s c) →
      ∃ t, exec (.combineWideRow c q) s = .next t ∧ onlyCore c s t ∧
        (combOf (coreAt t c) q).busy = true ∧
        (∃ e2, (combOf (coreAt t c) q).entries = e2 :: x.entries.drop 1 ∧ e2 = { en with rowsDone := en.rowsDone + 1 }) ∧
        qOf (coreAt t c) x.sq = qTake (qOf k x.sq) (wideRowBytes en.words) ∧
        (∃ (p : Pend) (adds : List Int) (ovf nans : Nat) (nan : Bool), p ∈ (coreAt t c).pend ∧ p.due = nowAt s c + 6 ∧
          p.eff = .combWide x.wt (fieldOf en.words.word0.toNat 2 7 + en.rowsDone) adds ovf nans nan ∧ adds.length = 128) ∧
        (coreAt t c).wide = k.wide ∧ (coreAt t c).tiles = k.tiles ∧ (coreAt t c).store = k.store)

/-- The addition of a narrow contribution: each of its up to three words is added modulo 2^64 to the word at its place in the local
store, every byte outside those words stays, and the entry leaves and is counted (R221). -/
def Obligations.NarrowAdditionInStore : Prop :=
  ∀ (k : Core) (q : Fin 8) (a : Nat) (v : Word) (r : CombQ), memWf k.store = true → r = combOf k q →
    let t := effCore k (.comb q [(a, v)])
    memNat t.store a 8 = (memNat k.store a 8 + v.toNat) % 2 ^ 64 ∧
    (∀ b, b < a ∨ a + 8 ≤ b → memGet t.store b = memGet k.store b) ∧
    combOf t q = { r with entries := r.entries.drop 1, busy := false, done := r.done + 1 } ∧
    { t with store := k.store, combs := k.combs } = k ∧ memWf t.store = true

/-- Stops (R283, R284): an armed match stops the job's running cores in its region whose part has not ended, sets FIRED and clears EN;
once every such member core stands still the job is STOPPED. -/
def Obligations.JobStops : Prop :=
  ∀ (s : State) (r : RegionId) (j : JobId),
    (stopMatches s r = true →
      ∃ t, exec (.stopAtTickMatch r) s = .next t ∧ (regionAt t r).stopFired = true ∧ (regionAt t r).stopEn = false ∧
        (regionAt t r).tick = (regionAt s r).tick ∧
        (∀ c, regionOf c = r → (coreAt s c).seq.run = .running → partOver (coreAt s c).seq = false →
          (∃ i, (coreAt s c).seq.job = some i ∧ i.val = (regionAt s r).stopJob.toNat) → (coreAt t c).seq.run = .stopped) ∧
        t.jobs = s.jobs ∧ t.dram = s.dram) ∧
    ((jobAt s j).state = .running → (∃ c ∈ membersOf s j, partOver (coreAt s c).seq = false) →
      (∀ c ∈ membersOf s j, partOver (coreAt s c).seq = true ∨ (coreAt s c).seq.run = .stopped) →
      ∃ t, exec (.jobStopped j) s = .next t ∧ jobAt t j = { jobAt s j with state := .stopped } ∧
        (∀ i, i ≠ j → jobAt t i = jobAt s i) ∧ t.cores = s.cores ∧ t.regions = s.regions)

/-- A job's life in the Landing (R261, R263, R264, R265): a READY job whose turn it is and that no check refuses starts on all its
cores once the regions it needs run; a job whose cores have all reported retires DONE; a FENCING job retires FENCED, and its cores
run no job any more. -/
def Obligations.JobLifeCycle : Prop :=
  ∀ (s : State) (j : JobId) (i : Image),
    let b := jobAt s j
    (startsAllowed s = true → jobTurn s j = true → startRefusal s j = none → imageAt s b.slot.toNat = some i →
      (jobRegions s b).all (fun n => powAt s n == .running) = true →
      ∃ t, exec (.jobStart j) s = .next t ∧ (jobAt t j).state = .running ∧ (jobAt t j).startPeriod = nowPeriod s ∧
        (∀ c ∈ jobCores s b, ((logicalOf s c).bind (sectionOf i)).isSome = true →
          (coreAt t c).seq.job = some j ∧ (coreAt t c).seq.run = .running ∧ (coreAt t c).seq.firstStart = true ∧
          (coreAt t c).skd.windows = i.windows) ∧
        (∀ c, c ∉ jobCores s b → coreAt t c = coreAt s c) ∧ t.dram = s.dram) ∧
    (jobAllDone s j = true →
      ∃ t, exec (.jobDone j) s = .next t ∧ (jobAt t j).state = .done ∧
        (jobAt t j).status = (if jobOverflow s j = true then .windowOverflow else .ok) ∧ (jobAt t j).endPeriod = nowPeriod s ∧
        (jobAt t j).evt = b.notify ∧ t.cores = s.cores) ∧
    (b.state = .fencing →
      ∃ t, exec (.jobFenced j) s = .next t ∧ (jobAt t j).state = .fenced ∧ (jobAt t j).status = b.status ∧
        (jobAt t j).fence = b.fence ∧ (jobAt t j).endPeriod = nowPeriod s ∧
        (∀ c ∈ jobCores s b, (coreAt t c).seq.job = none ∧ (coreAt t c).seq.run = .fenced ∧ (coreAt t c).ops = [] ∧
          (coreAt t c).pend = []) ∧ t.dram = s.dram)

/-- A fault fences its job (R265): the job becomes FENCING with the fault's status and details, every core that runs it stands still,
and no other job and no other core changes. -/
def Obligations.FaultFencesItsJob : Prop :=
  ∀ (s : State) (c : CoreId) (i : FaultInfo) (j : JobId), jobOf s c = some j → canFence (jobAt s j) = true →
    let t := fenceCore c i s
    (jobAt t j).state = .fencing ∧ (jobAt t j).status = i.status ∧ (jobAt t j).fence.detail0 = i.detail0 ∧
    (jobAt t j).fence.detail1 = i.detail1 ∧ (jobAt t j).fence.region = i.region ∧
    (∀ n, n ≠ j → jobAt t n = jobAt s n) ∧
    (∀ d, (coreAt s d).seq.job = some j → coreAt t d = { coreAt s d with seq := { (coreAt s d).seq with run := .fenced } }) ∧
    (∀ d, (coreAt s d).seq.job ≠ some j → coreAt t d = coreAt s d) ∧
    { t with jobs := s.jobs, cores := s.cores } = s

/-- A job's successors (R260): a successor's outstanding predecessors no longer name a job that retires DONE, and one that waited for
nothing else becomes READY. -/
def Obligations.DoneReleasesSuccessors : Prop :=
  ∀ (s : State) (j k : JobId), jobAllDone s j = true → k ≠ j → (jobAt s k).state = .waiting → j ∈ (jobAt s k).preds →
    ((jobAt s k).preds.length = (jobAt s k).pred.toNat) → cellWf freeJob s.jobs = true →
    ∃ t, exec (.jobDone j) s = .next t ∧ j ∉ (jobAt t k).preds ∧
      ((∀ p ∈ (jobAt s k).preds, p = j) → (jobAt t k).state = .ready) ∧
      ((∃ p ∈ (jobAt s k).preds, p ≠ j) → (jobAt t k).state = .waiting)

namespace Sys2Proof.Machine

/-- The packet commands with a command of their own: header, opcode, and the result bytes of a packet whose reserved fields are
used (spec/12, Table 5). -/
def packetOf : Instr → Option (PktHdr × Nat × BitVec 192)
  | .loadConfigLoad h _ _ _ _ _ => some (h, 0x01, 0)
  | .loadConfigUnload h _ => some (h, 0x01, 0)
  | .submitGraph h _ _ => some (h, 0x02, resultOf [(10, 0xFFFF)])
  | .startRelease h _ => some (h, 0x03, 0)
  | .startResume h _ => some (h, 0x03, 0)
  | .commitOpen h _ _ _ _ => some (h, 0x10, noCore)
  | .commitStage h _ _ _ => some (h, 0x10, noCore)
  | .commitCommit h _ => some (h, 0x10, noCore)
  | .commitDiscard h _ => some (h, 0x10, noCore)
  | .stepAdvance h _ _ => some (h, 0x11, 0)
  | .snapshotPlan h _ => some (h, 0x18, 0)
  | .snapshotWaitCaptured h => some (h, 0x18, 0)
  | .snapshotWaitComplete h => some (h, 0x18, 0)
  | .restoreLocal h _ => some (h, 0x19, 0)
  | .restoreVerify h _ _ => some (h, 0x19, 0)
  | .restoreForward h _ _ _ _ _ => some (h, 0x19, 0)
  | .fenceCancel h _ => some (h, 0x20, 0)
  | .fenceStop h _ => some (h, 0x20, 0)
  | .wipeDram h _ _ => some (h, 0x21, 0)
  | .wipeOnDie h _ => some (h, 0x21, 0)
  | .setClock h _ _ => some (h, 0x22, 0)
  | .setWheel h _ _ => some (h, 0x23, 0)
  | .queryRegister h _ => some (h, 0x30, 0)
  | .queryJobEntry h _ => some (h, 0x30, 0)
  | _ => none

/-- The reply that a packet of opcode `op` leaves in the internal store. -/
def replyOf (op : Nat) (h : PktHdr) (st : Status) (res : BitVec 192) : Reply :=
  { status := st, opcode := BitVec.ofNat 8 op, kind := 0, tag := h.tag, merged := 0, result := res, irq := h.irq }

/-- `s` with the packet at the ring's head taken and its reply in the internal store, and nothing else changed. -/
def repliedTo (op : Nat) (h : PktHdr) (st : Status) (res : BitVec 192) (s : State) : State :=
  { s with rings := { s.rings with head := s.rings.head + 1, store := s.rings.store ++ [replyOf op h st res] } }

/-- The rings once a packet that does not reply yet has been taken: it waits. -/
def waitsFor (op : Nat) (h : PktHdr) (a : Awaits) (r : Rings) : Rings :=
  { r with head := r.head + 1, waiting := r.waiting ++ [{ opcode := BitVec.ofNat 8 op, tag := h.tag, irq := h.irq, awaits := a }] }

/-- The packet is taken: the firmware takes packets, and none of its reserved fields is used. -/
def takes (h : PktHdr) (s : State) : Prop := canTake h s = true ∧ h.rsv = false

end Sys2Proof.Machine

open Sys2Proof Sys2Proof.Machine

/-- When a packet is taken (R251, R253, R366), and what one with a reserved field in use, or an undefined opcode, is answered (R252):
BAD_PARAM or BAD_OPCODE and nothing else. A packet whose ring entry cannot be read stops the ring with DMA_ERR (R251); where the
firmware does not take packets, nothing changes. -/
def Obligations.PacketTaking : Prop :=
  ∀ (i : Instr) (h : PktHdr) (op : Nat) (none_ : BitVec 192) (o : Byte) (s : State),
    (canTake h s = true ↔ mayRead h s = true ∧ h.readOk = true) ∧
    (mayRead h s = true ↔
      powAt s 26 = .running ∧ powAt s 27 = .running ∧ s.rings.enable = true ∧ s.rings.stopped = false ∧ s.host.linkUp = true ∧
        (s.ident.ideOnly = true → ∃ k, s.spdm.ide.get 0 = some k) ∧ s.rings.head ≠ s.rings.tail ∧ s.rings.store.length < 256 ∧
        (h.ordered = true → s.rings.waiting = [])) ∧
    (packetOf i = some (h, op, none_) →
      (mayRead h s = false → exec i s = .next s) ∧
      (mayRead h s = true → h.readOk = false →
        exec i s = .next { s with rings := { s.rings with dmaErr := true, stopped := true } }) ∧
      (canTake h s = true → h.rsv = true → exec i s = .next (repliedTo op h .badParam none_ s))) ∧
    (opcodeKnown o = false → canTake h s = true →
      exec (.undefinedOpcodePacket h o) s = .next (repliedTo o.toNat h .badOpcode 0 s))

/-- Images and graphs (R258, R260): a load that passes every check puts the image into its slot and no other, an unload empties the
slot, and a graph that passes every check enters all its nodes. A node that is entered is HELD, READY where no predecessor is
outstanding, else WAITING for those that are not DONE; one with a predecessor fenced or cancelled is CANCELLED because of it; no other
entry changes. `u` is the state with the packet taken. -/
def Obligations.ImagesAndGraphs : Prop :=
  ∀ (h : PktHdr) (addr len wset : Word) (slot count : BitVec 16) (i : Image) (s : State), takes h s →
    let u := takeHead s
    (slotUsed u slot.toNat = false → slot.toNat < 1024 → parseImage u addr.toNat len.toNat wset.toNat = some i →
      imageCheck u slot.toNat i = none →
      exec (.loadConfigLoad h addr len slot wset false) s = .next
        { repliedTo 0x01 h .ok (resultOf [(8, slot.toNat), (10, i.profile)]) s with
          images := s.images.filter (fun e => decide (e.1 ≠ slot.toNat)) ++ [(slot.toNat, i)] }) ∧
    (slotUsed u slot.toNat = false → slot.toNat < 1024 →
      exec (.loadConfigUnload h slot) s = .next
        { repliedTo 0x01 h .ok (resultOf [(8, slot.toNat)]) s with
          images := s.images.filter (fun e => decide (e.1 ≠ slot.toNat)) }) ∧
    (let nodes := (List.range count.toNat).map (fun n => parseNode (dramRead u (addr.toNat + 64 * n) 64))
     addr.toNat % 64 = 0 → 0 < count.toNat → count.toNat ≤ 4096 → isDram u addr.toNat (64 * count.toNat) = true →
      graphCheck u 0 [] nodes = none →
      ∃ t, exec (.submitGraph h addr count) s = .next t ∧ t.jobs = (nodes.foldl enterNode u).jobs ∧
        t.rings = (repliedTo 0x02 h .ok (resultOf [(8, count.toNat), (10, 0xFFFF)]) s).rings ∧
        { t with jobs := s.jobs, rings := s.rings } = s) ∧
    (∀ x : GraphNode,
      let t := enterNode s x
      let left := x.preds.filter (fun p => decide ((jobAt s p).state ≠ .done))
      let dead (p : JobId) : Prop := (jobAt s p).state = .fenced ∨ (jobAt s p).state = .cancelled
      (∀ j, j ≠ x.index → jobAt t j = jobAt s j) ∧
      ((∀ p ∈ x.preds, ¬ dead p) →
        (jobAt t x.index).state = (if x.hold = true then .held else if left = [] then .ready else .waiting) ∧
        (jobAt t x.index).preds = left ∧ (jobAt t x.index).tag = x.tag ∧ (jobAt t x.index).cores = x.cores ∧
        (jobAt t x.index).slot = BitVec.ofNat 10 x.slot ∧ (jobAt t x.index).notify = x.notify ∧ (jobAt t x.index).evt = false) ∧
      ((∃ p ∈ x.preds, dead p) →
        (jobAt t x.index).state = .cancelled ∧ (jobAt t x.index).status = .cancelled ∧ (jobAt t x.index).evt = x.notify ∧
        ∃ p ∈ x.preds, dead p ∧ (jobAt t x.index).fence.detail0 = BitVec.ofNat 32 p.val))

/-- START and FENCE (R267, R285). A HELD job is released; a STOPPED one resumes on every core; cancelling a job that has not started
makes it CANCELLED, cancelling one that has, FENCING, the packet waiting for its retirement; a stop halts every core whose part of the
job is not over, and waits. -/
def Obligations.StartAndFencePackets : Prop :=
  ∀ (h : PktHdr) (j : JobId) (s : State), takes h s →
    let b := jobAt s j
    (b.state = .held →
      exec (.startRelease h j) s = .next (setJob (repliedTo 0x03 h .ok 0 s) j
        { b with state := if b.pred = 0 then .ready else .waiting })) ∧
    (b.state = .stopped →
      ∃ t, exec (.startResume h j) s = .next t ∧ (jobAt t j) = { b with state := .running } ∧
        (∀ c ∈ membersOf s j, (coreAt s c).seq.run = .stopped → (coreAt t c).seq.run = .running) ∧
        (∀ c, c ∉ membersOf s j → coreAt t c = coreAt s c) ∧ t.regions = s.regions ∧
        t.rings = (repliedTo 0x03 h .ok 0 s).rings) ∧
    (b.state = .held ∨ b.state = .waiting ∨ b.state = .ready →
      ∃ t, exec (.fenceCancel h j) s = .next t ∧ (jobAt t j).state = .cancelled ∧ (jobAt t j).status = .cancelled ∧
        (jobAt t j).fence.detail0 = 0xFFFF ∧ (jobAt t j).evt = b.notify ∧ t.cores = s.cores ∧
        t.rings = (repliedTo 0x20 h .ok 0 s).rings) ∧
    (b.state = .running ∨ b.state = .stopped →
      ∃ t, exec (.fenceCancel h j) s = .next t ∧ (jobAt t j).state = .fencing ∧ (jobAt t j).status = .cancelled ∧
        (jobAt t j).fence.detail0 = 0xFFFF ∧ (∀ c ∈ membersOf s j, (coreAt t c).seq.run = .fenced) ∧
        (∀ c, c ∉ membersOf s j → coreAt t c = coreAt s c) ∧ t.rings = waitsFor 0x20 h (.fence j) s.rings) ∧
    (b.state = .running →
      ∃ t, exec (.fenceStop h j) s = .next t ∧ t.jobs = s.jobs ∧
        (∀ c ∈ membersOf s j, (coreAt s c).seq.run = .running → partOver (coreAt s c).seq = false →
          (coreAt t c).seq.run = .stopped) ∧
        (∀ c ∈ membersOf s j, partOver (coreAt s c).seq = true → coreAt t c = coreAt s c) ∧
        (∀ c, c ∉ membersOf s j → coreAt t c = coreAt s c) ∧ t.rings = waitsFor 0x20 h (.fence j) s.rings)

/-- Commit groups as the host builds them (R268, R269, R272): open, stage, commit, discard and STEP_ADVANCE. `u` is the state with the
packet taken. A list of memory writes alone stages no register; a group with nothing staged commits at once. -/
def Obligations.CommitPackets : Prop :=
  ∀ (h : PktHdr) (g : Fin 16) (mask journal addr : Word) (jlen : BitVec 32) (count : BitVec 16) (s : State), takes h s →
    let u := takeHead s
    let x := groupAt s g
    let done (op : Nat) (res : BitVec 192) (y : Group) : Host.Outcome State Fault Refusal :=
      .next (modGroup (repliedTo op h .ok res s) g (fun _ => y))
    (x.state ≠ .isOpen → groupBusy x = false →
      (∀ l ∈ bitList 64 mask.toNat,
        (s.groups.toList.filter (fun y => y.state == .isOpen && isMember y l)).length < 2 ∧ l < s.activeCores.toNat) →
      isDram u journal.toNat jlen.toNat = true → clearOfWindows u journal.toNat jlen.toNat = true →
      exec (.commitOpen h g mask journal jlen) s = done 0x10 noCore
        { x with state := .isOpen, mask := mask, journal := journal.toNat, journalLen := jlen.toNat, journalUsed := 0, regs := []
                 mems := [], prepared := [], applied := [], kids := [], busy := false, reported := false, applyAt := none }) ∧
    (let es := (List.range count.toNat).map (fun n => parseStage u (addr.toNat + 32 * n))
     x.state = .isOpen → 0 < count.toNat → count.toNat ≤ 1024 → isDram u addr.toNat (32 * count.toNat) = true →
      (∀ e ∈ es, stageBad u x e = false ∧ e.isMem = false) → stageOver x (stagedRegs es) [] = false →
      stageTwice (x.regs ++ stagedRegs es) = false → (stagedRegs es).any (stepPast u) = false →
      exec (.commitStage h g addr count) s = done 0x10 noCore { x with regs := x.regs ++ stagedRegs es }) ∧
    (x.state = .isOpen → x.regs = [] → x.mems = [] → fabricWide s g = false →
      exec (.commitCommit h g) s = done 0x10 noCore { x with state := .committed, status := .ok }) ∧
    (x.state = .isOpen → (x.regs ≠ [] ∨ x.mems ≠ [] ∨ fabricWide s g = true) →
      exec (.commitCommit h g) s = .next (modGroup { s with rings := waitsFor 0x10 h (.commit g) s.rings } g (fun _ =>
        { x with state := .preparing, prepared := [], applied := [], reported := false, applyAt := none }))) ∧
    (x.state = .isOpen →
      exec (.commitDiscard h g) s = done 0x10 noCore { x with state := .closed, regs := [], mems := [], journalUsed := 0 }) ∧
    (let steps : List StagedReg := (bitList 64 mask.toNat).map (fun l => { core := some l, off := 0x328, value := 0, step := true })
     x.state = .isOpen → (∀ l ∈ bitList 64 mask.toNat, isMember x l = true) → stageOver x steps [] = false →
      stageTwice (x.regs ++ steps) = false → steps.any (stepPast u) = false →
      exec (.stepAdvance h g mask) s = done 0x11 0 { x with regs := x.regs ++ steps })

/-- A group's prepare, decision and abort (R270, R271): a member whose job is not being fenced and that passes the checks is prepared;
with all of them prepared the group applies; a member that has not answered in time aborts the group, which drops its staged
writes and is answered COMMIT_ABORTED with the core's number. -/
def Obligations.CommitPrepareAndDecide : Prop :=
  ∀ (g : Fin 16) (l : Fin 64) (s : State),
    let x := groupAt s g
    (x.state = .preparing → isMember x l.val = true → x.prepared.contains l.val = false → groupFenced s x = none →
      prepareFails s x l.val = false →
      exec (.memberPrepare g l) s = .next (modGroup s g (fun _ => { x with prepared := x.prepared ++ [l.val] }))) ∧
    (x.state = .preparing → allPrepared x = true → fabricWide s g = false → groupFenced s x = none →
      (∀ r ∈ x.regs, r.core ≠ none) →
      exec (.commitDecision g) s = .next (modGroup s g (fun _ => { x with state := .applying, applied := [], applyAt := none }))) ∧
    (∀ r, x.state = .preparing → allPrepared x = true → fabricWide s g = false → groupFenced s x = none →
      x.regs.find? (fun r => decide (r.core = none)) = some r → s.snap.en = false →
      exec (.commitDecision g) s = .next
        { modGroup s g (fun _ => { x with state := .applying, applied := [], applyAt := none }) with
          snap := { s.snap with epoch := BitVec.ofNat 32 (r.value.toNat % 2 ^ 32), take := r.value.getLsbD 32
                                skips := BitVec.ofNat 32 (Nat.min (s.snap.skips.toNat + 1) (2 ^ 32 - 1)) } }) ∧
    (∀ m, x.state = .preparing → groupFenced s x = none → (bitList 64 x.mask.toNat).find? (fun l => !x.prepared.contains l) = some m →
      ∃ t, exec (.prepTimeout g) s = .next t ∧ (groupAt t g).state = .aborted ∧ (groupAt t g).status = .commitAborted ∧
        (groupAt t g).detail = BitVec.ofNat 16 m ∧ (groupAt t g).regs = [] ∧ (groupAt t g).mems = [] ∧
        (∀ n, n ≠ g → groupAt t n = groupAt s n) ∧ t.dram = s.dram ∧
        (∀ w ∈ t.rings.waiting, w.awaits ≠ .commit g) ∧
        (∀ w ∈ s.rings.waiting, w.awaits = .commit g →
          ∃ r ∈ t.rings.store, r.tag = w.tag ∧ r.status = .commitAborted ∧ r.result = resultOf [(8, m)]))

/-- A group's apply and completion (R271, R272): a member's staged register writes take effect on its core alone; once every member
has applied and the stacks serve the host path, the staged memory writes are in DRAM and every other byte of it is as it was; where a
stack does not serve yet, the group waits and the stacks that sleep wake (R340). -/
def Obligations.CommitApplyAndComplete : Prop :=
  ∀ (g : Fin 16) (l : Fin 64) (c : CoreId) (s : State),
    let x := groupAt s g
    (x.state = .applying → isMember x l.val = true → x.applied.contains l.val = false → physicalOf s l.val = some c →
      applyReady s x c = true → s.snap.state ≠ .capturing →
      exec (.commitApply g l) s = .next (modGroup
        (setCore s c ((x.regs.filter (fun r => decide (r.core = some l.val))).foldl applyReg (coreAt s c))) g
        (fun _ => { x with applied := x.applied ++ [l.val] }))) ∧
    (x.state = .applying → (∀ m ∈ bitList 64 x.mask.toNat, x.applied.contains m = true) →
      memsServed s x.mems = false → ∀ chks, exec (.commitComplete g chks) s = .next (memsWake x.mems s)) ∧
    (x.state = .applying → (∀ m ∈ bitList 64 x.mask.toNat, x.applied.contains m = true) →
      memsServed s x.mems = true → badAddrs s = [] →
      ∃ t, exec (.commitComplete g []) s = .next t ∧ groupAt t g = { x with state := .committed, status := .ok } ∧
        (∀ a, (∀ m ∈ x.mems, ∀ i, i < m.len → dramKey s (m.dst + i) ≠ a) → memGet t.dram a = memGet s.dram a) ∧
        (∀ m, x.mems = [m] → memWf s.dram = true → isDram s m.dst m.len = true →
          dramRead t m.dst m.len = dramRead s m.src m.len) ∧
        t.cores = s.cores ∧ t.jobs = s.jobs ∧ (∀ w ∈ t.rings.waiting, w.awaits ≠ .commit g))

/-- Snapshots and restores (R332 to R337; spec/15, Tables 4 and 5). The plan is stored; a wait replies at once when there is nothing to
wait for; a restore writes the ranges back, or says whether the digest holds; a capture without a partner completes its epoch; the
manager's report and its message move the complete epoch; a halt fences or cancels every job. A part without these engines answers ENGINE_ABSENT. `u` is the state with the packet taken. -/
def Obligations.SnapshotsAndRestores : Prop :=
  ∀ (h : PktHdr) (addr off len : Word) (slot : Fin 2) (partner : Bool) (dest src : BitVec 14) (daddr : BitVec 48) (epoch : BitVec 32)
    (p : SnapPlan) (a n : Nat) (s : State),
    let u := takeHead s
    let serves : Prop := takes h s ∧ noEngines s = false
    let now : BitVec 192 := resultOf [(8, s.snap.captured.toNat)]
    (takes h s → noEngines s = true →
      (∀ i ∈ [Instr.snapshotPlan h addr, .snapshotWaitCaptured h, .snapshotWaitComplete h],
        exec i s = .next (repliedTo 0x18 h .engineAbsent 0 s)) ∧
      (∀ i ∈ [Instr.restoreLocal h slot, .restoreVerify h slot partner, .restoreForward h slot off len dest daddr],
        exec i s = .next (repliedTo 0x19 h .engineAbsent 0 s))) ∧
    (serves → snapBusy s = false → planRefusal u addr.toNat = none →
      exec (.snapshotPlan h addr) s = .next { repliedTo 0x18 h .ok 0 s with snap := { s.snap with plan := some (parsePlan u addr.toNat) } }) ∧
    (serves → s.snap.state ≠ .capturing → exec (.snapshotWaitCaptured h) s = .next (repliedTo 0x18 h .ok now s)) ∧
    (serves → s.snap.state = .capturing →
      exec (.snapshotWaitCaptured h) s = .next { s with rings := waitsFor 0x18 h .captured s.rings }) ∧
    (serves → takeComplete s = true →
      exec (.snapshotWaitComplete h) s = .next (repliedTo 0x18 h .ok (resultOf [(8, s.snap.complete.toNat)]) s)) ∧
    (serves → takeComplete s = false →
      exec (.snapshotWaitComplete h) s = .next { s with rings := waitsFor 0x18 h .complete s.rings }) ∧
    (serves → s.snap.plan = some p → restoreSlot s slot partner = some a →
      snapServed u (restoreTouches u (.verify slot partner)) = true → badAddrs u = [] →
      exec (.restoreVerify h slot partner) s =
        .next (repliedTo 0x19 h (if snapValid u a = true then .ok else .eccUncorrected) 0 s)) ∧
    (serves → s.snap.plan = some p → jobsWhere u jobActive = [] → snapValid u (planSlot p (decide (slot.val = 1))) = true →
      snapServed u (restoreTouches u (.bringBack slot)) = true → badAddrs u = [] →
      ∃ t, exec (.restoreLocal h slot) s = .next t ∧ t.rings = (repliedTo 0x19 h .ok 0 s).rings ∧ t.jobs = s.jobs ∧
        t.cores = s.cores ∧ t.snap = s.snap ∧
        (∀ k, (∀ r ∈ p.ranges, ∀ i, i < r.2 → dramKey s (r.1 + i) ≠ k) → memGet t.dram k = memGet s.dram k)) ∧
    (serves → s.snap.plan = some p → restoreSlot s slot true = some a → snapAt u a = some n → off.toNat + len.toNat ≤ n →
      (routeOf s dest).isSome = true → s.snap.forwardLeft = 0 → 0 < len.toNat → isOwnId s dest = false →
      snapServed u (restoreTouches u (.forward slot off.toNat len.toNat dest daddr.toNat)) = true → badAddrs u = [] →
      ∃ t, exec (.restoreForward h slot off len dest daddr) s = .next t ∧ t.rings = waitsFor 0x19 h .forward s.rings ∧
        t.snap = { s.snap with forwardLeft := 1, forwardTo := dest } ∧ t.dram = s.dram ∧ t.jobs = s.jobs) ∧
    (∀ chks, s.snap.state = .capturing → s.snap.plan = some p → recordsMissing s = true →
      exec (.captureComplete chks) s = .next s) ∧
    (s.snap.state = .capturing → s.snap.plan = some p → p.partner = 0xFFFF →
      recordsMissing s = false → badAddrs s = [] →
      snapServed s ((planSlot p s.snap.slot, (snapBytes s p).length) :: p.ranges) = true →
      ∃ t, exec (.captureComplete []) s = .next t ∧ t.snap.state = .idle ∧ t.snap.captured = s.snap.takeEpoch ∧
        t.snap.epoch = s.snap.epoch ∧
        (s.fabric.mgr = false → s.fabric.idValid = false → domainIds s = [] → s.snap.lastTake.isSome = true →
          s.snap.complete.toNat < s.snap.takeEpoch.toNat →
          t.snap.complete = s.snap.takeEpoch ∧ t.snap.completeSlot = some s.snap.slot) ∧
        t.jobs = s.jobs ∧ t.cores = s.cores ∧ (∀ w ∈ t.rings.waiting, w.awaits ≠ .captured)) ∧
    (s.fabric.mgr = true → s.snap.complete.toNat < epoch.toNat → s.snap.takeEpoch = epoch →
      (∀ i ∈ domainIds s, i = src.toNat ∨ ∃ r ∈ s.snap.reports, r.toNat = i) →
      ∃ t, exec (.snapshotSent src epoch) s = .next t ∧ t.snap.complete = epoch ∧ t.snap.reports = [] ∧ t.dram = s.dram) ∧
    (s.fabric.mgr = false → s.snap.complete.toNat < epoch.toNat →
      ∃ t, exec (.completeEpochAdvance epoch) s = .next t ∧ t.snap.complete = epoch ∧ t.dram = s.dram ∧ t.cores = s.cores) ∧
    (mgtRuns s = true →
      ∃ t, exec (.haltEpoch epoch dest) s = .next t ∧ t.snap.halted = true ∧ t.snap.haltEpoch = epoch ∧ t.snap.lost = dest ∧
        (∀ j, (jobAt t j).state ≠ .running ∧ (jobAt t j).state ≠ .stopped ∧ (jobAt t j).state ≠ .waiting ∧
          (jobAt t j).state ≠ .ready ∧ (jobAt t j).state ≠ .held) ∧ t.dram = s.dram)

/-- Wipes, clocks, wheels and queries (R244, R255, R346, R231): a wipe begins and is answered when it is complete, and the bytes of its
granules then read 0 and no other byte of DRAM changes; SET_CLOCK with every region at its entry replies at once; a wheel that passes
every check awaits E0 in each region of its mask; a query reads as a BAR 0 read does. `u` is the state with the packet taken. -/
def Obligations.WipeClockWheelAndQueryPackets : Prop :=
  ∀ (h : PktHdr) (first : BitVec 32) (count : BitVec 16) (cores : Word) (mask : BitVec 17) (idx ks : Byte) (addr off : Word) (j : JobId)
    (s : State),
    let u := takeHead s
    (takes h s → first.toNat + count.toNat ≤ 576 →
      jobsWhere u (fun b => jobLive b && windowIn u (first.toNat * gib) (count.toNat * gib) b) = [] →
      ∃ t, exec (.wipeDram h first count) s = .next t ∧ t.wiping = true ∧
        t.power.wipes = s.power.wipes ++ [.dram first.toNat count.toNat] ∧ t.dram = s.dram ∧ t.rings = waitsFor 0x21 h .wipe s.rings) ∧
    (takes h s → (∀ l ∈ bitList 64 cores.toNat, ∃ c, physicalOf s l = some c ∧ jobOf s c = none) →
      exec (.wipeOnDie h cores) s = .next
        { s with rings := waitsFor 0x21 h .wipe s.rings, power := { s.power with wipes := s.power.wipes ++ [.onDie cores] } }) ∧
    (∀ m n r w rest, s.power.wipes = .dram m n :: r → s.rings.waiting = w :: rest → w.awaits = .wipe →
      ∃ t, exec .wipeDone s = .next t ∧ t.power.wipes = r ∧ t.wiping = r.any wipesDram ∧ t.rings.waiting = rest ∧
        (∃ y, t.rings.store = s.rings.store ++ [y] ∧ y.status = .ok ∧ y.tag = w.tag) ∧
        (∀ k, m * gib ≤ dramAddr s k → dramAddr s k < (m + n) * gib → memGet t.dram k = 0) ∧
        (∀ k, dramAddr s k < m * gib ∨ (m + n) * gib ≤ dramAddr s k → memGet t.dram k = memGet s.dram k) ∧ t.cores = s.cores) ∧
    (takes h s → idx.toNat ≤ 7 → s.power.clk = none → s.power.recover = false → s.power.lost = false → s.power.trip = false →
      (∀ r, mask.getLsbD r.val = true → (regionAt s r).freqIdx.toNat = idx.toNat) →
      (∀ r, (regionAt s r).switching = false) → neededMv s (entryOf s) = s.power.avsReq.toNat →
      ∃ t, exec (.setClock h mask idx) s = .next t ∧ t.power.clk = none ∧ t.power.clkStatus = 0 ∧ t.regions = s.regions ∧
        t.rings.head = s.rings.head + 1 ∧ (∃ y, y ∈ t.rings.store ∧ y.status = .ok ∧ y.tag = h.tag ∧ y.opcode = 0x22)) ∧
    (let w : Vector Byte 128 := Vector.ofFn (fun e => dramByte u (addr.toNat + e.val))
     takes h s → isDram u addr.toNat 128 = true → wheelShape u w = true → (∀ k, ks.getLsbD k.val = true → wheelChanges u k w = false) →
      wheelSnapBad u w = false →
      ∃ t, exec (.setWheel h ks addr) s = .next t ∧ t.rings = (repliedTo 0x23 h .ok 0 s).rings ∧
        (∀ k, ks.getLsbD k.val = true →
          memAt t k = { memAt s k with wheelN := w, wheelNext := some w, wheelErr := false }) ∧
        (∀ k, ks.getLsbD k.val = false → memAt t k = memAt s k) ∧ { t with mems := s.mems, rings := s.rings } = s) ∧
    (takes h s → off.toNat % 8 = 0 → off.toNat < 0x4000000 →
      ∃ t, exec (.queryRegister h off) s = .next t ∧
        t.rings.store = s.rings.store ++ [replyOf 0x30 h .ok (resultOf [(8, regRead u off.toNat)])] ∧
        t.rings.head = s.rings.head + 1 ∧ t.jobs = s.jobs ∧ t.dram = s.dram) ∧
    (takes h s →
      exec (.queryJobEntry h j) s = .next (repliedTo 0x30 h .ok (resultOf [(8, (jobWord (jobAt s j) 0).toNat),
        (16, (jobWord (jobAt s j) 4).toNat), (24, (jobWord (jobAt s j) 5).toNat)]) s))

namespace Sys2Proof.Machine

/-- A request from the host that reaches the device and is served (R245, R246, R355, R366). -/
def served (b : BarAcc) (s : State) : Prop :=
  hostReaches s = true ∧ (b.keyed = true ∨ s.ident.ideOnly = false) ∧ b.poisoned = false

/-- `s` with the host's request answered as a completed write. -/
def written (s : State) : State := { s with host := { s.host with out := .done } }

end Sys2Proof.Machine

open Sys2Proof Sys2Proof.Machine

/-- The rings (R251, R253, R254). Enabling them starts both afresh, before READY nothing happens, and disabling clears ENABLE alone; a
tail beyond the ring's length sets OVERFLOW and stops the taking of packets. Replies go out before alerts, alerts in the order raised and
before job events, and those in increasing job table index; each is written at its place in the reply ring, whose tail moves by one, and
none while the ring has no space or the link is down. Alerts and job events never stop the taking of packets. -/
def Obligations.HostRings : Prop :=
  ∀ (b : BarAcc) (v : Word) (s : State) (x : Reply) (rest : List Reply) (a : Alert) (as_ : List Alert) (j : JobId) (js : List JobId),
    let r := s.rings
    let n := 2 ^ r.size.toNat
    let slot (y : Reply) : Option HostWrite := some { addr := r.rrBase + BitVec.ofNat 64 (r.rrTail.toNat % n * 32), reply := y }
    (served b s →
      let w := merged b (crCtlValue r) v
      let vectors : Rings := { r with rvec := BitVec.ofNat 4 (fieldOf w 8 4), avec := BitVec.ofNat 4 (fieldOf w 12 4) }
      (bitOf w 0 = true → s.power.ready = true → r.enable = false → 4 ≤ fieldOf w 4 4 → fieldOf w 4 4 ≤ 12 →
        exec (.crCtlWrite b v) s = .next { written s with rings := { vectors with
          size := BitVec.ofNat 4 (fieldOf w 4 4), enable := true, stopped := false, tail := 0, head := 0, rrHead := 0, rrTail := 0 } }) ∧
      (bitOf w 0 = true → s.power.ready = false → exec (.crCtlWrite b v) s = .next (written s)) ∧
      (bitOf w 0 = false → r.enable = true →
        exec (.crCtlWrite b v) s = .next { written s with rings := { vectors with enable := false } })) ∧
    (served b s →
      let t := BitVec.ofNat 16 (merged b r.tail.toNat v)
      (r.enable = true → (t - r.head).toNat ≤ n →
        exec (.crTailWrite b v true) s = .next { written s with rings := { r with tail := t } }) ∧
      (r.enable = true → n < (t - r.head).toNat →
        exec (.crTailWrite b v true) s = .next { written s with rings := { r with tail := t, overflow := true, stopped := true } })) ∧
    (mayReply s = true → r.store = x :: rest →
      exec (.replyWrite true) s = .next { s with rings := { r with
        lastWrite := slot x, lastVector := if x.irq = true then some r.rvec else none, rrTail := r.rrTail + 1, store := rest } } ∧
      exec (.replyWrite false) s = .next { s with rings := { r with dmaErr := true, stopped := true } }) ∧
    (mayReply s = true → r.store = [] → r.alerts = a :: as_ →
      exec (.alertWrite true) s = .next { s with rings := { r with
        lastWrite := slot (alertReply a), lastVector := some r.avec, rrTail := r.rrTail + 1, alerts := as_ } }) ∧
    (mayReply s = true → r.store = [] → r.alerts = [] → jobsWhere s (fun b => b.evt) = j :: js →
      exec (.jobEventWrite true) s = .next (setJob
        { s with rings := { r with
          lastWrite := slot (eventReply j (jobAt s j)), lastVector := some r.avec, rrTail := r.rrTail + 1 } } j
        { jobAt s j with evt := false })) ∧
    (mayReply s = true → r.store = [] → r.alerts = [] → jobsWhere s (fun b => b.evt) = j :: js → cellWf freeJob s.jobs = true →
      ∀ k, (jobAt s k).evt = true → j ≤ k) ∧
    (r.store ≠ [] → ∀ ok, exec (.alertWrite ok) s = .next s ∧ exec (.jobEventWrite ok) s = .next s) ∧
    (r.alerts ≠ [] → ∀ ok, exec (.jobEventWrite ok) s = .next s) ∧
    (n ≤ (r.rrTail - r.rrHead).toNat ∨ s.host.linkUp = false →
      ∀ ok, exec (.replyWrite ok) s = .next s ∧ exec (.alertWrite ok) s = .next s ∧ exec (.jobEventWrite ok) s = .next s) ∧
    (∀ h as2, canTake h { s with rings := { r with alerts := as2 } } = canTake h s ∧
      ∀ jobs, canTake h { s with jobs := jobs } = canTake h s)

/-- Accesses of the host (R245 to R250, R266, R340, R366): a window is written where its fields fit; a read of DRAM or of a local store
returns its bytes; a write changes exactly the bytes it covers; an access of DRAM whose stacks do not serve it waits; a poisoned write
changes nothing else and is an Unsupported Request; a job's entry is copied by JT_INDEX; a register access that is not aligned is an
Unsupported Request; the link's state follows its training. -/
def Obligations.HostAccesses : Prop :=
  ∀ (b : BarAcc) (v : Word) (i : Fin 16) (x : HostAcc) (c : CoreId) (o off : Nat) (v32 : BitVec 32) (s : State),
    let w := s.host.wins.get x.slot
    let a := w.base.toNat * 4096 + x.off
    let mapped : Prop := served { lanes := .all, keyed := x.keyed, poisoned := x.write && x.poisoned } s ∧ w.en = true ∧
      x.off + x.len ≤ 2 ^ w.size.toNat ∧ (x.write = true → w.wr = true) ∧ hostRefusal s x a = none
    let serves : Prop := hostServed s s.host.waiting { acc := x, addr := a } = true ∧ x.chks = [] ∧ badAddrs s = []
    (served b s →
      let f := merged b (hwinReg (s.host.wins.get i)) v
      (winFits s f = true → exec (.hwinWrite b i v) s = .next { s with host := { s.host with
        out := .done, winErr := false
        wins := s.host.wins.set i.val { base := BitVec.ofNat 36 (fieldOf f 12 36), en := bitOf f 48, wr := bitOf f 49,
                                        size := BitVec.ofNat 6 (fieldOf f 50 6) } i.isLt } }) ∧
      (winFits s f = false → exec (.hwinWrite b i v) s = .next { s with host := { s.host with out := .done, winErr := true } })) ∧
    (mapped → serves → x.write = false → localRange s a x.len = none →
      ∃ t, exec (.hostMemoryAccess x) s = .next t ∧ t.host.out = .bytes (dramRead s a x.len) ∧ t.dram = s.dram ∧ t.cores = s.cores ∧
        t.jobs = s.jobs ∧ t.rings = s.rings) ∧
    (mapped → x.write = false → localRange s a x.len = some (c, o) →
      exec (.hostMemoryAccess x) s =
        .next { s with host := { s.host with out := .bytes (memRead (coreAt s c).store o x.len) } }) ∧
    (mapped → localRange s a x.len = none → hostServed s s.host.waiting { acc := x, addr := a } = false →
      ∃ t, exec (.hostMemoryAccess x) s = .next t ∧ t.host = { s.host with
        waiting := s.host.waiting ++ [{ acc := x, addr := a }], out := .waits } ∧ t.dram = s.dram ∧ t.cores = s.cores ∧ t.jobs = s.jobs) ∧
    (hostReaches s = true → x.poisoned = true → x.write = true →
      exec (.hostMemoryAccess x) s = .next { s with host := { s.host with out := .unsupported, aerPoisoned := true } }) ∧
    (hostReaches s = true → b.poisoned = true → off % 8 = 0 → off < 0x4000000 →
      exec (.registerWrite b off v) s = .next { s with host := { s.host with out := .unsupported, aerPoisoned := true } }) ∧
    (mapped → serves → x.write = true → localRange s a x.len = none → memWf s.dram = true → x.data.length = x.len →
      ∃ t, exec (.hostMemoryAccess x) s = .next t ∧ t.host.out = .done ∧ dramRead t a x.len = x.data ∧ memWf t.dram = true ∧
        (∀ k, (∀ n, n < x.len → dramKey s (a + n) ≠ k) → memGet t.dram k = memGet s.dram k) ∧ t.cores = s.cores ∧
        t.jobs = s.jobs ∧ t.rings = s.rings) ∧
    (mapped → x.write = true → localRange s a x.len = some (c, o) → regionRuns s (regionOf c) = true → x.data.length = x.len →
      exec (.hostMemoryAccess x) s =
        .next (setCore (written s) c { coreAt s c with store := memWrite (coreAt s c).store o x.data })) ∧
    (served b s →
      let n := merged b s.host.jtIndex.toNat v % 65536
      exec (.jtIndexWrite b v) s = .next { s with host := { s.host with
        out := .done, jtIndex := BitVec.ofNat 16 n, jtData := Vector.ofFn (jobWord (jobAt s (Fin.ofNat 65536 n))) } }) ∧
    (served b s → off % 8 = 0 → off < 0x4000000 →
      exec (.registerWrite b off v) s = .next (regWrite b off v (written s)) ∧
      exec (.rcRegisterRead b off) s = .next (regClear { s with host := { s.host with
        out := .data (laneRead b.lanes (regRead s off)) } } off)) ∧
    (hostReaches s = true → b.poisoned = false → off % 8 ≠ 0 ∨ 0x4000000 ≤ off ∨ (b.keyed = false ∧ s.ident.ideOnly = true) →
      exec (.registerWrite b off v) s = .next { s with host := { s.host with out := .unsupported } } ∧
      exec (.rcRegisterRead b off) s = .next { s with host := { s.host with out := .unsupported } }) ∧
    (served b s → s.rings.enable = false → b.lanes = .all →
      exec (.registerWrite b 0x10008 v) s = .next { written s with rings := { s.rings with base := BitVec.ofNat 64 (v.toNat / 64 * 64) } }) ∧
    (served b s → b.lanes = .all →
      exec (.rcRegisterRead b 0x10040) s = .next { s with
        host := { s.host with out := .data (BitVec.ofNat 64 (regRead s 0x10040)) }, rings := { s.rings with evtMerged := 0 } }) ∧
    (hostReaches s = true → ¬ (s.power.warm = true ∧ s.power.cause.toNat = 4) →
      exec (.configRequest true off v32) s = .next { s with host := { s.host with
        out := .done, config := s.host.config.filter (fun y => decide (y.1 ≠ off)) ++ [(off, v32)] } } ∧
      exec (.configRequest false off v32) s = .next { s with host := { s.host with
        out := .data (BitVec.ofNat 64 (configValue s off).toNat) } }) ∧
    (mgtRuns s = true → s.power.supply.getLsbD 3 = false →
      exec (.pcieLinkTrain true) s = .next { s with host := { s.host with linkUp := true } }) ∧
    exec .pcieLinkDown s = .next { s with host := { s.host with linkUp := false } }

/-- Register writes with an effect of their own (R19, R26, R39, R172, R224, R231, R236, R339, R350, R352, R360, R366, R375), each on its
own state and beside it only the answer to the host. -/
def Obligations.RegisterWriteEffects : Prop :=
  ∀ (b : BarAcc) (v : Word) (r : RegionId) (k : StackId) (c : CoreId) (w : Bool) (e : Fin 32) (mv : Vector (BitVec 12) 7) (s : State),
    served b s →
    let u := written s
    let g := regionAt s r
    let x := strobes b v
    let idle : Prop := regionRuns s (regionOf c) = true ∧ coreBusy (coreAt s c) = false ∧ coreHalted s c = false
    (bitOf x 0 = true → exec (.tallyClear b r v) s = .next (modRegion u r (fun _ => { g with
      tallyEvents := if g.hold.isSome = true then 1 else 0, tallyTicks := 0, stretch := 0, forced := 0
      tallyLast := { cause := 0, queue := 0, core := 0, tick := 0, periods := 0 }
      hold := g.hold.map (fun h => { h with periods := 0 }) }))) ∧
    (let m := merged b (packFields [(0, bitNat g.lockstep), (1, g.guard.toNat)]) v
     ∃ t, exec (.cgClkctlWrite b r v) s = .next t ∧
      regionAt t r = { g with lockstep := bitOf m 0, guard := BitVec.ofNat 3 (fieldOf m 1 3), lsActive := g.lsActive && bitOf m 0 } ∧
      (∀ q, q ≠ r → regionAt t q = regionAt s q) ∧ t.power.avsReq.toNat = neededMv t (needEntry t) % 4096 ∧ t.cores = s.cores) ∧
    (deviceQuiet s = true →
      exec (.memcDecodeWrite b v) s = .next { u with stackLocal := bitOf (merged b (bitNat s.stackLocal) v) 0 }) ∧
    (deviceQuiet s = false → exec (.memcDecodeWrite b v) s = .next u) ∧
    (let sh := (memAt s k).wheelN
     let ok : Prop := wheelShape s sh = true ∧ wheelSnapBad s sh = false ∧ wheelChanges s k sh = false
     bitOf x 0 = true →
      (ok → exec (.wheelApply b k v) s = .next (modMem u k (fun m => { m with wheelNext := some sh, wheelErr := false }))) ∧
      (¬ ok → exec (.wheelApply b k v) s = .next (modMem u k (fun m => { m with wheelErr := true })))) ∧
    (∀ sh, (memAt s k).wheelNext = some sh → memRuns s k = true →
      exec (.wheelTakesEffect k) s = .next (serveWaits (modMem s k (fun m => { m with wheel := sh, wheelNext := none })))) ∧
    (let m := merged b (coreRegRead s c (.wabCtl w)) v
     idle → hasWide s = true → bitOf m 12 = true ∨ bitOf m 0 ≠ (wideOf (coreAt s c) w).mode →
      exec (.wabClearingLoad b c w v) s = .next (setCore u c (modWide (coreAt s c) w (fun _ =>
        { mode := bitOf m 0, anchor := BitVec.ofNat 10 (fieldOf m 2 10), nan := false, ovf := false, adds := 0, elems := [] })))) ∧
    (let y := epOf (coreAt s c) e
     b.lanes = .all →
      (idle → chRecv y.word = true → openFault s c e y.word.toNat = none →
        ∃ t, exec (.chCmdOpen b c e) s = .next t ∧ (epOf (coreAt t c) e).isOpen = true ∧ (epOf (coreAt t c) e).gen = y.gen + 1 ∧
          (epOf (coreAt t c) e).word = y.word ∧ (epOf (coreAt t c) e).occ = 0 ∧ (epOf (coreAt t c) e).held = [] ∧
          (coreAt t c).seq = (coreAt s c).seq ∧ t.dram = s.dram) ∧
      (idle → y.isOpen = true →
        ∃ t, exec (.chCmdClose b c e) s = .next t ∧ (epOf (coreAt t c) e).isOpen = false ∧ (epOf (coreAt t c) e).held = [] ∧
          (coreAt t c).seq = (coreAt s c).seq ∧ t.dram = s.dram) ∧
      (∀ d rest, regionRuns s (regionOf c) = true → coreHalted s c = false → y.isOpen = true → chRecv y.word = true →
        chLand y.word = 0 → y.held = d :: rest →
        ∃ t, exec (.chCmdPop b c e) s = .next t ∧ (epOf (coreAt t c) e).held = rest ∧ (epOf (coreAt t c) e).occ = y.occ - 1 ∧
          (coreAt t c).seq = (coreAt s c).seq ∧ t.dram = s.dram)) ∧
    ((memAt s k).temp.toNat < 100 → exec (.memTripClear b k) s = .next (serveWaits (modMem u k (fun m => { m with trip := false })))) ∧
    (100 ≤ (memAt s k).temp.toNat → exec (.memTripClear b k) s = .next (serveWaits u)) ∧
    (s.power.temp.toNat < 95 → exec (.thermTripClear b) s = .next { u with power := { s.power with trip := false } }) ∧
    (95 ≤ s.power.temp.toNat → exec (.thermTripClear b) s = .next u) ∧
    (∃ bits, exec (.supplyStatClear b v mv) s = .next { u with power := { s.power with supply := bits } } ∧
      ∀ i, i < 5 → bits.getLsbD i = (s.power.supply.getLsbD i && !(bitOf x i && decide (i ≠ 2) &&
        (allRails.zip mv.toList).all (fun z => decide (railBit z.1 = i → inWindow s z.1 z.2 = true))))) ∧
    (let req := fieldOf (merged b s.power.sleepReq.toNat v) 0 26
     ∃ t, exec (.sleepRequest b v) s = .next t ∧ t.power.sleepReq = BitVec.ofNat 26 req ∧
      (∀ n : Fin 26, s.power.sleepReq.getLsbD n.val = true → bitOf req n.val = false →
        powAt s ⟨n.val, by omega⟩ = .asleep → powAt t ⟨n.val, by omega⟩ = .queued) ∧
      t.regions = s.regions ∧ t.cores = s.cores ∧ t.dram = s.dram) ∧
    exec (.svnAdvance b) s = .next { u with ident := { s.ident with
      svnFused := if s.ident.lcState = 2 ∧ s.ident.svnFused.toNat < s.ident.svnImage.toNat then s.ident.svnImage else s.ident.svnFused } } ∧
    exec (.ideOnlySet b) s = .next { u with ident := { s.ident with ideOnly := true } } ∧
    (let m := merged b (packFields [(0, bitNat s.power.auxBar), (1, bitNat s.power.auxDbg), (2, s.power.auxBarrier.toNat)]) v
     let clash : Prop := (bitOf m 0 = true ∧ bitOf m 1 = true) ∨ ∃ y ∈ s.fabric.barm.toList, y.mode ≠ 0
     (clash → exec (.auxCtlWrite b v) s = .next { u with power := { s.power with auxErr := true, auxStatus := 0x81 } }) ∧
     (¬ clash → exec (.auxCtlWrite b v) s = .next { u with power := { s.power with
       auxBar := bitOf m 0, auxDbg := bitOf m 1, auxBarrier := BitVec.ofNat 3 (fieldOf m 2 3), auxErr := false, auxStatus := 0 } }))

namespace Sys2Proof.Machine

/-- No access waits for its stacks: of the host, of a link packet, or of a restore. -/
def nothingWaits (s : State) : Prop := s.host.waiting = [] ∧ s.snap.restores = [] ∧ ∀ via, inboundIo s via = []

/-- `s` with memory region `k` as `m` says, and nothing else changed. -/
def setMem (s : State) (k : StackId) (m : MemRegion) : State := { s with mems := s.mems.set k.val m k.isLt }

end Sys2Proof.Machine

open Sys2Proof Sys2Proof.Machine

/-- Memory (R227, R229, R235 to R241): a piece's read hands its bytes to its transfer, and its write changes exactly the bytes it
carries; an error that is not corrected is logged, fences the job and stands until a whole write; what a check finds is counted, and only
counted and logged by a scrub, which takes an idle slot; the 16th corrected error of a row declares its repair, the 64th parity correction
of a die within 1 s its failure; a stack's temperature sets the rate of its next rotations and trips it at 105 degrees. -/
def Obligations.MemoryEvents : Prop :=
  ∀ (k : StackId) (e : Fin 128) (ch : Fin 32) (chk : PieceCheck) (off : Nat) (tmp : Byte) (p : Piece) (rest : List Piece)
    (die : Fin 17) (bank row : Nat) (s : State),
    let m := memAt s k
    let base := k.val * stackBytes + p.off
    let whole := p.off / 128 * 128
    let taken : Prop := memRuns s k = true ∧ s.memcFailed.getLsbD k.val = false ∧
      ∃ cl, slotClient m e = some cl ∧ takePiece cl ch m.queue = some (p, rest)
    let found := effectiveCheck m whole (p.write && decide (p.len = 128)) chk
    let u := (checkPiece k whole (p.write && decide (p.len = 128)) false chk (setMem s k { m with queue := rest })).2
    let at_ := off / 128 * 128
    let scrubs : Prop := ownsSlots s idleOwner k = true ∧ s.scrub = true ∧ s.memcFailed.getLsbD k.val = false ∧ off < stackBytes
    let x : RowId := { ch := channelOf at_, die := die, bank := bank, row := row }
    (taken → errorKind found = none → p.write = false →
      u.dram = s.dram ∧ exec (.pieceAccess k e ch chk) s = .next (setCore u p.core
        (modQ (coreAt u p.core) p.queue (fun q => { q with xfers := q.xfers.map (fun x =>
          if x.id = p.xfer then { x with
            served := x.served + 1
            data := if x.write = true then x.data
              else (List.range p.len).foldl (fun d i => cellSet 0#8 d (p.pos + i) (memGet s.dram (base + i))) x.data }
          else x) })))) ∧
    (taken → errorKind found = none → p.write = true → memWf s.dram = true →
      ∃ t, exec (.pieceAccess k e ch chk) s = .next t ∧
        (∀ a, memGet t.dram a = if base ≤ a ∧ a < base + p.data.length then p.data.getD (a - base) 0 else memGet s.dram a) ∧
        memWf t.dram = true ∧ (∀ n, n ≠ k → memAt t n = memAt s n) ∧ (m.badPieces.Nodup → p.len = 128 → whole ∉ (memAt t k).badPieces) ∧
        (t.memcFailed = s.memcFailed →
          (memAt t k).queue = rest ∧ (∀ c, c ≠ p.core → coreAt t c = coreAt s c) ∧ t.jobs = s.jobs)) ∧
    (∀ kind, taken → errorKind found = some kind →
      ∃ t, exec (.pieceAccess k e ch chk) s = .next t ∧ (memAt t k).errKind = BitVec.ofNat 3 kind ∧
        (memAt t k).errOffset = BitVec.ofNat 48 whole ∧ t.dram = s.dram ∧ (kind = 1 → whole ∈ (memAt t k).badPieces) ∧
        (t.memcFailed = s.memcFailed → ∀ j, jobOf s p.core = some j → canFence (jobAt s j) = true →
          (jobAt t j).state = .fencing ∧ (jobAt t j).status = .eccUncorrected ∧ (jobAt t j).fence.detail0 = BitVec.ofNat 32 kind)) ∧
    (scrubs →
      let f := effectiveCheck m at_ false chk
      ∃ t, exec (.patrolScrub k off chk) s = .next t ∧ t.dram = s.dram ∧ (∀ n, n ≠ k → memAt t n = memAt s n) ∧
        (memAt t k).corrected = (countCheck f m).corrected ∧ (memAt t k).parityCorr = (countCheck f m).parityCorr ∧
        (memAt t k).bondRetry = (countCheck f m).bondRetry ∧
        (t.memcFailed = s.memcFailed → t.jobs = s.jobs ∧ t.cores = s.cores ∧ (memAt t k).queue = m.queue) ∧
        ((errorKind f).isSome = true → (memAt t k).errKind = 3 ∧ (memAt t k).errOffset = BitVec.ofNat 48 at_) ∧
        (errorKind f = none → (memAt t k).errKind = m.errKind ∧ (memAt t k).errOffset = m.errOffset)) ∧
    (ownsSlots s idleOwner k = false → exec (.patrolScrub k off chk) s = .next s) ∧
    (scrubs → m.dieState = 0 → at_ ∉ m.badPieces → rowCount m x = 15 → rowDeclared s k x = false → sparesTaken s k x < 4 →
      ∃ t, exec (.patrolScrub k off (.corrected die bank row)) s = .next t ∧
        t.spare.repairs = s.spare.repairs ++ [.row k x false] ∧ rowCount (memAt t k) x = 0) ∧
    (scrubs → m.dieState = 0 → at_ ∉ m.badPieces → die.val ≠ 16 →
      63 ≤ (m.dieLog.filter (fun y => decide (s.mgtPeriods.toNat < y.2 + periodsPerSecond) && decide (y.1 = die))).length →
      ∃ t, exec (.patrolScrub k off (.parity die)) s = .next t ∧ (memAt t k).dieState = 1 ∧
        (memAt t k).badDie = BitVec.ofNat 5 die.val ∧ t.spare.repairs = s.spare.repairs ++ [.rebuild k]) ∧
    (tmp.toNat < 105 ∨ m.trip = true →
      let cool := if tmp.toNat ≤ 92 then m.coolUpdates + 1 else 0
      exec (.stackTempUpdate k tmp) s = .next (setMem s k { m with
        temp := tmp, coolUpdates := cool
        rateNext := if 95 ≤ tmp.toNat then true else if 1001 ≤ cool then false else m.rateNext })) ∧
    (105 ≤ tmp.toNat → m.trip = false →
      ∃ t, exec (.stackTempUpdate k tmp) s = .next t ∧ (memAt t k).trip = true ∧ (memAt t k).temp = tmp ∧
        (memAt t k).rateNext = true ∧ (∀ n, n ≠ k → memAt t n = memAt s n) ∧ t.dram = s.dram ∧
        (∀ j, canFence (jobAt s j) = true → jobTouches s (jobAt s j) k = true →
          (jobAt t j).state = .fencing ∧ (jobAt t j).status = .thermalTrip) ∧
        (cellWf freeJob s.jobs = true → ∀ j, jobTouches s (jobAt s j) k = false → jobAt t j = jobAt s j)) ∧
    exec (.refreshRateChange k) s =
      .next (serveWaits (setMem s k { m with rate2x := s.force2x || m.trip || m.rateNext || s.power.lost }))

/-- Repairs (R240, R241, R323 to R328): a test is asked for and names its core; a clean result ends it; the oldest repair group applies
once its condition holds; a failed die starts a rebuild, a second loss fails the stack; rebuilt pieces are counted in idle slots, and the
rebuild of the last commits in its turn; a row's copy made in idle slots commits in its turn too, and none is made during a rebuild. -/
def Obligations.RepairEvents : Prop :=
  ∀ (b : BarAcc) (v : Word) (c : CoreId) (x : SelfTest) (k : StackId) (die : Fin 17) (ch : Fin 32) (bank row : Nat) (s : State),
    let m := memAt s k
    (served b s → fieldOf (strobes b v) 0 8 = c.val → bitOf (strobes b v) 8 = true → jobOf s c = none →
      s.spare.testing.contains c = false → (∀ f ∈ s.spare.fills, f.2 ≠ c) →
      ∃ t, exec (.selfTestRequest b v) s = .next t ∧ t.spare = { s.spare with testing := s.spare.testing ++ [c] } ∧
        (powAt s (powCg (regionOf c)) = .asleep → powAt t (powCg (regionOf c)) = .queued) ∧
        t.cores = s.cores ∧ t.jobs = s.jobs ∧ t.dram = s.dram) ∧
    (regionRuns s (regionOf c) = true → s.power.refStop = false → jobOf s c = none → (∀ f ∈ s.spare.fills, f.2 ≠ c) → s.spare.testing.contains c = true →
      s.spare.repairs = [] → x = { rows := Vector.replicate 4 [], cols := Vector.replicate 4 [], other := false } →
      (∀ n : Fin 4, (arrOf (coreAt s c) n).rowMap = resetLines ∧ (arrOf (coreAt s c) n).colMap = resetLines) →
      let left := s.spare.testing.filter (fun y => decide (y ≠ c))
      exec (.selfTestDone c x) s = .next { s with spare := { s.spare with testing := left } }) ∧
    (∀ n r q, s.spare.repairs = [.array c n r q] → jobOf s c = none →
      ∃ t, exec .repairCommit s = .next t ∧ (arrOf (coreAt t c) n) = { arrOf (coreAt s c) n with rowMap := r, colMap := q } ∧
        t.spare.repairs = [] ∧ t.spare.lastKind = 1 ∧ t.spare.lastUnit = BitVec.ofNat 8 c.val ∧
        (∀ d, d ≠ c → coreAt t d = coreAt s d) ∧ t.jobs = s.jobs) ∧
    (∀ f sp, s.spare.repairs = [.replace f sp] → filling s f = false → jobsWhere s jobActive = [] →
      ∃ t, exec .repairCommit s = .next t ∧ t.spare.repairs = [] ∧ t.spare.draining = false ∧
        (∀ i : Fin 68, t.capCores.get i = if (s.capCores.get i).toNat = f.val then BitVec.ofNat 8 sp.val else s.capCores.get i) ∧
        t.activeCores = s.activeCores ∧ sp ∉ t.spareCores ∧ t.cores = s.cores ∧ t.jobs = s.jobs) ∧
    (∀ f, s.spare.repairs = [.shed f] → isBypass s f = false → jobsWhere s jobActive = [] →
      ∃ t, exec .repairCommit s = .next t ∧ t.spare.repairs = [] ∧ t.activeCores = s.activeCores - 1 ∧ t.cores = s.cores ∧
        t.jobs = s.jobs) ∧
    (m.dieState = 0 → s.memcFailed.getLsbD k.val = false → die.val ≠ 16 →
      ∃ t, exec (.dieFailure k die) s = .next t ∧ t.spare.repairs = s.spare.repairs ++ [.rebuild k] ∧
        memAt t k = { m with dieState := 1, badDie := BitVec.ofNat 5 die.val, rebuilt := 0 } ∧ t.memcFailed = s.memcFailed ∧
        t.dram = s.dram) ∧
    (m.dieState ≠ 0 → s.memcFailed.getLsbD k.val = false → m.badDie.toNat ≠ die.val → ¬ (m.dieState = 3 ∧ m.badDie = 0x1F ∧ die.val = 16) →
      ∃ t, exec (.dieFailure k die) s = .next t ∧ t.memcFailed = s.memcFailed ||| BitVec.ofNat 8 (2 ^ k.val) ∧
        (∀ j, canFence (jobAt s j) = true → jobTouches s (jobAt s j) k = true →
          (jobAt t j).state = .fencing ∧ (jobAt t j).status = .capacityReduced)) ∧
    (ownsSlots s idleOwner k = true → s.memcFailed.getLsbD k.val = false → m.dieState = 1 ∨ m.dieState = 2 → m.rebuilt.toNat < 18874368 →
      exec (.dieRebuildPiece k) s = .next (setMem s k { m with dieState := 2, rebuilt := m.rebuilt + 1 })) ∧
    (m.dieState = 2 → m.rebuilt.toNat = 18874368 → s.spare.repairs = [.rebuild k] →
      ∃ t, exec (.rebuildCommit k) s = .next t ∧ memAt t k = { m with dieState := 3 } ∧ t.spare.repairs = [] ∧
        t.spare.lastKind = 4 ∧ (∀ n, n ≠ k → memAt t n = memAt s n) ∧ t.dram = s.dram) ∧
    (m.dieState = 1 ∨ m.dieState = 2 → exec (.rowRepair k ch die bank row) s = .next s) ∧
    (ownsSlots s idleOwner k = true → m.dieState = 0 ∨ m.dieState = 3 →
      s.spare.repairs = [.row k { ch := ch, die := die, bank := bank, row := row } false] →
      ∃ t, exec (.rowRepair k ch die bank row) s = .next t ∧ t.spare.repairs = [] ∧ t.spare.lastKind = 6 ∧
        cellGet 0 (memAt t k).sparesUsed (rowKey ch die bank) = cellGet 0 m.sparesUsed (rowKey ch die bank) + 1 ∧ t.dram = s.dram)

/-- Temperature, supplies, the regulator and the reference clock (R345 to R352, R378, R379). A trip at 105 degrees and a rail fault
fence every running and stopped job; from 115 degrees no region wakes; an acknowledged voltage ends the wait for it; a level
inside its rail's window is no fault; without the reference no link sends, and once it runs again and software asks for it the regions
return to their entries, the loss standing until they have. -/
def Obligations.ThermalSupplyAndReference : Prop :=
  ∀ (b : BarAcc) (v : Word) (tmp : Byte) (hot : BitVec 5) (mv : BitVec 12) (s : State), s.power.aon = true → s.power.resetLow = false →
    let p := s.power
    let fencedAll (t : State) (st : Status) : Prop := ∀ j, canFence (jobAt s j) = true → (jobAt t j).state = .fencing ∧ (jobAt t j).status = st
    (tmp.toNat < warnLevel s → tmp.toNat < 105 →
      exec (.logicTempUpdate tmp hot) s = .next { s with power := { p with
        temp := tmp, hot := hot, warned := false, warnSent := p.warnSent && decide (warnLevel s ≤ tmp.toNat + 5) } }) ∧
    (105 ≤ tmp.toNat → tmp.toNat < 115 → p.trip = false →
      ∃ t, exec (.logicTempUpdate tmp hot) s = .next t ∧ t.power.trip = true ∧ t.power.temp = tmp ∧ fencedAll t .thermalTrip ∧
        t.power.hard = p.hard ∧ t.dram = s.dram) ∧
    (115 ≤ tmp.toNat → p.trip = true → p.hard = false →
      ∃ t, exec (.logicTempUpdate tmp hot) s = .next t ∧ t.power.hard = true ∧ fencedAll t .thermalTrip ∧
        (∀ n : Fin 28, n.val < 26 → powAt t n = .asleep) ∧ (∀ n : Fin 28, 26 ≤ n.val → powAt t n = powAt s n) ∧ t.dram = s.dram) ∧
    (∀ rail, inWindow s rail mv = true → exec (.supplyFault ⟨rail, mv⟩) s = .next s) ∧
    (∀ rail ∈ [Rail.core, .sram, .dram], inWindow s rail mv = false →
      ∃ t, exec (.supplyFault ⟨rail, mv⟩) s = .next t ∧ t.power.supply = p.supply ||| BitVec.ofNat 5 (2 ^ railBit rail) ∧
        fencedAll t .supplyFault ∧ t.dram = s.dram) ∧
    (∀ rail ∈ [Rail.iod0, .vdda0], inWindow s rail mv = false → ∃ t, exec (.supplyFault ⟨rail, mv⟩) s = .next t ∧
      t.power.supply = p.supply ||| 0b01000 ∧ t.host.linkUp = false ∧
      (∀ q : PortId, q.val < 5 → (portAt s q).state = pUp → (portAt t q).state = pDown ∧ (portAt t q).reason = 5)) ∧
    (p.avsBusy = true → p.avsReq.toNat ≤ mv.toNat + 5 → mv.toNat ≤ p.avsReq.toNat + 5 → p.clk = none →
      exec (.avsAck mv) s = .next { s with power := { p with
        avsRead := mv, avsBusy := false, avsAcked := true, avsTail := 10000 } }) ∧
    (p.avsBusy = true → p.avsLower = true →
      ∃ t, exec .avsTimeout s = .next t ∧ t.power = { p with avsBusy := false, avsErr := true } ∧
        (∃ a ∈ t.rings.alerts, a.status = .supplyFault) ∧ t.cores = s.cores ∧ t.jobs = s.jobs) ∧
    (p.lost = false → p.ready = true → cellWf freeJob s.jobs = true →
      ∃ t, exec .refLost s = .next t ∧ t.power.lost = true ∧ t.power.refOk = false ∧ fencedAll t .refLost ∧
        (∀ j, (jobAt t j).state ≠ .held ∧ (jobAt t j).state ≠ .waiting ∧ (jobAt t j).state ≠ .ready) ∧
        (∀ r, t.power.entryBefore.get r = (regionAt s r).freqIdx) ∧ t.dram = s.dram) ∧
    (p.refStop = false → exec .refPresent s = .next { s with power := { p with refOk := true } }) ∧
    (served b s → p.lost = true → p.refOk = true → p.recover = false → p.clk = none →
      ∃ t, exec (.refRecover b) s = .next t ∧ t.power.recErr = false ∧ t.jobs = s.jobs ∧ t.dram = s.dram ∧
        ((∀ r, (regionAt s r).freqIdx = p.entryBefore.get r) → neededMv s (entryOf s) = p.avsReq.toNat →
          t.power.lost = false ∧ t.power.recover = false ∧ t.regions = s.regions) ∧
        ((∃ r, regionRuns s r = true ∧ p.entryBefore.get r ≠ (regionAt s r).freqIdx) → t.power.lost = true ∧ t.power.recover = true)) ∧
    (served b s → p.lost = false ∨ p.refOk = false →
      exec (.refRecover b) s = .next { written s with power := { p with recErr := true } }) ∧
    (let x := merged b (packFields [(0, p.clkMask.toNat), (17, p.clkIdx.toNat)]) v
     served b s → (bitOf (strobes b v) 21 = false →
       exec (.clkReqGo b v) s = .next { written s with power := { p with
         clkMask := BitVec.ofNat 17 x, clkIdx := BitVec.ofNat 4 (fieldOf x 17 4) } }) ∧
      (bitOf (strobes b v) 21 = true → p.clk.isSome = true → fieldOf x 17 4 ≤ 7 → p.lost = false → p.trip = false →
        exec (.clkReqGo b v) s = .next { written s with power := { p with
          clkMask := BitVec.ofNat 17 x, clkIdx := BitVec.ofNat 4 (fieldOf x 17 4), clkErr := true, clkStatus := 0x81 } }) ∧
      (bitOf (strobes b v) 21 = true → p.clk = none → fieldOf x 17 4 ≤ 7 → p.recover = false → p.lost = false → p.trip = false →
        (∀ r : RegionId, bitOf x r.val = true → (regionAt s r).freqIdx.toNat = fieldOf x 17 4) →
        (∀ r, (regionAt s r).switching = false) → neededMv s (entryOf s) = p.avsReq.toNat →
        ∃ t, exec (.clkReqGo b v) s = .next t ∧ t.power.clk = none ∧ t.power.clkErr = false ∧ t.power.clkStatus = 0 ∧
          t.regions = s.regions ∧ t.rings = s.rings ∧ t.cores = s.cores))

/-- Power states of the regions (R338 to R344): a compute region asked to sleep sleeps and its cores' memories and registers are gone; a
window admits the head of the governor's queue; a region that has woken runs. -/
def Obligations.RegionPower : Prop :=
  ∀ (n : Fin 26) (m : Fin 28) (r : RegionId) (quiet : Bool) (s : State),
    (n.val = r.val → s.power.sleepReq.getLsbD n.val = true → powAt s (powCg r) = .running → takenNeeds s (powCg r) = false →
      maySleep s n quiet = true →
      ∃ t, exec (.regionSleep n quiet) s = .next t ∧ powAt t (powCg r) = .asleep ∧
        (∀ c, regionOf c = r → (coreAt t c).store = [] ∧ (coreAt t c).ops = [] ∧ (∀ u, (tileOf (coreAt t c) u).empty = true)) ∧
        (∀ c, regionOf c ≠ r → coreAt t c = coreAt s c) ∧ (regionAt t r).tick = 0 ∧
        (∀ q, q ≠ r → regionAt t q = regionAt s q) ∧ t.dram = s.dram ∧ t.jobs = s.jobs) ∧
    (s.power.aon = true → s.power.resetLow = false → s.power.refStop = false → s.power.ready = true → s.power.step = 0 →
      wakesAllowed s = true → s.power.queue = [.wake m] → 17 ≤ m.val →
      ∃ t, exec .governorWindow s = .next t ∧ powAt t m = .waking ∧ t.power.queue = [] ∧
        (∀ k, k ≠ m → powAt t k = powAt s k) ∧ t.cores = s.cores ∧ t.regions = s.regions) ∧
    (powAt s m = .waking → s.power.ready = true → s.power.refStop = false → nothingWaits s →
      ∃ t, exec (.regionRunning m) s = .next t ∧ powAt t m = .running ∧ (∀ k, k ≠ m → powAt t k = powAt s k) ∧
        t.cores = s.cores ∧ t.jobs = s.jobs ∧ t.dram = s.dram)

namespace Sys2Proof.Machine

/-- `t` is the start of a cold reset from `s`: every region without power, no job, image or packet, on-die memories zero; fuses and
DRAM are as they were, and a blown life-cycle transition is complete (R354, R355, R362, R367). -/
def coldStart (cause : Nat) (s t : State) : Prop :=
  t.power.ready = false ∧ t.power.step = 1 ∧ t.power.warm = false ∧ t.power.cause = BitVec.ofNat 3 cause ∧ (∀ n, powAt t n = .asleep) ∧
    t.jobs = [] ∧ t.images = [] ∧ t.rings = resetRings ∧ (∀ c, (coreAt t c).seq = resetSeq ∧ (coreAt t c).store = []) ∧
    t.regions = Vector.replicate 17 resetRegion ∧ t.ports = Vector.replicate 10 resetPort ∧ t.mgtPeriods = 0 ∧ t.fuses = s.fuses ∧
    t.capCores = s.fuses.capCores ∧ t.activeCores = s.fuses.active ∧ t.ident.serial = s.ident.serial ∧
    t.ident.svnFused = s.ident.svnFused ∧ t.ident.lcState = s.ident.blown.getD s.ident.lcState ∧ t.ident.staging = [] ∧
    t.spdm = resetSpdm ∧ t.pending = s.pending

/-- `t` is the start of a warm reset from `s`: jobs, images, groups, rings, cores and the session are gone; DRAM, clocks, identity,
fabric identifier and epochs are as they were (R354, R356, R365; spec/16, Table 8). -/
def warmStart (cause : Nat) (s t : State) : Prop :=
  t.power.ready = false ∧ t.power.warm = true ∧ t.power.cause = BitVec.ofNat 3 cause ∧ t.jobs = [] ∧ t.images = [] ∧
    t.rings = resetRings ∧ t.groups = Vector.replicate 16 resetGroup ∧
    (∀ c, (coreAt t c).seq = resetSeq ∧ (coreAt t c).store = [] ∧
      ∀ m, (arrOf (coreAt t c) m).rowMap = (arrOf (coreAt s c) m).rowMap ∧ (arrOf (coreAt t c) m).colMap = (arrOf (coreAt s c) m).colMap) ∧
    (∀ r, (regionAt t r).freqIdx = (regionAt s r).freqIdx ∧ (regionAt t r).tick = 0 ∧ (regionAt t r).hold = none) ∧
    t.spdm.session = none ∧ (∀ k, t.spdm.ide.get k = none) ∧ t.dram = s.dram ∧ t.ident = s.ident ∧ t.fabric.id = s.fabric.id ∧
    t.snap.epoch = s.snap.epoch ∧ t.snap.complete = s.snap.complete ∧ t.mgtPeriods = s.mgtPeriods ∧ t.pending = s.pending

end Sys2Proof.Machine

open Sys2Proof Sys2Proof.Machine

/-- The resets (R247, R354 to R357, R372): which state each cause leaves, a wrong key that does nothing, and READY at a reset's end. -/
def Obligations.Resets : Prop :=
  ∀ (b : BarAcc) (v : Word) (mgrSel : Bool) (wid : BitVec 4) (s : State),
    let x := strobes b v
    (s.power.resetLow = true →
      ∃ t, exec (.resetNRelease mgrSel wid) s = .next t ∧ coldStart 0 s t ∧ t.power.resetLow = false ∧ t.power.aon = true ∧
        t.fabric.mgr = mgrSel ∧ t.wtn.inst = wid ∧ t.dram = s.dram) ∧
    (s.power.resetLow = false →
      ∃ t, exec .resetNAssert s = .next t ∧ coldStart 0 s t ∧ t.power.resetLow = true ∧ t.fabric.mgr = s.fabric.mgr ∧ t.dram = s.dram) ∧
    (∃ t, exec .powerRemoved s = .next t ∧ coldStart 0 s t ∧ t.power.aon = false ∧ t.power.resetLow = true ∧ t.power.hard = false ∧
      t.dram = []) ∧
    (served b s → fieldOf x 0 16 = 0xB007 → bitOf x 16 = true →
      ∃ t, exec (.pwrResetCold b v) s = .next t ∧ coldStart 1 s t ∧ t.fabric.mgr = s.fabric.mgr ∧ t.wtn.inst = s.wtn.inst ∧ t.dram = s.dram) ∧
    (served b s → fieldOf x 0 16 = 0xB007 → bitOf x 16 = false → bitOf x 17 = true → s.power.ready = true →
      ∃ t, exec (.pwrResetWarm b v) s = .next t ∧ warmStart 3 s t ∧ t.host.linkUp = s.host.linkUp) ∧
    (served b s → fieldOf x 0 16 ≠ 0xB007 →
      exec (.pwrResetCold b v) s = .next (written s) ∧ exec (.pwrResetWarm b v) s = .next (written s)) ∧
    (s.power.ready = true →
      (∃ t, exec .functionLevelReset s = .next t ∧ warmStart 4 s t ∧ t.host.linkUp = s.host.linkUp) ∧
      ∃ t, exec .perstAssert s = .next t ∧ warmStart 5 s t ∧ t.host.linkUp = false) ∧
    (resetMayEnd s = true → s.power.warm = true →
      exec .resetReady s = .next { s with power := { s.power with ready := true, step := 0, warm := false } }) ∧
    (resetMayEnd s = true → s.power.warm = false → s.spare.repairs = [] →
      ∃ t, exec .resetReady s = .next t ∧ t.power = { s.power with ready := true, step := 0, warm := false } ∧
        (∀ p, (portAt s p).en = true → portRuns s p = true → portAt t p = { portAt s p with state := pTraining }) ∧
        t.spare.repairs = rebuildsDue s ∧ t.cores = s.cores ∧ t.dram = s.dram)

/-- Firmware trust, the life cycle and digests (R286, R287, R359, R361, R367, R368): an image is accepted exactly where it fails no check,
else rejected with its reason; a request that is not listed, whose token does not name it, or before READY, is refused; one that needs no
token is blown and a cold reset completes it; a digest starts or is refused, and is SHA3-512 of its input. -/
def Obligations.TrustLifeCycleAndDigests : Prop :=
  ∀ (b : BarAcc) (v : Word) (d : DigestRun) (st : Status) (s : State),
    let u := written s
    let x := strobes b v
    let dst : BitVec 3 := BitVec.ofNat 3 x
    let asks : Prop := served b s ∧ bitOf x 3 = true ∧ s.ident.lcBusy = false
    (s.ident.bootState = 1 →
      exec .bootImageCheck s = .next { s with ident := if imageReason s.ident = 0 then { s.ident with
          bootState := 2, bootStatus := 0, bootReason := 0, svnImage := BitVec.ofNat 32 (memNat s.ident.staging 8 4)
          debugFw := (memGet s.ident.staging 5).getLsbD 0, meas := measurements s }
        else { s.ident with bootState := 3, bootStatus := 0x82, bootReason := BitVec.ofNat 8 (imageReason s.ident) } }) ∧
    (s.ident.bootState ≠ 1 → exec .bootImageCheck s = .next s) ∧
    (asks → s.power.ready = false → exec (.lifecycleRequest b v) s = .next { u with ident := { s.ident with lcStatus := 0x03 } }) ∧
    (asks → s.power.ready = true → lcListed s.ident dst = false →
      exec (.lifecycleRequest b v) s = .next { u with ident := { s.ident with lcStatus := 0x83 } }) ∧
    (asks → s.power.ready = true → lcListed s.ident dst = true → lcToken s.ident dst = true → tokenNames s.ident dst = false →
      exec (.lifecycleRequest b v) s = .next { u with
        free := s.free + 2
        ident := { s.ident with nonce0 := Config.nonce s.free, nonce1 := Config.nonce (s.free + 1), lcStatus := 0x83 } }) ∧
    (asks → s.power.ready = true → lcListed s.ident dst = true → lcToken s.ident dst = false →
      ∃ t, exec (.lifecycleRequest b v) s = .next t ∧ t.ident.lcState = dst ∧ t.ident.blown = none ∧ t.power.cause = 2 ∧
        t.power.ready = false ∧ t.jobs = [] ∧ t.dram = s.dram) ∧
    (let s1 := { u with digest := { s.digest with items := BitVec.ofNat 9 (merged b s.digest.items.toNat v) } }
     served b s → bitOf x 32 = true →
      (digestRefusal s1 (digestNamed s1) = none → exec (.digestStart b v) s = .next { s1 with digest := { s1.digest with
        state := 1, status := .ok, active := some (digestNamed s1) } }) ∧
      (digestRefusal s1 (digestNamed s1) = some st → exec (.digestStart b v) s = .next { s1 with digest := { s1.digest with
        state := 3, status := st } })) ∧
    (s.digest.active = some d →
      (∀ c, c ∈ (bitList 64 d.cores.toNat).filterMap (physicalOf s) → ∀ q, (qOf (coreAt s c) q).xfers = []) →
      exec .digestDone s = .next { s with digest := { s.digest with
        state := 2, active := none
        out := Vector.ofFn (fun i => BitVec.ofNat 64 (wordOfBytes (sha3 (digestInput s d)) i.val)) } })

/-- SPDM (R363 to R365): versions, capabilities and algorithms in their order, measurements, one session with its key exchange and
finish, heartbeats and the end of a session, and a stream keyed inside it. Signatures and exchange values are free values. -/
def Obligations.SpdmSessions : Prop :=
  ∀ (index : Byte) (nonce key : BitVec 256) (sid : BitVec 16) (ex vd bs : List Byte) (k : Fin 4) (s : State),
    hostReaches s = true →
    let z := s.spdm
    let tells (y : Spdm) : Host.Outcome State Fault Refusal := .next { s with spdm := y }
    exec .getVersion s = tells { z with versioned := true, capable := false, negotiated := false, out := .version 0x13 } ∧
    (z.versioned = true → exec .getCapabilities s = tells { z with
      capable := true, out := .capabilities true true true true true true s.ident.idKey }) ∧
    (z.versioned = false → exec .getCapabilities s = tells { z with out := .unexpected }) ∧
    (z.capable = true → exec .negotiateAlgorithms s = tells { z with negotiated := true, out := .algorithms }) ∧
    (z.negotiated = true → measBlocks s index nonce = some bs →
      exec (.getMeasurements index false nonce) s = tells { z with out := .measurements bs [] }) ∧
    (z.negotiated = true → s.ident.idKey = true → measBlocks s index nonce = some bs →
      ∃ sig, exec (.getMeasurements index true nonce) s = .next { s with
        spdm := { z with out := .measurements bs sig }, free := s.free + 1 }) ∧
    (z.negotiated = true → s.ident.idKey = false →
      exec (.getMeasurements index true nonce) s = tells { z with out := .unsupported } ∧
      exec (.keyExchange sid ex) s = tells { z with out := .unsupported }) ∧
    (z.negotiated = true → s.ident.idKey = true → z.session = none →
      ∃ own sig, exec (.keyExchange sid ex) s = .next { s with
        free := s.free + 1
        spdm := { z with session := some sid, established := false, exchange := ex, out := .keyExchange own sig } }) ∧
    (z.negotiated = true → s.ident.idKey = true → z.session ≠ none → exec (.keyExchange sid ex) s = tells { z with out := .busy }) ∧
    (z.session ≠ none → z.established = false → s.ident.idKey = true →
      exec (.spdmFinish vd) s = (if Config.finishOk z.exchange vd = true then tells { z with established := true, out := .finish }
        else tells { z with session := none, out := .decryptError })) ∧
    (exec .spdmHeartbeat s = tells { z with out := if z.established = true then .heartbeat else .unexpected }) ∧
    (z.established = true →
      exec .endSession s = tells { z with session := none, established := false, out := .ended } ∧
      exec (.ideKmRequest k key) s = tells { z with ide := z.ide.set k.val (some key) k.isLt, out := .keyed k }) ∧
    (z.established = false →
      exec .endSession s = tells { z with out := .unexpected } ∧ exec (.ideKmRequest k key) s = tells { z with out := .unexpected })

/-- The board's side (R298, R299, R374, R383): an edge of AUX_SYNC brings a gated barrier's own arrival; the Waton target writes and
reads registers, takes and gives up an address, and answers its common commands; the JTAG port's instructions take the lands only while
RESET_N is low. -/
def Obligations.BoardInterfaces : Prop :=
  ∀ (b : Fin 8) (bytes : List Byte) (addr : BitVec 7) (ev : Byte) (pins shift : BitVec 17) (s : State),
    let w := s.wtn
    let tells (y : Waton) : Host.Outcome State Fault Refusal := .next { s with wtn := y }
    let off := leNat ((bytes.drop 1).take 4)
    let edge : State := { s with power := { s.power with auxLevel := true } }
    (s.power.aon = true → s.power.resetLow = false → s.power.auxBar = false → exec .auxSyncEdge s = .next edge) ∧
    (s.power.aon = true → s.power.resetLow = false → s.power.auxBar = true → s.power.auxBarrier = BitVec.ofNat 3 b.val →
      barCondition s b = true → mgtRuns s = true → (∃ p ∈ s.fabric.kids, p ∉ (barAt s b).kids) →
      exec .auxSyncEdge s = .next (modBar edge b (fun x => { x with selfIn := true }))) ∧
    (w.valid = true → bytes.length = 13 → bytes.head? = some 0x02 → chainWritable off = true →
      exec (.watonWrite bytes) s = .next (regWrite { lanes := .all, keyed := true } off (BitVec.ofNat 64 (leNat (bytes.drop 5)))
        { s with wtn := { w with out := .ack } })) ∧
    (w.valid = true → bytes.length = 5 → bytes.head? = some 0x01 → chainReadable (leNat (bytes.drop 1)) = true →
      exec (.watonRead bytes) s = .next (regClear { s with wtn := { w with out := .bytes (leBytes 8 (regRead s (leNat (bytes.drop 1)))) } }
        (leNat (bytes.drop 1)))) ∧
    (w.valid = false →
      ∀ i ∈ [Instr.watonWrite bytes, .watonRead bytes, .getpid, .getbcr, .getdcr, .getstatus, .getmxds],
        exec i s = tells { w with out := .nack }) ∧
    (mgtRuns s = true → w.valid = false → exec (.entdaa addr) s = tells { w with
      addr := addr, valid := true, hotJoin := false, out := .bytes (provisionedId s ++ [0x06, 0x00]) }) ∧
    exec .rstdaa s = tells { w with addr := 0, valid := false, out := .ack } ∧
    (mgtRuns s = true →
      exec (.enec ev) s = tells { w with events := w.events ||| ev, out := .ack } ∧
      exec (.disec ev) s = tells { w with events := w.events &&& ~~~ev, out := .ack }) ∧
    (w.valid = true →
      exec .getpid s = tells { w with out := .bytes (provisionedId s) } ∧ exec .getbcr s = tells { w with out := .bytes [0x06] } ∧
      exec .getdcr s = tells { w with out := .bytes [0x00] } ∧
      (∃ y, exec .getstatus s = .next { s with wtn := { w with out := .bytes y }, free := s.free + 1 } ∧ y.length = 2) ∧
      (∃ y, exec .getmxds s = tells { w with out := .bytes y } ∧ y.length = 2)) ∧
    (s.power.aon = true →
      exec .jtagBypass s = .next { s with jtag := { s.jtag with ir := .bypass, effective := false } } ∧
      exec .jtagIdcode s = .next { s with jtag := { s.jtag with ir := .idcode, effective := false, out := idcodeWord s } } ∧
      exec (.samplePreload pins shift) s = .next { s with jtag := { s.jtag with
        ir := .samplePreload, effective := false, captured := pins, boundary := shift } } ∧
      (s.power.resetLow = true → exec (.extest pins shift) s = .next { s with jtag := { s.jtag with
        ir := .extest, effective := true, captured := pins, boundary := shift } }) ∧
      (s.power.resetLow = false → exec (.extest pins shift) s = .next { s with jtag := { s.jtag with ir := .extest, effective := false } }) ∧
      exec .clamp s = .next { s with jtag := { s.jtag with ir := .clamp, effective := s.power.resetLow } } ∧
      exec .highz s = .next { s with jtag := { s.jtag with ir := .highz, effective := s.power.resetLow } })

namespace Sys2Proof.Machine

/-- `s` with port `p` as `q` says, and nothing else changed. -/
def setPort (s : State) (p : PortId) (q : Port) : State := { s with ports := s.ports.set p.val q p.isLt }

/-- Port `p` has gone down with a reason: what it held is gone, an alert names it, and no other port and no byte of DRAM changes
(R318). -/
def wentDown (p : PortId) (reason : Nat) (s t : State) : Prop :=
  (portAt t p).state = pDown ∧ (portAt t p).reason = BitVec.ofNat 3 reason ∧ (portAt t p).queue = [] ∧ (portAt t p).replay = [] ∧
    (portAt t p).lanes = 0 ∧ (∀ q, q ≠ p → portAt t q = portAt s q) ∧
    (∃ a ∈ t.rings.alerts, a.status = .linkDown ∧ a.detail = BitVec.ofNat 64 (p.val + 256 * reason)) ∧ t.dram = s.dram

end Sys2Proof.Machine

open Sys2Proof Sys2Proof.Machine

/-- The ports (R290 to R295, R304, R318, R329): training, lanes and their switch to the spare, flits with their sequence numbers and
acknowledgements, replays, credits and fabric time; each changes its own port or takes it down. -/
def Obligations.PortEvents : Prop :=
  ∀ (b : BarAcc) (p : PortId) (x : Training) (l : Fin 9) (counts : Vector Nat 9) (lanes : BitVec 9) (word corrected : Nat) (bytes : List Byte)
    (marked : Bool) (cl : Fin 4) (credits : Vector Nat 4) (sent recv peerSent peerRecv : Word) (s : State),
    let q := portAt s p
    let trains : Prop := portRuns s p = true ∧ q.en = true ∧ (q.state = pTraining ∨ q.state = pDown)
    let up : Prop := portUp s p = true
    let ctl : Prop := portUp s p = true ∧ s.power.lost = false
    let seen (m : Fin 9) : Prop := lanes.getLsbD m.val = true ∧ (q.lanes.getLsbD m.val = true ∨ (spareLane q = some m ∧ q.spareUsed = false))
    let plain : Prop := spareHealthy q = true ∧ q.asked = none ∧ q.agreed = none
    let h := leNat (bytes.take 4)
    let fec := BitVec.ofNat 32 (Nat.min (q.fecCorr.toNat + corrected) (2 ^ 32 - 1))
    (trains → (bestLanes x.errors x.usable).length < 8 →
      exec (.portTrain p x) s = .next (setPort s p { q with state := pTraining })) ∧
    (trains → q.queue = [] → (bestLanes x.errors x.usable).length = 8 → x.usable = 0x1FF →
      exec (.portTrain p x) s = .next { setPort s p { q with
        state := pUp, settled := true, spareLost := false, lanes := laneMask (bestLanes x.errors x.usable), spareUsed := false, failedLane := 0xF, reason := 0
        peer := x.peer.getD 0, peerValid := x.peer.isSome, replay := [], txNum := 0, rxNum := 0xFFF, lastAck := 0xFFF, rxGap := false
        nakDue := false, nakGot := false, replays := 0, credits := x.credits, owed := Vector.replicate 4 0
        returned := Vector.replicate 4 0, sentMark := false, markAt := none, asked := none, agreed := none } with
        fabric := { s.fabric with moved := true } }) ∧
    (trains → exec (.trainRetry p) s = .next (setPort s p { q with
      state := pTraining, settled := true, tries := BitVec.ofNat 16 (Nat.min (q.tries.toNat + 1) (2 ^ 16 - 1)) })) ∧
    (served b s → portRuns s p = true → q.en = true → q.state ≠ pUp →
      exec (.portRetrain b p) s = .next (setPort (written s) p { q with state := pTraining, settled := false })) ∧
    (served b s → up → q.en = true →
      ∃ t, exec (.portRetrain b p) s = .next t ∧ (portAt t p).state = pTraining ∧ (portAt t p).reason = 1 ∧ (portAt t p).queue = [] ∧
        (∃ a ∈ t.rings.alerts, a.status = .linkDown)) ∧
    (up → (∀ m, q.lanes.getLsbD m.val = true → counts.get m ≤ q.laneThr.toNat * 1000) →
      exec (.laneFailureWindow p counts word) s = .next s) ∧
    (up → plain → (∀ m, (q.lanes.getLsbD m.val = true ∧ q.laneThr.toNat * 1000 < counts.get m) ↔ m = l) →
      exec (.laneFailureWindow p counts word) s = .next (setPort s p { q with asked := some (l, word) })) ∧
    (∀ m, up → m ≠ l → q.lanes.getLsbD m.val = true → q.lanes.getLsbD l.val = true → q.laneThr.toNat * 1000 < counts.get m →
      q.laneThr.toNat * 1000 < counts.get l →
      ∃ t, exec (.laneFailureWindow p counts word) s = .next t ∧ wentDown p 2 s t) ∧
    (up → plain → q.lanes.getLsbD l.val = true → (∀ m, seen m ↔ m = l) →
      exec (.signalLost p lanes word) s = .next (setPort s p { q with asked := some (l, word) })) ∧
    (up → q.lanes.getLsbD l.val = false → (∀ m, seen m ↔ m = l) →
      exec (.signalLost p lanes word) s = .next (setPort s p { q with spareLost := true })) ∧
    (∀ m, up → m ≠ l → seen m → seen l → ∃ t, exec (.signalLost p lanes word) s = .next t ∧ wentDown p 5 s t) ∧
    (ctl → q.lanes.getLsbD l.val = true → spareHealthy q = true →
      exec (.laneSwitchRequest p l word) s = .next (setPort s p { q with agreed := some (l, word) })) ∧
    (ctl → q.asked = some (l, word) →
      exec (.laneSwitchAccept p word) s = .next (setPort s p { q with asked := none, agreed := some (l, word) })) ∧
    (∀ w, ctl → q.asked = some (l, w) →
      exec (.laneSwitchRetry p word) s = .next (setPort s p { q with asked := some (l, word) })) ∧
    (∀ sp, up → q.agreed = some (l, word) → spareLane q = some sp → q.spareLost = true →
      ∃ t, exec (.laneSwitchAtCount p) s = .next t ∧ wentDown p 2 s t) ∧
    (∀ sp, up → q.agreed = some (l, word) → spareLane q = some sp → q.spareLost = false →
      ∃ t, exec (.laneSwitchAtCount p) s = .next t ∧ (portAt t p).spareUsed = true ∧ (portAt t p).failedLane = BitVec.ofNat 4 l.val ∧
        (∀ m, (portAt t p).lanes.getLsbD m.val = true ↔ (q.lanes.getLsbD m.val = true ∧ m ≠ l) ∨ m = sp) ∧
        (portAt t p).agreed = none ∧ t.spare.lastKind = 7 ∧ t.dram = s.dram) ∧
    (up → flitBad bytes marked = true →
      exec (.linkFlitReceive p bytes marked corrected) s = .next (setPort s p { q with
        fecCorr := fec, crcFail := BitVec.ofNat 16 (Nat.min (q.crcFail.toNat + 1) (2 ^ 16 - 1))
        rxGap := q.rxGap || decide (fieldOf h 0 2 = 1), nakDue := q.nakDue || decide (fieldOf h 0 2 = 1) })) ∧
    (up → flitBad bytes marked = false → q.queue = [] → q.replay = [] → fieldOf h 0 2 = 1 → fieldOf h 27 3 < 4 →
      BitVec.ofNat 12 (fieldOf h 2 12) = q.rxNum + 1 →
      exec (.linkFlitReceive p bytes marked corrected) s = .next (setPort s p { q with
        fecCorr := fec, rxNum := q.rxNum + 1, rxGap := false, nakDue := false, nakGot := q.nakGot || bitOf h 26
        owed := Vector.ofFn (fun c => if c.val = fieldOf h 27 2 then q.owed.get c + 1 else q.owed.get c) })) ∧
    (up → q.nakGot = true → q.replays < 7 →
      exec (.nakReplay p) s = .next (setPort s p { q with
        nakGot := false, replays := q.replays + 1, replayCnt := BitVec.ofNat 16 (Nat.min (q.replayCnt.toNat + 1) (2 ^ 16 - 1)) })) ∧
    (up → q.nakGot = true → 7 ≤ q.replays → ∃ t, exec (.nakReplay p) s = .next t ∧ wentDown p 3 s t) ∧
    (up → q.credits.get cl = 0 → (∃ y ∈ q.queue, y.cls = cl) → cl ≠ 1 ∨ markFresh s q = false →
      ∃ t, exec (.creditStopTimeout p cl) s = .next t ∧ wentDown p 4 s t) ∧
    (let q1 := { q with
        credits := Vector.ofFn (fun c => q.credits.get c + credits.get c), markAt := if marked = true then some s.mgtPeriods else q.markAt }
     up → q.queue = [] →
      (s.power.lost = true → exec (.controlFlit p credits marked) s = .next (setPort s p q1)) ∧
      (s.power.lost = false → exec (.controlFlit p credits marked) s = .next (setPort s p { q1 with
        owed := Vector.ofFn (fun c => q.owed.get c - (creditsDue s q).get c), returned := creditsDue s q
        sentMark := marksPeer (setPort s p q1) p }))) ∧
    (ctl → s.fabric.mgr = false → s.fabric.idValid = true → s.fabric.parent.toNat = p.val →
      exec (.timeExchange p sent recv peerSent peerRecv) s = .next { s with fabric := { s.fabric with
        time := peerSent + BitVec.ofNat 64 (((recv - sent) - (peerSent - peerRecv)).toNat / 2), tsync := true } })

/-- Link commands and their packets (R297, R309 to R315): a command is taken or fences its job; a packet without a route is counted; an
arriving write waits for its stacks in its order, and then changes the bytes it carries where a window allows it and none where it does
not; a contribution waits in its core's
buffer and enters its queue; a flag is raised; an acknowledgement ends its command or fences its job, and one of a job that was fenced is
discarded. -/
def Obligations.LinkPackets : Prop :=
  ∀ (p q : PortId) (c d : CoreId) (x : LinkPkt) (final : Bool) (i : ContribInfo) (rc : Fin 64) (f : Fin 8) (l : LinkCmd) (e : LinkEntry)
    (st : Status) (j : JobId) (n : Nat) (s : State),
    let k := coreAt s c
    let hits (a : Nat) : Prop := ∃ b, b < x.data.length ∧ dramKey s (x.addr.toNat + b) = a
    let fresh (y : LinkIn) : Prop :=
      arrives s p x = true ∧ inboundIo s (portVia p) = [] ∧ inServed s (portVia p) y = true ∧ badAddrs s = []
    let allows (area : Option Nat) : Prop := landAllowed s (landingOf s x area) x = true
    let area := (i.nrowsM1.val + 1) * (if i.wide = true then 2048 else 512)
    (portUp s p = true → isOwnId s x.dst = false → routeOf s x.dst = none →
      exec (.packetForward p x) s = .next { s with fabric := { s.fabric with
        dropped := BitVec.ofNat 22 (Nat.min (s.fabric.dropped.toNat + 1) (2 ^ 22 - 1)) } }) ∧
    (portUp s p = true → isOwnId s x.dst = false → routeOf s x.dst = some q → portUp s q = false →
      exec (.packetForward p x) s = .next (modPort s q (fun y => { y with queue := y.queue ++
        [{ pkt := x, cls := pktClass x.pk, owner := none, left := 16 + 32 * ceilDiv x.data.length 32, final := false, came := some p }] }))) ∧
    (nextLink s c = some l → s.power.lost = false → outstanding k < 64 →
      coreFencing k = false →
      (∀ chks, lcFault s c l.words = some st → exec (.linkCommandTake ⟨c, chks⟩) s = .next (fenceCore c (linkFault st c (linkVia l.words)) s)) ∧
      (∀ chks, lcFault s c l.words = none → lcReads l.words = true →
        rangeServed s (linkOwner (linkVia l.words)) (fieldOf l.words.word1.toNat 0 48) (lcBytes l.words) = false →
        ∃ t, exec (.linkCommandTake ⟨c, chks⟩) s = .next t ∧ t.cores = s.cores ∧ t.ports = s.ports ∧ t.jobs = s.jobs ∧ t.dram = s.dram) ∧
      (lcFault s c l.words = none → badAddrs s = [] →
        (lcReads l.words = true →
          rangeServed s (linkOwner (linkVia l.words)) (fieldOf l.words.word1.toNat 0 48) (lcBytes l.words) = true) →
        ∃ t, exec (.linkCommandTake ⟨c, []⟩) s = .next t ∧ (∀ m ∈ (coreAt t c).links, m.seqNo = l.seqNo → m.taken = true) ∧
          (coreAt t c).links.length = k.links.length ∧ (coreAt t c).store = k.store ∧ t.jobs = s.jobs ∧ t.dram = s.dram)) ∧
    (∀ chks, arrives s p x = true → inboundIo s (portVia p) ≠ [] ∨ inServed s (portVia p) (.write p x final) = false →
      ∃ t, exec (.linkWritePacket p ⟨x, chks⟩ final) s = .next t ∧
        inboundIo t (portVia p) = inboundIo s (portVia p) ++ [.write p x final] ∧ t.dram = s.dram ∧ t.cores = s.cores ∧ t.jobs = s.jobs) ∧
    (fresh (.write p x final) →
      ∃ t, exec (.linkWritePacket p ⟨x, []⟩ final) s = .next t ∧ t.jobs = s.jobs ∧
        (allows none → ∀ a, ¬ hits a → memGet t.dram a = memGet s.dram a) ∧ (¬ allows none → t.dram = s.dram) ∧
        (allows none → memWf s.dram = true → dramRead t x.addr.toNat x.data.length = x.data)) ∧
    (fresh (.contribution p x i) → i.final = true → s.fabric.refused = [] → s.fabric.landBad = [] → s.fabric.store = [] →
      s.fabric.arrived = [] → allows (some area) →
      rcoreOf s i.rcore = some c → k.seq.job.isSome = true → (combOf k i.rk).mode = true → (combOf k i.rk).entries.length < 16 →
      k.linkBuf.length < 16 →
      ∃ t y, exec (.linkContributionPacket p ⟨x, []⟩ i) s = .next t ∧ (coreAt t c).linkBuf = k.linkBuf ++ [y] ∧ y.k = i.rk ∧ y.src = x.src ∧
        y.cmd = x.cmd ∧ combOf (coreAt t c) i.rk = combOf k i.rk ∧ (∀ a, ¬ hits a → memGet t.dram a = memGet s.dram a)) ∧
    (nextEntry s c = some e → entryTarget s e = some d → s.fabric.store = [] → s.fabric.arrived = [] → s.fabric.flags = [] →
      ∃ t, exec (.contributionEntry c) s = .next t ∧ (coreAt t c).linkBuf = k.linkBuf.erase e ∧
        (∃ y, (combOf (coreAt t d) e.k).entries = (combOf (coreAt s d) e.k).entries ++ [y] ∧ y.words = e.words) ∧ t.dram = s.dram) ∧
    (arrives s p x = true → inboundIo s (portVia p) = [] → entriesAhead s x.src x.core p = [] → rcoreOf s rc = some c → k.seq.job = some j →
      canFence (jobAt s j) = true →
      ∃ t, exec (.linkFlagPacket p x rc f) s = .next t ∧ (coreAt t c).xflags = k.xflags.set f.val (k.xflags.get f + 1) f.isLt ∧
        (coreAt t c).seq = k.seq ∧ t.jobs = s.jobs ∧ t.dram = s.dram) ∧
    (k.linkBuf = [e] → beyondBuf s = [] → s.fabric.flags = [] →
      exec (.progressAckTimer c) s = .next (sendAck e.src e.core e.cmd .ok true s)) ∧
    (isOwnId s x.dst = true → x.cmd.getLsbD 18 = false → rcoreOf s x.core = some c → k.lateAcks.contains (x.src, x.cmd.toNat) = true →
      x.addr.getLsbD 0 = false →
      exec (.linkAckPacket x) s = .next (setCore s c { k with lateAcks := k.lateAcks.erase (x.src, x.cmd.toNat) })) ∧
    (isOwnId s x.dst = true → x.cmd.getLsbD 18 = false → rcoreOf s x.core = some c → k.lateAcks.contains (x.src, x.cmd.toNat) = false →
      k.links.find? (fun m => m.taken && !m.acked && decide (m.index = x.cmd.toNat)) = some l → k.seq.job = some j →
      canFence (jobAt s j) = true → x.addr.getLsbD 0 = false →
      (x.status = 0 → exec (.linkAckPacket x) s = .next (setCore s c
        (countDone { k with links := k.links.map (fun m => if m.seqNo = l.seqNo then { m with acked := true } else m) }))) ∧
      (x.status ≠ 0 → exec (.linkAckPacket x) s =
        .next (fenceCore c (linkFault (statusOf x.status.toNat) c (linkVia l.words)) s))) ∧
    (k.links.find? (fun m => decide (m.index = n) && m.sent && !m.acked) = some l →
      exec (.ackTimeout c n) s = .next (fenceCore c (linkFault .peerLost c (linkVia l.words)) s))

/-- The fabric's protocols (R300 to R308, R319, R337): enumeration, barriers, fabric-wide groups and heartbeats. -/
def Obligations.FabricProtocols : Prop :=
  ∀ (x : EnumPkt) (b : Fin 8) (g : Fin 16) (p : PortId) (at_ : Word) (l : BitVec 16) (peer id : BitVec 14) (dep : BitVec 5)
    (par : BitVec 4) (take : Bool) (s : State),
    let f := s.fabric
    let y := barAt s b
    let z := groupAt s g
    let lead : Word := f.time + leadTime s
    (f.mgr = true → f.enumSt ≠ 3 → mgtRuns s = true → s.power.ready = true → portsSettled s = true → f.enumSt = 0 ∨ f.moved = true →
      exec .enumerationStart s = .next { s with fabric := { f with idValid := true, id := 0, depth := 0, parent := 0xF, enumSt := 1, moved := false } }) ∧
    (f.enumSt ≠ 3 → mgtRuns s = true → portsSettled s = false → exec .enumerationStart s = .next s) ∧
    (∀ cs, f.mgr = true → f.enumSt = 1 → mgtRuns s = true → x.fromOther = false → x.found = some cs →
      let t0 := fabTree cs f.known
      ∃ t, exec (.enumerationPacket x) s = .next t ∧ t.fabric.routes = routeTable cs t0.nodes 0 ∧ t.fabric.kids = kidPorts t0.nodes 0 ∧
        t.fabric.known = t0.known ∧ t.fabric.unassigned = BitVec.ofNat 14 (unassignedOf cs t0.nodes) ∧ t.fabric.enumSt = 2 ∧
        t.fabric.id = f.id ∧ t.dram = s.dram ∧ t.jobs = s.jobs) ∧
    (f.enumSt ≠ 3 → mgtRuns s = true → f.mgr = true → x.fromOther = true →
      ∃ t, exec (.enumerationPacket x) s = .next t ∧ t.fabric = { f with enumSt := 3 } ∧
        (∃ a ∈ t.rings.alerts, a.status = .resourceConflict) ∧ t.dram = s.dram ∧ t.cores = s.cores) ∧
    (f.enumSt ≠ 3 → mgtRuns s = true → f.mgr = false → x.assign = some (id, dep, par) → x.routes = [] → x.kids = none →
      exec (.enumerationPacket x) s = .next { s with fabric := { f with
        idValid := true, id := id, depth := dep, parent := par, enumSt := if x.done = true then 2 else 1 } }) ∧
    (f.enumSt ≠ 3 → mgtRuns s = true → f.mgr = false → x.assign = none →
      ∃ t, exec (.enumerationPacket x) s = .next t ∧ t.fabric.routes = x.routes.foldl setRoute f.routes ∧
        t.fabric.kids = x.kids.getD f.kids ∧ t.fabric.id = f.id ∧ t.ports = s.ports) ∧
    (barCondition s b = true → auxGates s b = false → mgtRuns s = true → (∃ q ∈ f.kids, q ∉ y.kids) →
      exec (.barrierArrive b none) s = .next (modBar s b (fun _ => { y with selfIn := true }))) ∧
    (barCondition s b = true → auxGates s b = false → mgtRuns s = true → (∀ q ∈ f.kids, q ∈ y.kids) → y.state ≠ 1 → f.mgr = true →
      ∃ t, exec (.barrierArrive b none) s = .next t ∧ barAt t b = { y with
        mode := 0, state := 2, late := y.late || decide (lead.toNat < f.time.toNat), kids := [], selfIn := false
        release := if y.mode = 2 then some lead else none } ∧
        t.jobs = s.jobs ∧ t.cores = s.cores) ∧
    (p ∈ f.kids → portUp s p = true → y.selfIn = false → p ∉ y.kids →
      exec (.barrierArrive b (some p)) s = .next (modBar s b (fun _ => { y with kids := y.kids ++ [p] }))) ∧
    (y.state = 1 →
      ∃ t, exec (.barrierRelease b at_) s = .next t ∧ barAt t b = { y with
        mode := 0, state := 2, late := y.late || decide (at_.toNat < f.time.toNat), kids := [], selfIn := false
        release := if y.mode = 2 then some at_ else none } ∧ t.jobs = s.jobs ∧ t.cores = s.cores) ∧
    (y.release = some at_ → f.tsync = false ∨ at_.toNat ≤ f.time.toNat →
      exec (.barrierStartAtT b) s = .next (jobStart (jobIx y.job.toNat) (modBar s b (fun _ => { y with release := none })))) ∧
    (y.release = some at_ → f.tsync = true → f.time.toNat < at_.toNat → exec (.barrierStartAtT b) s = .next s) ∧
    (z.state = .preparing → fabricWide s g = true → groupFenced s z = none → z.reported = false → allPrepared z = true →
      (∀ q ∈ f.kids, q ∈ z.kids) → f.mgr = false →
      ∃ t, exec (.fabricPrepared g ⟨none, take⟩) s = .next t ∧ groupAt t g = { z with reported := true } ∧
        (∀ q : PortId, f.parent.toNat = q.val → ∃ m, (portAt t q).queue = (portAt s q).queue ++ [m] ∧ m.pkt.pk = 7 ∧
          m.pkt.addr = BitVec.ofNat 48 (0x20 + g.val) ∧ m.pkt.data = [BitVec.ofNat 8 (bitNat (z.busy || snapBusy s))]) ∧ t.cores = s.cores ∧ t.dram = s.dram) ∧
    (z.state = .isOpen ∨ z.state = .preparing → fabricWide s g = true →
      ∃ t, exec (.fabricAbort g l) s = .next t ∧ (groupAt t g).state = .aborted ∧ (groupAt t g).status = .commitAborted ∧
        (groupAt t g).detail = l ∧ (groupAt t g).regs = [] ∧ (groupAt t g).mems = [] ∧ t.dram = s.dram) ∧
    (z.state = .preparing → fabricWide s g = true → z.reported = true → f.mgr = false →
      ∃ t, exec (.fabricApply g at_ take) s = .next t ∧ groupAt t g = { z with state := .applying, applied := [], applyAt := some at_ } ∧
        t.cores = s.cores ∧ t.dram = s.dram) ∧
    (s.power.lost = true → exec .heartbeatSend s = .next s) ∧
    (s.power.lost = false → f.idValid = true → mgtRuns s = true → f.mgr = false → f.id ≠ 0 → routeOf s 0 = some p → portUp s p = false →
      ∃ t m, exec .heartbeatSend s = .next t ∧ (portAt t p).queue = (portAt s p).queue ++ [m] ∧ m.pkt.pk = 5 ∧ m.pkt.src = f.id ∧
        t.cores = s.cores ∧ t.jobs = s.jobs) ∧
    (mgtRuns s = true → f.mgr = true →
      exec (.heartbeatPacket peer) s = .next { s with fabric := { f with
        lostPeers := f.lostPeers.filter (fun n => decide (n ≠ peer.toNat)) } }) ∧
    (mgtRuns s = true → f.idValid = true → f.mgr = true → peer ≠ 0 → f.lostPeers.contains peer.toNat = false →
      ∃ t, exec (.heartbeatMiss peer) s = .next t ∧ peer.toNat ∈ t.fabric.lostPeers ∧ t.snap.halted = true ∧ t.snap.lost = peer ∧
        t.snap.haltEpoch = s.snap.complete ∧ (∃ a ∈ t.rings.alerts, a.status = .peerLost) ∧
        (∀ j, canFence (jobAt t j) = false) ∧ t.dram = s.dram)

/-- The registers at reset (spec/01 to 18, register tables): the values that the tables give for a cold reset, as reads of the registers
and of what has no register find them. -/
def Obligations.RegistersAtReset : Prop :=
  let s := State.reset
  (∀ r, (regionAt s r).tick = 0 ∧ (regionAt s r).holdwd = 0x00100000 ∧ (regionAt s r).hold = none ∧ (regionAt s r).freqIdx = 0 ∧
    (regionAt s r).lockstep = false ∧ (regionAt s r).guard = 0b100) ∧
  (∀ c, (∀ r, sreg (coreAt s c) r = 0) ∧ (coreAt s c).seq.run = .idle ∧ (coreAt s c).seq.job = none ∧ (coreAt s c).seq.pc = 0 ∧
    (coreAt s c).reg.seed = 0 ∧ (coreAt s c).reg.step = 0 ∧ (coreAt s c).reg.cvtOvf = false ∧ (coreAt s c).reg.sclEmin = 0xEC ∧
    (coreAt s c).skd.credwd = 0x000C0000 ∧ (coreAt s c).skd.wheel0 = 0xFEDCBA9876543210 ∧ (coreAt s c).store = [] ∧
    (∀ t, (tileOf (coreAt s c) t).cfg = { rows := 0x80, rowb := 0b10000, fmt := 0b00011, axis := false } ∧
      (tileOf (coreAt s c) t).empty = true) ∧
    (∀ q, (qOf (coreAt s c) q).limit = 0 ∧ (qOf (coreAt s c) q).esize = 0x3F) ∧
    (∀ e, (epOf (coreAt s c) e).isOpen = false ∧ (epOf (coreAt s c) e).credits = 0)) ∧
  s.rings.enable = false ∧ s.rings.size = 0xC ∧ s.rings.rvec = 0 ∧ s.rings.avec = 1 ∧ s.prepTmo = 0x3E8 ∧ s.jobs = [] ∧ s.images = [] ∧
  (∀ g, (groupAt s g).state = .closed ∧ (groupAt s g).detail = 0xFFFF) ∧ (∀ i, (s.host.wins.get i).en = false) ∧
  (∀ k, (memAt s k).dieState = 0 ∧ (memAt s k).badDie = 0x1F ∧ (memAt s k).trip = false ∧
    ((memAt s k).wheel.get 0 = 0x42 ∧ (memAt s k).wheel.get 21 = 0xC0 ∧ (memAt s k).wheel.get 1 = 0x40)) ∧
  s.scrub = true ∧ s.stackLocal = false ∧ s.snap.period = 0x00F0 ∧ s.snap.share = 0x19 ∧ s.snap.epoch = 0 ∧ s.snap.halted = false ∧
  s.spare.lastUnit = 0xFF ∧ s.spare.auto = true ∧ s.spare.shedEn = true ∧ s.power.ready = false ∧ s.power.budget = 0x0C8 ∧
  s.power.warnAt = 0x64 ∧ s.power.supply = 0 ∧ s.fabric.hbPeriod = 0x03E8 ∧ s.fabric.hbMiss = 3 ∧ s.fabric.ackTmo = 0x0064 ∧
  s.fabric.lead = 0x0020 ∧ s.fabric.parent = 0xF ∧ (∀ p, (portAt s p).en = true ∧ (portAt s p).laneThr = 0x40 ∧ (portAt s p).failedLane = 0xF) ∧
  s.wtn.valid = false ∧ s.jtag.ir = .idcode ∧ s.mgtPeriods = 0 ∧ s.pending = []

/-- The memories of the device are in canonical form at reset: what a byte reads as decides what the memory is. -/
def Obligations.MemoriesCanonicalAtReset : Prop := State.reset.memoriesWf = true

/-- Every step keeps DRAM, every local store, the staging window and the token in canonical form: addresses strictly rising, and no
byte listed that reads as an unlisted one does. -/
def Obligations.MemoriesStayCanonical : Prop :=
  ∀ (s t : State), s.memoriesWf = true → step s = .next t → t.memoriesWf = true

/-- No command adds, drops or reorders the commands that wait: a step takes the one at the front and leaves the rest. -/
def Obligations.CommandsWaitInOrder : Prop :=
  ∀ (s t : State), step s = .next t → t.pending = s.pending.drop 1
end

