-- ==== Sys2Proof/Laws/Cells.lean ====
section
/-! SUPPORT. The laws of the sparse maps: a read after a write, and the canonical form that every memory operation keeps. -/

namespace Sys2Proof.Machine

/-- Every listed index is above `lo`, as a proposition. -/
theorem cellRising_mono {β : Type} {lo hi : Nat} (m : List (Nat × β)) (h : lo ≤ hi) (hr : cellRising hi m = true) : cellRising lo m = true := by
  cases m with
  | nil => rfl
  | cons e r =>
    obtain ⟨k, v⟩ := e
    simp only [cellRising, Bool.and_eq_true, decide_eq_true_eq] at hr ⊢
    exact ⟨by omega, hr.2⟩

/-- An index at or below the bound is not listed. -/
theorem cellGet_below {β : Type} (d : β) (m : List (Nat × β)) (lo a : Nat) (hr : cellRising lo m = true) (h : a ≤ lo) : cellGet d m a = d := by
  induction m generalizing lo with
  | nil => rfl
  | cons e r ih =>
    obtain ⟨k, v⟩ := e
    simp only [cellRising, Bool.and_eq_true, decide_eq_true_eq] at hr
    have : a ≠ k := by omega
    simp only [cellGet, this, if_false]
    exact ih k hr.2 (by omega)

/-- What a write leaves in a map whose indices rise above `lo`: its value at its index, and every other index as it was. -/
theorem cellGet_cellSet_rising {β : Type} [DecidableEq β] (d : β) (m : List (Nat × β)) (lo a b : Nat) (v : β) (hr : cellRising lo m = true) :
    cellGet d (cellSet d m a v) b = if b = a then v else cellGet d m b := by
  induction m generalizing lo with
  | nil =>
    by_cases hv : v = d <;> by_cases hb : b = a <;> simp [cellSet, cellGet, hv, hb]
  | cons e r ih =>
    obtain ⟨k, w⟩ := e
    simp only [cellRising, Bool.and_eq_true, decide_eq_true_eq] at hr
    unfold cellSet
    by_cases h1 : a < k
    · have hk : cellGet d ((k, w) :: r) a = d :=
        cellGet_below d _ a a (by simp [cellRising, h1, hr.2]) (Nat.le_refl _)
      by_cases hv : v = d
      · by_cases hb : b = a
        · subst hb; simp [h1, hv, hk]
        · simp [h1, hv, hb]
      · by_cases hb : b = a
        · subst hb; simp [h1, hv, cellGet]
        · simp [h1, hv, hb, cellGet]
    · by_cases h2 : a = k
      · subst h2
        have hg := cellGet_below d r a a hr.2 (Nat.le_refl _)
        by_cases hv : v = d
        · by_cases hb : b = a
          · subst hb; simp [hv, hg]
          · simp [hv, hb, cellGet]
        · by_cases hb : b = a
          · subst hb; simp [hv, cellGet]
          · simp [hv, hb, cellGet]
      · have h3 : ¬ b = k ∨ b = k := by omega
        rcases h3 with h3 | h3
        · simp only [h1, h2, if_false, cellGet, h3]
          exact ih k hr.2
        · subst h3
          have : ¬ b = a := fun e => h2 e.symm
          simp [h1, h2, cellGet, this]

/-- A write keeps the indices rising. -/
theorem cellRising_cellSet {β : Type} [DecidableEq β] (d : β) (m : List (Nat × β)) (lo a : Nat) (v : β) (ha : lo < a) (hr : cellRising lo m = true) :
    cellRising lo (cellSet d m a v) = true := by
  induction m generalizing lo with
  | nil => by_cases hv : v = d <;> simp [cellSet, cellRising, hv, ha]
  | cons e r ih =>
    obtain ⟨k, w⟩ := e
    simp only [cellRising, Bool.and_eq_true, decide_eq_true_eq] at hr
    unfold cellSet
    by_cases h1 : a < k
    · by_cases hv : v = d <;> simp [h1, hv, cellRising, hr.1, hr.2, ha]
    · by_cases h2 : a = k
      · subst h2
        by_cases hv : v = d
        · simp only [Nat.lt_irrefl, if_false, if_true, hv]
          exact cellRising_mono r (by omega) hr.2
        · simp [hv, cellRising, hr.1, hr.2]
      · simp only [h1, h2, if_false, cellRising, Bool.and_eq_true, decide_eq_true_eq]
        exact ⟨hr.1, ih k (by omega) hr.2⟩

/-- A write lists no entry equal to the default. -/
theorem all_cellSet {β : Type} [DecidableEq β] (d : β) (m : List (Nat × β)) (a : Nat) (v : β) (h : m.all (fun e => decide (e.2 ≠ d)) = true) :
    (cellSet d m a v).all (fun e => decide (e.2 ≠ d)) = true := by
  induction m with
  | nil => by_cases hv : v = d <;> simp [cellSet, hv]
  | cons e r ih =>
    obtain ⟨k, w⟩ := e
    rw [List.all_cons, Bool.and_eq_true] at h
    unfold cellSet
    by_cases h1 : a < k
    · by_cases hv : v = d
      · rw [if_pos h1, if_pos hv, List.all_cons, h.1, h.2]; rfl
      · rw [if_pos h1, if_neg hv, List.all_cons, List.all_cons, h.1, h.2]; simp [hv]
    · by_cases h2 : a = k
      · by_cases hv : v = d
        · rw [if_neg h1, if_pos h2, if_pos hv, h.2]
        · rw [if_neg h1, if_pos h2, if_neg hv, List.all_cons, h.2]; simp [hv]
      · rw [if_neg h1, if_neg h2, List.all_cons, h.1, ih h.2]; rfl

/-- The canonical form says that the indices rise from some bound. -/
theorem cellWf_iff {β : Type} [DecidableEq β] (d : β) (m : List (Nat × β)) :
    cellWf d m = true ↔ (m = [] ∨ ∃ k v r, m = (k, v) :: r ∧ cellRising k r = true) ∧ m.all (fun e => decide (e.2 ≠ d)) = true := by
  cases m with
  | nil => simp [cellWf]
  | cons e r =>
    obtain ⟨k, v⟩ := e
    simp only [cellWf, Bool.and_eq_true, reduceCtorEq, false_or]
    constructor
    · exact fun h => ⟨⟨k, v, r, rfl, h.1⟩, h.2⟩
    · rintro ⟨⟨k', v', r', he, h1⟩, h2⟩
      cases he
      exact ⟨h1, h2⟩

/-- A write keeps the canonical form. -/
theorem cellWf_cellSet {β : Type} [DecidableEq β] (d : β) (m : List (Nat × β)) (a : Nat) (v : β) (h : cellWf d m = true) : cellWf d (cellSet d m a v) = true := by
  rw [cellWf_iff] at h ⊢
  refine ⟨?_, all_cellSet d m a v h.2⟩
  rcases h.1 with rfl | ⟨k, w, r, rfl, hr⟩
  · by_cases hv : v = d
    · exact .inl (by simp [cellSet, hv])
    · exact .inr ⟨a, v, [], by simp [cellSet, hv], rfl⟩
  · unfold cellSet
    by_cases h1 : a < k
    · by_cases hv : v = d
      · exact .inr ⟨k, w, r, by simp [h1, hv], hr⟩
      · exact .inr ⟨a, v, (k, w) :: r, by simp [h1, hv], by simp [cellRising, h1, hr]⟩
    · by_cases h2 : a = k
      · subst h2
        by_cases hv : v = d
        · cases r with
          | nil => exact .inl (by simp [hv])
          | cons e r =>
            obtain ⟨k', w'⟩ := e
            simp only [cellRising, Bool.and_eq_true, decide_eq_true_eq] at hr
            exact .inr ⟨k', w', r, by simp [hv], hr.2⟩
        · exact .inr ⟨a, v, r, by simp [hv], hr⟩
      · exact .inr ⟨k, w, cellSet d r a v, by simp [h1, h2], cellRising_cellSet d r k a v (by omega) hr⟩

/-- A read after a write, in canonical form: the value at its index, and every other index as it was. -/
theorem cellGet_cellSet {β : Type} [DecidableEq β] (d : β) (m : List (Nat × β)) (a b : Nat) (v : β) (h : cellWf d m = true) :
    cellGet d (cellSet d m a v) b = if b = a then v else cellGet d m b := by
  rw [cellWf_iff] at h
  rcases h.1 with rfl | ⟨k, w, r, rfl, hr⟩
  · exact cellGet_cellSet_rising d [] 0 a b v rfl
  · by_cases hk : k = 0
    · subst hk
      unfold cellSet
      by_cases h2 : a = 0
      · subst h2
        have hg := cellGet_below d r 0 0 hr (Nat.le_refl _)
        by_cases hv : v = d <;> by_cases hb : b = 0 <;> simp [hv, hb, cellGet, hg]
      · by_cases hb : b = 0
        · subst hb
          have : ¬ (0 : Nat) = a := fun e => h2 e.symm
          simp [h2, cellGet, this]
        · simp only [Nat.not_lt_zero, h2, if_false, cellGet, hb]
          exact cellGet_cellSet_rising d r 0 a b v hr
    · exact cellGet_cellSet_rising d _ 0 a b v (by simp [cellRising, hr]; omega)

/-- Writes of several values keep the canonical form. -/
theorem cellWf_cellSetList {β : Type} [DecidableEq β] (d : β) (bs : List β) (m : List (Nat × β)) (a : Nat) (h : cellWf d m = true) :
    cellWf d (cellSetList d m a bs) = true := by
  induction bs generalizing m a with
  | nil => exact h
  | cons v r ih => exact ih _ _ (cellWf_cellSet d m a v h)

/-- A read after writes of several values: the bytes written, and every other address as it was. -/
theorem cellGet_cellSetList {β : Type} [DecidableEq β] (d : β) (bs : List β) (m : List (Nat × β)) (a b : Nat) (h : cellWf d m = true) :
    cellGet d (cellSetList d m a bs) b = if a ≤ b ∧ b < a + bs.length then bs.getD (b - a) d else cellGet d m b := by
  induction bs generalizing m a with
  | nil => simp only [cellSetList, List.length_nil, Nat.add_zero]; rw [if_neg (by omega)]
  | cons v r ih =>
    simp only [cellSetList]
    rw [ih _ _ (cellWf_cellSet d m a v h), cellGet_cellSet d m a b v h]
    simp only [List.length_cons]
    by_cases h1 : b = a
    · subst h1
      rw [if_neg (by omega), if_pos rfl, if_pos (by omega), Nat.sub_self]
      rfl
    · by_cases h2 : a + 1 ≤ b ∧ b < a + 1 + r.length
      · rw [if_pos h2, if_pos (by omega)]
        have : b - a = (b - (a + 1)) + 1 := by omega
        rw [this]
        rfl
      · rw [if_neg h2, if_neg h1, if_neg (by omega)]

/-- Entries removed keep the indices rising. -/
theorem cellRising_filter {β : Type} (p : Nat × β → Bool) (m : List (Nat × β)) (lo : Nat) (hr : cellRising lo m = true) :
    cellRising lo (m.filter p) = true := by
  induction m generalizing lo with
  | nil => rfl
  | cons e r ih =>
    obtain ⟨k, v⟩ := e
    simp only [cellRising, Bool.and_eq_true, decide_eq_true_eq] at hr
    by_cases hp : p (k, v) = true
    · simp [hp, cellRising, hr.1, ih k hr.2]
    · simp only [List.filter_cons, hp]
      exact cellRising_mono _ (Nat.le_of_lt hr.1) (ih k hr.2)

/-- Entries removed keep the canonical form. -/
theorem cellWf_filter {β : Type} [DecidableEq β] (d : β) (p : Nat × β → Bool) (m : List (Nat × β)) (h : cellWf d m = true) : cellWf d (m.filter p) = true := by
  rw [cellWf_iff] at h ⊢
  refine ⟨?_, by simp only [List.all_eq_true] at h ⊢; intro e he; exact h.2 e (List.mem_filter.1 he).1⟩
  induction m with
  | nil => exact .inl rfl
  | cons e r ih =>
    obtain ⟨k, v⟩ := e
    rcases h.1 with h0 | ⟨k', w', r', he, hr⟩
    · cases h0
    · cases he
      by_cases hp : p (k, v) = true
      · exact .inr ⟨k, v, r.filter p, by simp [hp], cellRising_filter p r k hr⟩
      · simp only [List.filter_cons, hp]
        refine ih ⟨?_, by have := h.2; simp only [List.all_cons, Bool.and_eq_true] at this; exact this.2⟩
        cases r with
        | nil => exact .inl rfl
        | cons e r =>
          obtain ⟨k2, v2⟩ := e
          simp only [cellRising, Bool.and_eq_true] at hr
          exact .inr ⟨k2, v2, r, rfl, hr.2⟩

/-! ### Byte memories -/

theorem memWf_memSet (m : ByteMem) (a : Nat) (v : Byte) (h : memWf m = true) : memWf (memSet m a v) = true := cellWf_cellSet _ m a v h

theorem memGet_memSet (m : ByteMem) (a b : Nat) (v : Byte) (h : memWf m = true) :
    memGet (memSet m a v) b = if b = a then v else memGet m b := cellGet_cellSet _ m a b v h

theorem memWf_memWrite (m : ByteMem) (a : Nat) (bs : List Byte) (h : memWf m = true) : memWf (memWrite m a bs) = true :=
  cellWf_cellSetList _ bs m a h

theorem memGet_memWrite (m : ByteMem) (a b : Nat) (bs : List Byte) (h : memWf m = true) :
    memGet (memWrite m a bs) b = if a ≤ b ∧ b < a + bs.length then bs.getD (b - a) 0#8 else memGet m b :=
  cellGet_cellSetList _ bs m a b h

theorem memWf_cellClear (m : ByteMem) (a n : Nat) (h : memWf m = true) : memWf (cellClear m a n) = true := cellWf_filter _ _ m h

theorem memWf_nil : memWf [] = true := rfl

end Sys2Proof.Machine
end

