-- ==== Sys2Proof/Laws/State.lean ====
section
/-! SUPPORT. What each update of the state leaves and what it writes: one lemma per field and update, for the shared operations of
Machine/Ops.lean. -/

namespace Sys2Proof.Machine

/-! ### Vectors -/

@[simp] theorem get_set_self {α : Type} {n : Nat} (v : Vector α n) (i : Fin n) (x : α) : (v.set i.val x i.isLt).get i = x := by
  change (v.set i.val x i.isLt)[i.val] = x
  simp

theorem get_set_other {α : Type} {n : Nat} (v : Vector α n) (i j : Fin n) (x : α) (h : j ≠ i) : (v.set i.val x i.isLt).get j = v.get j := by
  change (v.set i.val x i.isLt)[j.val] = v[j.val]
  exact Vector.getElem_set_ne (h := fun e => h (Fin.ext e.symm)) ..

@[simp] theorem set_get_self {α : Type} {n : Nat} (v : Vector α n) (i : Fin n) : v.set i.val (v.get i) i.isLt = v := by
  change v.set i.val v[i.val] i.isLt = v
  simp

/-! ### Cores -/

@[simp] theorem coreAt_setCore (s : State) (c : CoreId) (x : Core) : coreAt (setCore s c x) c = x := by
  simp [coreAt, setCore]

theorem coreAt_setCore_ne (s : State) (c d : CoreId) (x : Core) (h : d ≠ c) : coreAt (setCore s c x) d = coreAt s d := by
  exact get_set_other _ _ _ _ h

@[simp] theorem coreAt_modCore (s : State) (c : CoreId) (f : Core → Core) : coreAt (modCore s c f) c = f (coreAt s c) := by
  simp [modCore]

theorem coreAt_modCore_ne (s : State) (c d : CoreId) (f : Core → Core) (h : d ≠ c) : coreAt (modCore s c f) d = coreAt s d :=
  coreAt_setCore_ne s c d _ h

@[simp] theorem setCore_setCore (s : State) (c : CoreId) (x y : Core) : setCore (setCore s c x) c y = setCore s c y := by
  simp [setCore]

@[simp] theorem setCore_coreAt (s : State) (c : CoreId) : setCore s c (coreAt s c) = s := by
  simp [setCore, coreAt]

@[simp] theorem setCore_regions (s : State) (c : CoreId) (x : Core) : (setCore s c x).regions = s.regions := rfl
@[simp] theorem setCore_jobs (s : State) (c : CoreId) (x : Core) : (setCore s c x).jobs = s.jobs := rfl
@[simp] theorem setCore_dram (s : State) (c : CoreId) (x : Core) : (setCore s c x).dram = s.dram := rfl
@[simp] theorem setCore_mems (s : State) (c : CoreId) (x : Core) : (setCore s c x).mems = s.mems := rfl
@[simp] theorem setCore_rings (s : State) (c : CoreId) (x : Core) : (setCore s c x).rings = s.rings := rfl
@[simp] theorem setCore_host (s : State) (c : CoreId) (x : Core) : (setCore s c x).host = s.host := rfl
@[simp] theorem setCore_groups (s : State) (c : CoreId) (x : Core) : (setCore s c x).groups = s.groups := rfl
@[simp] theorem setCore_power (s : State) (c : CoreId) (x : Core) : (setCore s c x).power = s.power := rfl
@[simp] theorem setCore_ident (s : State) (c : CoreId) (x : Core) : (setCore s c x).ident = s.ident := rfl
@[simp] theorem setCore_ports (s : State) (c : CoreId) (x : Core) : (setCore s c x).ports = s.ports := rfl
@[simp] theorem setCore_fabric (s : State) (c : CoreId) (x : Core) : (setCore s c x).fabric = s.fabric := rfl
@[simp] theorem setCore_capCores (s : State) (c : CoreId) (x : Core) : (setCore s c x).capCores = s.capCores := rfl
@[simp] theorem setCore_activeCores (s : State) (c : CoreId) (x : Core) : (setCore s c x).activeCores = s.activeCores := rfl
@[simp] theorem setCore_pending (s : State) (c : CoreId) (x : Core) : (setCore s c x).pending = s.pending := rfl
@[simp] theorem setCore_free (s : State) (c : CoreId) (x : Core) : (setCore s c x).free = s.free := rfl

@[simp] theorem modCore_regions (s : State) (c : CoreId) (f : Core → Core) : (modCore s c f).regions = s.regions := rfl
@[simp] theorem modCore_jobs (s : State) (c : CoreId) (f : Core → Core) : (modCore s c f).jobs = s.jobs := rfl
@[simp] theorem modCore_dram (s : State) (c : CoreId) (f : Core → Core) : (modCore s c f).dram = s.dram := rfl
@[simp] theorem modCore_mems (s : State) (c : CoreId) (f : Core → Core) : (modCore s c f).mems = s.mems := rfl
@[simp] theorem modCore_rings (s : State) (c : CoreId) (f : Core → Core) : (modCore s c f).rings = s.rings := rfl
@[simp] theorem modCore_power (s : State) (c : CoreId) (f : Core → Core) : (modCore s c f).power = s.power := rfl
@[simp] theorem modCore_ident (s : State) (c : CoreId) (f : Core → Core) : (modCore s c f).ident = s.ident := rfl
@[simp] theorem modCore_pending (s : State) (c : CoreId) (f : Core → Core) : (modCore s c f).pending = s.pending := rfl

@[simp] theorem nowAt_setCore (s : State) (c d : CoreId) (x : Core) : nowAt (setCore s c x) d = nowAt s d := rfl
@[simp] theorem nowAt_modCore (s : State) (c d : CoreId) (f : Core → Core) : nowAt (modCore s c f) d = nowAt s d := rfl
@[simp] theorem tickOf_modCore (s : State) (c : CoreId) (r : RegionId) (f : Core → Core) : tickOf (modCore s c f) r = tickOf s r := rfl
@[simp] theorem regionAt_setCore (s : State) (c : CoreId) (r : RegionId) (x : Core) : regionAt (setCore s c x) r = regionAt s r := rfl
@[simp] theorem regionAt_modCore (s : State) (c : CoreId) (r : RegionId) (f : Core → Core) : regionAt (modCore s c f) r = regionAt s r := rfl

/-! ### Regions -/

@[simp] theorem regionAt_modRegion (s : State) (r : RegionId) (f : Region → Region) : regionAt (modRegion s r f) r = f (regionAt s r) := by
  simp [regionAt, modRegion]

theorem regionAt_modRegion_ne (s : State) (r q : RegionId) (f : Region → Region) (h : q ≠ r) :
    regionAt (modRegion s r f) q = regionAt s q := by
  exact get_set_other _ _ _ _ h

@[simp] theorem coreAt_modRegion (s : State) (r : RegionId) (c : CoreId) (f : Region → Region) : coreAt (modRegion s r f) c = coreAt s c := rfl
@[simp] theorem modRegion_cores (s : State) (r : RegionId) (f : Region → Region) : (modRegion s r f).cores = s.cores := rfl
@[simp] theorem modRegion_jobs (s : State) (r : RegionId) (f : Region → Region) : (modRegion s r f).jobs = s.jobs := rfl
@[simp] theorem modRegion_dram (s : State) (r : RegionId) (f : Region → Region) : (modRegion s r f).dram = s.dram := rfl
@[simp] theorem modRegion_power (s : State) (r : RegionId) (f : Region → Region) : (modRegion s r f).power = s.power := rfl
@[simp] theorem modRegion_ident (s : State) (r : RegionId) (f : Region → Region) : (modRegion s r f).ident = s.ident := rfl
@[simp] theorem modRegion_pending (s : State) (r : RegionId) (f : Region → Region) : (modRegion s r f).pending = s.pending := rfl

/-! ### Scalar registers -/

@[simp] theorem sreg_zero (k : Core) : sreg k 0 = 0#64 := rfl

theorem sreg_setSreg (k : Core) (n : SReg) (v : Word) (h : n.val ≠ 0) : sreg (setSreg k n v) n = v := by
  simp [sreg, setSreg, h]

theorem sreg_setSreg_ne (k : Core) (n m : SReg) (v : Word) (h : m ≠ n) : sreg (setSreg k n v) m = sreg k m := by
  unfold setSreg
  split
  · rfl
  · simp [sreg, get_set_other _ _ _ _ h]

theorem setSreg_zero (k : Core) (v : Word) : setSreg k 0 v = k := rfl

/-! ### Jobs -/

@[simp] theorem setJob_cores (s : State) (j : JobId) (x : Job) : (setJob s j x).cores = s.cores := rfl
@[simp] theorem setJob_regions (s : State) (j : JobId) (x : Job) : (setJob s j x).regions = s.regions := rfl
@[simp] theorem setJob_dram (s : State) (j : JobId) (x : Job) : (setJob s j x).dram = s.dram := rfl
@[simp] theorem setJob_power (s : State) (j : JobId) (x : Job) : (setJob s j x).power = s.power := rfl
@[simp] theorem setJob_ident (s : State) (j : JobId) (x : Job) : (setJob s j x).ident = s.ident := rfl
@[simp] theorem setJob_pending (s : State) (j : JobId) (x : Job) : (setJob s j x).pending = s.pending := rfl
@[simp] theorem coreAt_setJob (s : State) (j : JobId) (x : Job) (c : CoreId) : coreAt (setJob s j x) c = coreAt s c := rfl
@[simp] theorem coreAt_modJob (s : State) (j : JobId) (f : Job → Job) (c : CoreId) : coreAt (modJob s j f) c = coreAt s c := rfl
@[simp] theorem regionAt_modJob (s : State) (j : JobId) (f : Job → Job) (r : RegionId) : regionAt (modJob s j f) r = regionAt s r := rfl

end Sys2Proof.Machine
end

