-- ==== Sys2Proof/Laws/Device.lean ====
section
/-! SUPPORT. What the shared operations of the device's units leave and write: one lemma per field and update, and what a packet, a BAR 0
write, a reply, an alert and a fence can do. -/

namespace Sys2Proof.Machine

/-! ### Updates of one unit -/

@[simp] theorem modPower_power (s : State) (f : Power → Power) : (modPower s f).power = f s.power := rfl
@[simp] theorem modPower_cores (s : State) (f : Power → Power) : (modPower s f).cores = s.cores := rfl
@[simp] theorem modPower_regions (s : State) (f : Power → Power) : (modPower s f).regions = s.regions := rfl
@[simp] theorem modPower_jobs (s : State) (f : Power → Power) : (modPower s f).jobs = s.jobs := rfl
@[simp] theorem modPower_images (s : State) (f : Power → Power) : (modPower s f).images = s.images := rfl
@[simp] theorem modPower_dram (s : State) (f : Power → Power) : (modPower s f).dram = s.dram := rfl
@[simp] theorem modPower_mems (s : State) (f : Power → Power) : (modPower s f).mems = s.mems := rfl
@[simp] theorem modPower_rings (s : State) (f : Power → Power) : (modPower s f).rings = s.rings := rfl
@[simp] theorem modPower_host (s : State) (f : Power → Power) : (modPower s f).host = s.host := rfl
@[simp] theorem modPower_groups (s : State) (f : Power → Power) : (modPower s f).groups = s.groups := rfl
@[simp] theorem modPower_ident (s : State) (f : Power → Power) : (modPower s f).ident = s.ident := rfl
@[simp] theorem modPower_spare (s : State) (f : Power → Power) : (modPower s f).spare = s.spare := rfl
@[simp] theorem modPower_snap (s : State) (f : Power → Power) : (modPower s f).snap = s.snap := rfl
@[simp] theorem modPower_ports (s : State) (f : Power → Power) : (modPower s f).ports = s.ports := rfl
@[simp] theorem modPower_fabric (s : State) (f : Power → Power) : (modPower s f).fabric = s.fabric := rfl
@[simp] theorem modPower_free (s : State) (f : Power → Power) : (modPower s f).free = s.free := rfl
@[simp] theorem modPower_pending (s : State) (f : Power → Power) : (modPower s f).pending = s.pending := rfl

@[simp] theorem modRings_rings (s : State) (f : Rings → Rings) : (modRings s f).rings = f s.rings := rfl
@[simp] theorem modRings_cores (s : State) (f : Rings → Rings) : (modRings s f).cores = s.cores := rfl
@[simp] theorem modRings_regions (s : State) (f : Rings → Rings) : (modRings s f).regions = s.regions := rfl
@[simp] theorem modRings_jobs (s : State) (f : Rings → Rings) : (modRings s f).jobs = s.jobs := rfl
@[simp] theorem modRings_images (s : State) (f : Rings → Rings) : (modRings s f).images = s.images := rfl
@[simp] theorem modRings_dram (s : State) (f : Rings → Rings) : (modRings s f).dram = s.dram := rfl
@[simp] theorem modRings_mems (s : State) (f : Rings → Rings) : (modRings s f).mems = s.mems := rfl
@[simp] theorem modRings_host (s : State) (f : Rings → Rings) : (modRings s f).host = s.host := rfl
@[simp] theorem modRings_power (s : State) (f : Rings → Rings) : (modRings s f).power = s.power := rfl
@[simp] theorem modRings_groups (s : State) (f : Rings → Rings) : (modRings s f).groups = s.groups := rfl
@[simp] theorem modRings_ident (s : State) (f : Rings → Rings) : (modRings s f).ident = s.ident := rfl
@[simp] theorem modRings_spare (s : State) (f : Rings → Rings) : (modRings s f).spare = s.spare := rfl
@[simp] theorem modRings_snap (s : State) (f : Rings → Rings) : (modRings s f).snap = s.snap := rfl
@[simp] theorem modRings_ports (s : State) (f : Rings → Rings) : (modRings s f).ports = s.ports := rfl
@[simp] theorem modRings_fabric (s : State) (f : Rings → Rings) : (modRings s f).fabric = s.fabric := rfl
@[simp] theorem modRings_free (s : State) (f : Rings → Rings) : (modRings s f).free = s.free := rfl
@[simp] theorem modRings_pending (s : State) (f : Rings → Rings) : (modRings s f).pending = s.pending := rfl

@[simp] theorem modHost_host (s : State) (f : HostIf → HostIf) : (modHost s f).host = f s.host := rfl
@[simp] theorem modHost_cores (s : State) (f : HostIf → HostIf) : (modHost s f).cores = s.cores := rfl
@[simp] theorem modHost_regions (s : State) (f : HostIf → HostIf) : (modHost s f).regions = s.regions := rfl
@[simp] theorem modHost_jobs (s : State) (f : HostIf → HostIf) : (modHost s f).jobs = s.jobs := rfl
@[simp] theorem modHost_images (s : State) (f : HostIf → HostIf) : (modHost s f).images = s.images := rfl
@[simp] theorem modHost_dram (s : State) (f : HostIf → HostIf) : (modHost s f).dram = s.dram := rfl
@[simp] theorem modHost_mems (s : State) (f : HostIf → HostIf) : (modHost s f).mems = s.mems := rfl
@[simp] theorem modHost_rings (s : State) (f : HostIf → HostIf) : (modHost s f).rings = s.rings := rfl
@[simp] theorem modHost_power (s : State) (f : HostIf → HostIf) : (modHost s f).power = s.power := rfl
@[simp] theorem modHost_groups (s : State) (f : HostIf → HostIf) : (modHost s f).groups = s.groups := rfl
@[simp] theorem modHost_ident (s : State) (f : HostIf → HostIf) : (modHost s f).ident = s.ident := rfl
@[simp] theorem modHost_spare (s : State) (f : HostIf → HostIf) : (modHost s f).spare = s.spare := rfl
@[simp] theorem modHost_snap (s : State) (f : HostIf → HostIf) : (modHost s f).snap = s.snap := rfl
@[simp] theorem modHost_ports (s : State) (f : HostIf → HostIf) : (modHost s f).ports = s.ports := rfl
@[simp] theorem modHost_fabric (s : State) (f : HostIf → HostIf) : (modHost s f).fabric = s.fabric := rfl
@[simp] theorem modHost_free (s : State) (f : HostIf → HostIf) : (modHost s f).free = s.free := rfl
@[simp] theorem modHost_pending (s : State) (f : HostIf → HostIf) : (modHost s f).pending = s.pending := rfl

@[simp] theorem modSnap_snap (s : State) (f : Snap → Snap) : (modSnap s f).snap = f s.snap := rfl
@[simp] theorem modSnap_cores (s : State) (f : Snap → Snap) : (modSnap s f).cores = s.cores := rfl
@[simp] theorem modSnap_regions (s : State) (f : Snap → Snap) : (modSnap s f).regions = s.regions := rfl
@[simp] theorem modSnap_jobs (s : State) (f : Snap → Snap) : (modSnap s f).jobs = s.jobs := rfl
@[simp] theorem modSnap_images (s : State) (f : Snap → Snap) : (modSnap s f).images = s.images := rfl
@[simp] theorem modSnap_dram (s : State) (f : Snap → Snap) : (modSnap s f).dram = s.dram := rfl
@[simp] theorem modSnap_mems (s : State) (f : Snap → Snap) : (modSnap s f).mems = s.mems := rfl
@[simp] theorem modSnap_rings (s : State) (f : Snap → Snap) : (modSnap s f).rings = s.rings := rfl
@[simp] theorem modSnap_host (s : State) (f : Snap → Snap) : (modSnap s f).host = s.host := rfl
@[simp] theorem modSnap_power (s : State) (f : Snap → Snap) : (modSnap s f).power = s.power := rfl
@[simp] theorem modSnap_groups (s : State) (f : Snap → Snap) : (modSnap s f).groups = s.groups := rfl
@[simp] theorem modSnap_ident (s : State) (f : Snap → Snap) : (modSnap s f).ident = s.ident := rfl
@[simp] theorem modSnap_spare (s : State) (f : Snap → Snap) : (modSnap s f).spare = s.spare := rfl
@[simp] theorem modSnap_ports (s : State) (f : Snap → Snap) : (modSnap s f).ports = s.ports := rfl
@[simp] theorem modSnap_fabric (s : State) (f : Snap → Snap) : (modSnap s f).fabric = s.fabric := rfl
@[simp] theorem modSnap_free (s : State) (f : Snap → Snap) : (modSnap s f).free = s.free := rfl
@[simp] theorem modSnap_pending (s : State) (f : Snap → Snap) : (modSnap s f).pending = s.pending := rfl

@[simp] theorem modSpare_spare (s : State) (f : Spare → Spare) : (modSpare s f).spare = f s.spare := rfl
@[simp] theorem modSpare_cores (s : State) (f : Spare → Spare) : (modSpare s f).cores = s.cores := rfl
@[simp] theorem modSpare_regions (s : State) (f : Spare → Spare) : (modSpare s f).regions = s.regions := rfl
@[simp] theorem modSpare_jobs (s : State) (f : Spare → Spare) : (modSpare s f).jobs = s.jobs := rfl
@[simp] theorem modSpare_images (s : State) (f : Spare → Spare) : (modSpare s f).images = s.images := rfl
@[simp] theorem modSpare_dram (s : State) (f : Spare → Spare) : (modSpare s f).dram = s.dram := rfl
@[simp] theorem modSpare_mems (s : State) (f : Spare → Spare) : (modSpare s f).mems = s.mems := rfl
@[simp] theorem modSpare_rings (s : State) (f : Spare → Spare) : (modSpare s f).rings = s.rings := rfl
@[simp] theorem modSpare_host (s : State) (f : Spare → Spare) : (modSpare s f).host = s.host := rfl
@[simp] theorem modSpare_power (s : State) (f : Spare → Spare) : (modSpare s f).power = s.power := rfl
@[simp] theorem modSpare_groups (s : State) (f : Spare → Spare) : (modSpare s f).groups = s.groups := rfl
@[simp] theorem modSpare_ident (s : State) (f : Spare → Spare) : (modSpare s f).ident = s.ident := rfl
@[simp] theorem modSpare_snap (s : State) (f : Spare → Spare) : (modSpare s f).snap = s.snap := rfl
@[simp] theorem modSpare_ports (s : State) (f : Spare → Spare) : (modSpare s f).ports = s.ports := rfl
@[simp] theorem modSpare_fabric (s : State) (f : Spare → Spare) : (modSpare s f).fabric = s.fabric := rfl
@[simp] theorem modSpare_free (s : State) (f : Spare → Spare) : (modSpare s f).free = s.free := rfl
@[simp] theorem modSpare_pending (s : State) (f : Spare → Spare) : (modSpare s f).pending = s.pending := rfl

@[simp] theorem modFabric_fabric (s : State) (f : Fabric → Fabric) : (modFabric s f).fabric = f s.fabric := rfl
@[simp] theorem modFabric_cores (s : State) (f : Fabric → Fabric) : (modFabric s f).cores = s.cores := rfl
@[simp] theorem modFabric_regions (s : State) (f : Fabric → Fabric) : (modFabric s f).regions = s.regions := rfl
@[simp] theorem modFabric_jobs (s : State) (f : Fabric → Fabric) : (modFabric s f).jobs = s.jobs := rfl
@[simp] theorem modFabric_images (s : State) (f : Fabric → Fabric) : (modFabric s f).images = s.images := rfl
@[simp] theorem modFabric_dram (s : State) (f : Fabric → Fabric) : (modFabric s f).dram = s.dram := rfl
@[simp] theorem modFabric_mems (s : State) (f : Fabric → Fabric) : (modFabric s f).mems = s.mems := rfl
@[simp] theorem modFabric_rings (s : State) (f : Fabric → Fabric) : (modFabric s f).rings = s.rings := rfl
@[simp] theorem modFabric_host (s : State) (f : Fabric → Fabric) : (modFabric s f).host = s.host := rfl
@[simp] theorem modFabric_power (s : State) (f : Fabric → Fabric) : (modFabric s f).power = s.power := rfl
@[simp] theorem modFabric_groups (s : State) (f : Fabric → Fabric) : (modFabric s f).groups = s.groups := rfl
@[simp] theorem modFabric_ident (s : State) (f : Fabric → Fabric) : (modFabric s f).ident = s.ident := rfl
@[simp] theorem modFabric_spare (s : State) (f : Fabric → Fabric) : (modFabric s f).spare = s.spare := rfl
@[simp] theorem modFabric_snap (s : State) (f : Fabric → Fabric) : (modFabric s f).snap = s.snap := rfl
@[simp] theorem modFabric_ports (s : State) (f : Fabric → Fabric) : (modFabric s f).ports = s.ports := rfl
@[simp] theorem modFabric_free (s : State) (f : Fabric → Fabric) : (modFabric s f).free = s.free := rfl
@[simp] theorem modFabric_pending (s : State) (f : Fabric → Fabric) : (modFabric s f).pending = s.pending := rfl

@[simp] theorem portAt_modPort (s : State) (p : PortId) (f : Port → Port) : portAt (modPort s p f) p = f (portAt s p) := by
  simp [portAt, modPort]

theorem portAt_modPort_ne (s : State) (p n : PortId) (f : Port → Port) (h : n ≠ p) : portAt (modPort s p f) n = portAt s n :=
  get_set_other _ _ _ _ h

@[simp] theorem modPort_cores (s : State) (p : PortId) (f : Port → Port) : (modPort s p f).cores = s.cores := rfl
@[simp] theorem modPort_regions (s : State) (p : PortId) (f : Port → Port) : (modPort s p f).regions = s.regions := rfl
@[simp] theorem modPort_jobs (s : State) (p : PortId) (f : Port → Port) : (modPort s p f).jobs = s.jobs := rfl
@[simp] theorem modPort_images (s : State) (p : PortId) (f : Port → Port) : (modPort s p f).images = s.images := rfl
@[simp] theorem modPort_dram (s : State) (p : PortId) (f : Port → Port) : (modPort s p f).dram = s.dram := rfl
@[simp] theorem modPort_mems (s : State) (p : PortId) (f : Port → Port) : (modPort s p f).mems = s.mems := rfl
@[simp] theorem modPort_rings (s : State) (p : PortId) (f : Port → Port) : (modPort s p f).rings = s.rings := rfl
@[simp] theorem modPort_host (s : State) (p : PortId) (f : Port → Port) : (modPort s p f).host = s.host := rfl
@[simp] theorem modPort_power (s : State) (p : PortId) (f : Port → Port) : (modPort s p f).power = s.power := rfl
@[simp] theorem modPort_groups (s : State) (p : PortId) (f : Port → Port) : (modPort s p f).groups = s.groups := rfl
@[simp] theorem modPort_ident (s : State) (p : PortId) (f : Port → Port) : (modPort s p f).ident = s.ident := rfl
@[simp] theorem modPort_spare (s : State) (p : PortId) (f : Port → Port) : (modPort s p f).spare = s.spare := rfl
@[simp] theorem modPort_snap (s : State) (p : PortId) (f : Port → Port) : (modPort s p f).snap = s.snap := rfl
@[simp] theorem modPort_fabric (s : State) (p : PortId) (f : Port → Port) : (modPort s p f).fabric = s.fabric := rfl
@[simp] theorem modPort_free (s : State) (p : PortId) (f : Port → Port) : (modPort s p f).free = s.free := rfl
@[simp] theorem modPort_pending (s : State) (p : PortId) (f : Port → Port) : (modPort s p f).pending = s.pending := rfl

@[simp] theorem groupAt_modGroup (s : State) (g : Fin 16) (f : Group → Group) : groupAt (modGroup s g f) g = f (groupAt s g) := by
  simp [groupAt, modGroup]

theorem groupAt_modGroup_ne (s : State) (g n : Fin 16) (f : Group → Group) (h : n ≠ g) : groupAt (modGroup s g f) n = groupAt s n :=
  get_set_other _ _ _ _ h

@[simp] theorem modGroup_cores (s : State) (g : Fin 16) (f : Group → Group) : (modGroup s g f).cores = s.cores := rfl
@[simp] theorem modGroup_regions (s : State) (g : Fin 16) (f : Group → Group) : (modGroup s g f).regions = s.regions := rfl
@[simp] theorem modGroup_jobs (s : State) (g : Fin 16) (f : Group → Group) : (modGroup s g f).jobs = s.jobs := rfl
@[simp] theorem modGroup_images (s : State) (g : Fin 16) (f : Group → Group) : (modGroup s g f).images = s.images := rfl
@[simp] theorem modGroup_dram (s : State) (g : Fin 16) (f : Group → Group) : (modGroup s g f).dram = s.dram := rfl
@[simp] theorem modGroup_mems (s : State) (g : Fin 16) (f : Group → Group) : (modGroup s g f).mems = s.mems := rfl
@[simp] theorem modGroup_rings (s : State) (g : Fin 16) (f : Group → Group) : (modGroup s g f).rings = s.rings := rfl
@[simp] theorem modGroup_host (s : State) (g : Fin 16) (f : Group → Group) : (modGroup s g f).host = s.host := rfl
@[simp] theorem modGroup_power (s : State) (g : Fin 16) (f : Group → Group) : (modGroup s g f).power = s.power := rfl
@[simp] theorem modGroup_ident (s : State) (g : Fin 16) (f : Group → Group) : (modGroup s g f).ident = s.ident := rfl
@[simp] theorem modGroup_spare (s : State) (g : Fin 16) (f : Group → Group) : (modGroup s g f).spare = s.spare := rfl
@[simp] theorem modGroup_snap (s : State) (g : Fin 16) (f : Group → Group) : (modGroup s g f).snap = s.snap := rfl
@[simp] theorem modGroup_ports (s : State) (g : Fin 16) (f : Group → Group) : (modGroup s g f).ports = s.ports := rfl
@[simp] theorem modGroup_fabric (s : State) (g : Fin 16) (f : Group → Group) : (modGroup s g f).fabric = s.fabric := rfl
@[simp] theorem modGroup_free (s : State) (g : Fin 16) (f : Group → Group) : (modGroup s g f).free = s.free := rfl
@[simp] theorem modGroup_pending (s : State) (g : Fin 16) (f : Group → Group) : (modGroup s g f).pending = s.pending := rfl

@[simp] theorem memAt_modMem (s : State) (k : Fin 8) (f : MemRegion → MemRegion) : memAt (modMem s k f) k = f (memAt s k) := by
  simp [memAt, modMem]

theorem memAt_modMem_ne (s : State) (k n : Fin 8) (f : MemRegion → MemRegion) (h : n ≠ k) : memAt (modMem s k f) n = memAt s n :=
  get_set_other _ _ _ _ h

@[simp] theorem modMem_cores (s : State) (k : Fin 8) (f : MemRegion → MemRegion) : (modMem s k f).cores = s.cores := rfl
@[simp] theorem modMem_regions (s : State) (k : Fin 8) (f : MemRegion → MemRegion) : (modMem s k f).regions = s.regions := rfl
@[simp] theorem modMem_jobs (s : State) (k : Fin 8) (f : MemRegion → MemRegion) : (modMem s k f).jobs = s.jobs := rfl
@[simp] theorem modMem_images (s : State) (k : Fin 8) (f : MemRegion → MemRegion) : (modMem s k f).images = s.images := rfl
@[simp] theorem modMem_dram (s : State) (k : Fin 8) (f : MemRegion → MemRegion) : (modMem s k f).dram = s.dram := rfl
@[simp] theorem modMem_rings (s : State) (k : Fin 8) (f : MemRegion → MemRegion) : (modMem s k f).rings = s.rings := rfl
@[simp] theorem modMem_host (s : State) (k : Fin 8) (f : MemRegion → MemRegion) : (modMem s k f).host = s.host := rfl
@[simp] theorem modMem_power (s : State) (k : Fin 8) (f : MemRegion → MemRegion) : (modMem s k f).power = s.power := rfl
@[simp] theorem modMem_groups (s : State) (k : Fin 8) (f : MemRegion → MemRegion) : (modMem s k f).groups = s.groups := rfl
@[simp] theorem modMem_ident (s : State) (k : Fin 8) (f : MemRegion → MemRegion) : (modMem s k f).ident = s.ident := rfl
@[simp] theorem modMem_spare (s : State) (k : Fin 8) (f : MemRegion → MemRegion) : (modMem s k f).spare = s.spare := rfl
@[simp] theorem modMem_snap (s : State) (k : Fin 8) (f : MemRegion → MemRegion) : (modMem s k f).snap = s.snap := rfl
@[simp] theorem modMem_ports (s : State) (k : Fin 8) (f : MemRegion → MemRegion) : (modMem s k f).ports = s.ports := rfl
@[simp] theorem modMem_fabric (s : State) (k : Fin 8) (f : MemRegion → MemRegion) : (modMem s k f).fabric = s.fabric := rfl
@[simp] theorem modMem_free (s : State) (k : Fin 8) (f : MemRegion → MemRegion) : (modMem s k f).free = s.free := rfl
@[simp] theorem modMem_pending (s : State) (k : Fin 8) (f : MemRegion → MemRegion) : (modMem s k f).pending = s.pending := rfl

/-! ### Sparse maps without their canonical form -/

/-- A written value that no unlisted index reads as is read back, whatever the map. -/
theorem cellGet_cellSet_same {β : Type} [DecidableEq β] (d : β) (m : List (Nat × β)) (a : Nat) (v : β) (h : v ≠ d) :
    cellGet d (cellSet d m a v) a = v := by
  induction m with
  | nil => simp [cellSet, cellGet, h]
  | cons e r ih =>
    obtain ⟨k, w⟩ := e
    unfold cellSet
    split
    · simp [cellGet]
    · split
      · rename_i hk
        subst hk
        simp [cellGet]
      · rename_i hk
        simp [cellGet, hk, ih]

/-- A write leaves every other index as it was, whatever the map. -/
theorem cellGet_cellSet_ne {β : Type} [DecidableEq β] (d : β) (m : List (Nat × β)) (a b : Nat) (v : β) (h : b ≠ a) :
    cellGet d (cellSet d m a v) b = cellGet d m b := by
  induction m with
  | nil => by_cases hv : v = d <;> simp [cellSet, cellGet, hv, h]
  | cons e r ih =>
    obtain ⟨k, w⟩ := e
    unfold cellSet
    split
    · by_cases hv : v = d <;> simp [cellGet, hv, h]
    · split
      · rename_i hk
        subst hk
        by_cases hv : v = d <;> simp [cellGet, hv, h]
      · by_cases hk : b = k <;> simp [cellGet, hk, ih]

/-! ### Jobs -/

theorem jobAt_setJob (s : State) (j : JobId) (x : Job) (h : x.state ≠ .free) : jobAt (setJob s j x) j = x := by
  refine cellGet_cellSet_same _ _ _ _ ?_
  intro e
  exact h (by rw [e]; rfl)

theorem jobAt_setJob_ne (s : State) (j i : JobId) (x : Job) (h : i ≠ j) : jobAt (setJob s j x) i = jobAt s i :=
  cellGet_cellSet_ne _ _ _ _ _ (fun e => h (Fin.ext e))

theorem jobAt_modJob (s : State) (j : JobId) (f : Job → Job) (h : (f (jobAt s j)).state ≠ .free) :
    jobAt (modJob s j f) j = f (jobAt s j) := jobAt_setJob s j _ h

theorem jobAt_modJob_ne (s : State) (j i : JobId) (f : Job → Job) (h : i ≠ j) : jobAt (modJob s j f) i = jobAt s i :=
  jobAt_setJob_ne s j i _ h

/-- The state once a job that can be fenced is. -/
def fencedJob (j : JobId) (i : FaultInfo) (s : State) : State :=
  let s1 := modJob s j (fun b => { b with state := .fencing, status := i.status, fence := fenceRecOf s i })
  { s1 with cores := Vector.ofFn (fun c : CoreId =>
      let k := coreAt s1 c
      if k.seq.job = some j then { k with seq := { k.seq with run := .fenced } } else k) }

@[simp] theorem get_ofFn {α : Type} {n : Nat} (f : Fin n → α) (i : Fin n) : (Vector.ofFn f).get i = f i := by
  change (Vector.ofFn f)[i.val] = f i
  simp

/-- What fencing a job can do: nothing where it neither runs nor is stopped; else its entry names the fault, the cores that run it
stand still, and nothing else changes. -/
theorem fenceJob_cases (j : JobId) (i : FaultInfo) (s : State) :
    (canFence (jobAt s j) = false ∧ fenceJob j i s = s) ∨
    (canFence (jobAt s j) = true ∧
      jobAt (fenceJob j i s) j = { jobAt s j with state := .fencing, status := i.status, fence := fenceRecOf s i } ∧
      (∀ n, n ≠ j → jobAt (fenceJob j i s) n = jobAt s n) ∧
      (∀ c, coreAt (fenceJob j i s) c =
        if (coreAt s c).seq.job = some j then { coreAt s c with seq := { (coreAt s c).seq with run := .fenced } } else coreAt s c) ∧
      { fenceJob j i s with jobs := s.jobs, cores := s.cores } = s) := by
  by_cases h : canFence (jobAt s j) = true
  · right
    have e : fenceJob j i s = fencedJob j i s := by simp only [fenceJob, h, if_true, fencedJob]
    rw [e]
    have ej : (fencedJob j i s).jobs =
        (setJob s j { jobAt s j with state := .fencing, status := i.status, fence := fenceRecOf s i }).jobs := rfl
    have ea (n : JobId) : jobAt (fencedJob j i s) n =
        jobAt (setJob s j { jobAt s j with state := .fencing, status := i.status, fence := fenceRecOf s i }) n := by
      unfold jobAt
      rw [ej]
      rfl
    refine ⟨h, ?_, fun n hn => ?_, fun c => ?_, by simp only [fencedJob, modJob, setJob]⟩
    · rw [ea]
      have hf : JobState.fencing ≠ JobState.free := by decide
      exact jobAt_setJob s j { jobAt s j with state := .fencing, status := i.status, fence := fenceRecOf s i } hf
    · rw [ea]
      exact jobAt_setJob_ne s j n _ hn
    · exact get_ofFn _ c
  · left
    simp only [Bool.not_eq_true] at h
    exact ⟨h, by simp only [fenceJob, h, Bool.false_eq_true, if_false]⟩

theorem fenceJob_dram (j : JobId) (i : FaultInfo) (s : State) : (fenceJob j i s).dram = s.dram := by
  unfold fenceJob; split <;> rfl

theorem fenceJob_pending (j : JobId) (i : FaultInfo) (s : State) : (fenceJob j i s).pending = s.pending := by
  unfold fenceJob; split <;> rfl

theorem fenceCore_dram (c : CoreId) (i : FaultInfo) (s : State) : (fenceCore c i s).dram = s.dram := by
  unfold fenceCore; split
  · exact fenceJob_dram ..
  · rfl

theorem fenceCore_pending (c : CoreId) (i : FaultInfo) (s : State) : (fenceCore c i s).pending = s.pending := by
  unfold fenceCore; split
  · exact fenceJob_pending ..
  · rfl

/-! ### Folds -/

/-- What every step of a fold keeps, the fold keeps. -/
theorem foldl_keeps {α β γ : Type} (p : β → γ) (f : β → α → β) (h : ∀ b a, p (f b a) = p b) (l : List α) (b : β) :
    p (l.foldl f b) = p b := by
  induction l generalizing b with
  | nil => rfl
  | cons a r ih => rw [List.foldl_cons, ih, h]

/-- An invariant of every step of a fold holds of the fold. -/
theorem foldl_inv {α β : Type} (p : β → Prop) (f : β → α → β) (h : ∀ b a, p b → p (f b a)) (l : List α) (b : β) (hb : p b) :
    p (l.foldl f b) := by
  induction l generalizing b with
  | nil => exact hb
  | cons a r ih => exact ih _ (h _ _ hb)

theorem fenceWhere_dram (p : Job → Bool) (i : FaultInfo) (s : State) : (fenceWhere p i s).dram = s.dram :=
  foldl_keeps State.dram _ (fun b a => fenceJob_dram a i b) _ s

theorem fenceWhere_pending (p : Job → Bool) (i : FaultInfo) (s : State) : (fenceWhere p i s).pending = s.pending :=
  foldl_keeps State.pending _ (fun b a => fenceJob_pending a i b) _ s

/-! ### Replies, alerts and packets -/

@[simp] theorem putReply_store (op : Nat) (tag : BitVec 16) (irq : Bool) (st : Status) (res : BitVec 192) (s : State) :
    (putReply op tag irq st res s).rings.store =
      s.rings.store ++ [{ status := st, opcode := BitVec.ofNat 8 op, kind := 0, tag := tag, merged := 0, result := res, irq := irq }] := rfl

@[simp] theorem answer_waiting (a : Awaits) (st : Status) (res : BitVec 192) (s : State) :
    (answer a st res s).rings.waiting = s.rings.waiting.filter (fun c => decide (c.awaits ≠ a)) := by
  unfold answer
  exact (foldl_keeps (fun u : State => u.rings.waiting) (fun u (c : OpenCmd) => putReply c.opcode.toNat c.tag c.irq st res u)
    (fun _ _ => rfl) _ _).trans rfl

theorem answer_dram (a : Awaits) (st : Status) (res : BitVec 192) (s : State) : (answer a st res s).dram = s.dram := by
  unfold answer
  exact (foldl_keeps State.dram (fun u (c : OpenCmd) => putReply c.opcode.toNat c.tag c.irq st res u) (fun _ _ => rfl) _ _).trans rfl

theorem answer_pending (a : Awaits) (st : Status) (res : BitVec 192) (s : State) : (answer a st res s).pending = s.pending := by
  unfold answer
  exact (foldl_keeps State.pending (fun u (c : OpenCmd) => putReply c.opcode.toNat c.tag c.irq st res u) (fun _ _ => rfl) _ _).trans rfl

theorem answer_cores (a : Awaits) (st : Status) (res : BitVec 192) (s : State) : (answer a st res s).cores = s.cores := by
  unfold answer
  exact (foldl_keeps State.cores (fun u (c : OpenCmd) => putReply c.opcode.toNat c.tag c.irq st res u) (fun _ _ => rfl) _ _).trans rfl

theorem answer_jobs (a : Awaits) (st : Status) (res : BitVec 192) (s : State) : (answer a st res s).jobs = s.jobs := by
  unfold answer
  exact (foldl_keeps State.jobs (fun u (c : OpenCmd) => putReply c.opcode.toNat c.tag c.irq st res u) (fun _ _ => rfl) _ _).trans rfl

/-- A packet that the firmware does not read changes nothing. -/
theorem onPacket_idle {op : Nat} {h : PktHdr} {none_ : BitVec 192} {body : State → PktResult} {s : State} (ht : mayRead h s = false) :
    onPacket op h none_ body s = s := by
  simp [onPacket, canTake, ht]

/-- A packet whose read from the ring fails stops the taking of packets. -/
theorem onPacket_unread {op : Nat} {h : PktHdr} {none_ : BitVec 192} {body : State → PktResult} {s : State} (ht : mayRead h s = true)
    (hr : h.readOk = false) : onPacket op h none_ body s = modRings s (fun r => { r with dmaErr := true, stopped := true }) := by
  simp [onPacket, canTake, ht, hr]

/-- A packet that uses a reserved field. -/
theorem onPacket_reserved {op : Nat} {h : PktHdr} {none_ : BitVec 192} {body : State → PktResult} {s : State} (ht : canTake h s = true)
    (hr : h.rsv = true) : onPacket op h none_ body s = putReply op h.tag h.irq .badParam none_ (takeHead s) := by
  simp [onPacket, ht, hr]

/-- A packet that replies at once. -/
theorem onPacket_done {op : Nat} {h : PktHdr} {none_ res : BitVec 192} {body : State → PktResult} {s t : State} {st : Status}
    (ht : canTake h s = true) (hr : h.rsv = false) (hb : body (takeHead s) = .done st res t) :
    onPacket op h none_ body s = putReply op h.tag h.irq st res t := by
  simp [onPacket, ht, hr, hb]

/-- A packet that waits. -/
theorem onPacket_waits {op : Nat} {h : PktHdr} {none_ : BitVec 192} {body : State → PktResult} {s t : State} {a : Awaits}
    (ht : canTake h s = true) (hr : h.rsv = false) (hb : body (takeHead s) = .waits a t) :
    onPacket op h none_ body s =
      modRings t (fun r => { r with waiting := r.waiting ++ [{ opcode := BitVec.ofNat 8 op, tag := h.tag, irq := h.irq, awaits := a }] }) := by
  simp [onPacket, ht, hr, hb]

/-! ### BAR 0 writes -/

/-- A write that reaches the device and is served. -/
theorem barWrite_served {b : BarAcc} {f : State → State} {s : State} (hr : hostReaches s = true) (hi : barServes b s = true) :
    barWrite b f s = f (answerHost .done s) := by
  simp [barWrite, hr, hi]

/-- What a BAR 0 write can do: nothing, an Unsupported Request, one of a poisoned TLP, or its effect on the state with the write
answered. -/
theorem barWrite_cases (b : BarAcc) (f : State → State) (s : State) :
    barWrite b f s = s ∨ barWrite b f s = answerHost .unsupported s ∨ barWrite b f s = poisonedWrite s ∨
      barWrite b f s = f (answerHost .done s) := by
  unfold barWrite
  split
  · split
    · exact .inr (.inr (.inr rfl))
    · split
      · exact .inr (.inr (.inl rfl))
      · exact .inr (.inl rfl)
  · exact .inl rfl

/-! ### DRAM -/

/-- What a write of DRAM leaves: every byte whose place it does not name. -/
theorem memGet_dramWrite_ne (s : State) (a k : Nat) (bs : List Byte) (h : ∀ i, i < bs.length → dramKey s (a + i) ≠ k) :
    memGet (dramWrite s a bs).dram k = memGet s.dram k := by
  unfold dramWrite
  have : ∀ (l : List Nat) (m : ByteMem), (∀ i ∈ l, dramKey s (a + i) ≠ k) →
      memGet (l.foldl (fun m i => memSet m (dramKey s (a + i)) (bs.getD i 0)) m) k = memGet m k := by
    intro l
    induction l with
    | nil => intro m _; rfl
    | cons i r ih =>
      intro m hl
      rw [List.foldl_cons, ih _ (fun j hj => hl j (List.mem_cons_of_mem _ hj))]
      exact cellGet_cellSet_ne _ _ _ _ _ (fun e => hl i List.mem_cons_self e.symm)
  exact this _ _ (fun i hi => h i (List.mem_range.1 hi))

/-- A write of DRAM keeps its canonical form. -/
theorem memWf_dramWrite (s : State) (a : Nat) (bs : List Byte) (h : memWf s.dram = true) : memWf (dramWrite s a bs).dram = true :=
  foldl_inv (fun m => memWf m = true) _ (fun m _ hm => memWf_memSet m _ _ hm) _ _ h

@[simp] theorem dramWrite_cores (s : State) (a : Nat) (bs : List Byte) : (dramWrite s a bs).cores = s.cores := rfl
@[simp] theorem dramWrite_jobs (s : State) (a : Nat) (bs : List Byte) : (dramWrite s a bs).jobs = s.jobs := rfl
@[simp] theorem dramWrite_rings (s : State) (a : Nat) (bs : List Byte) : (dramWrite s a bs).rings = s.rings := rfl
@[simp] theorem dramWrite_pending (s : State) (a : Nat) (bs : List Byte) : (dramWrite s a bs).pending = s.pending := rfl
@[simp] theorem dramWrite_ident (s : State) (a : Nat) (bs : List Byte) : (dramWrite s a bs).ident = s.ident := rfl

end Sys2Proof.Machine
end

