-- ==== Sys2Proof/Laws/Faults.lean ====
section
/-! SUPPORT. What the faults of a tick can do: fence jobs, stop their cores, and nothing else. -/

namespace Sys2Proof.Machine

/-- A state with all that fences change taken from `z`: jobs, cores and regions. -/
def unfenced (z s : State) : State := { s with jobs := z.jobs, cores := z.cores, regions := z.regions }

/-- A core without its run state. -/
def unrun (k : Core) : Core := { k with seq := { k.seq with run := .idle } }

theorem fenceJob_unfenced (z : State) (j : JobId) (i : FaultInfo) (s : State) : unfenced z (fenceJob j i s) = unfenced z s := by
  rcases fenceJob_cases j i s with ⟨_, h⟩ | ⟨_, _, _, _, h⟩
  · rw [h]
  · have e := congrArg (unfenced z) h
    exact e

theorem fenceJob_regions (j : JobId) (i : FaultInfo) (s : State) : (fenceJob j i s).regions = s.regions := by
  unfold fenceJob; split <;> rfl

theorem fenceJob_unrun (j : JobId) (i : FaultInfo) (s : State) (c : CoreId) :
    unrun (coreAt (fenceJob j i s) c) = unrun (coreAt s c) := by
  rcases fenceJob_cases j i s with ⟨_, h⟩ | ⟨_, _, _, h, _⟩
  · rw [h]
  · rw [h c]; split <;> rfl

theorem fenceReported_unfenced (z : State) (j : JobId) (fs : List FaultRec) (s : State) :
    unfenced z (fenceReported j fs s) = unfenced z s := by
  unfold fenceReported
  split
  · rfl
  · exact fenceJob_unfenced ..

theorem fenceReported_regions (j : JobId) (fs : List FaultRec) (s : State) : (fenceReported j fs s).regions = s.regions := by
  unfold fenceReported
  split
  · rfl
  · exact fenceJob_regions ..

theorem fenceReported_unrun (j : JobId) (fs : List FaultRec) (s : State) (c : CoreId) :
    unrun (coreAt (fenceReported j fs s) c) = unrun (coreAt s c) := by
  unfold fenceReported
  split
  · rfl
  · exact fenceJob_unrun ..

/-- Settling a region's faults leaves everything but jobs, run states and the region's faults. -/
theorem settleFaults_unfenced (z : State) (r : RegionId) (s : State) : unfenced z (settleFaults r s) = unfenced z s := by
  unfold settleFaults
  rw [foldl_keeps (unfenced z) _ (fun b a => by
    split
    · rfl
    · exact fenceReported_unfenced ..)]
  rfl

/-- Of the regions only the faults of the one settled change. -/
theorem settleFaults_regions (r : RegionId) (s : State) :
    (settleFaults r s).regions = (modRegion s r (fun g => { g with faults := [] })).regions := by
  unfold settleFaults
  exact foldl_keeps State.regions _ (fun b a => by
    split
    · rfl
    · exact fenceReported_regions ..) _ _

/-- Of a core only its run state can change. -/
theorem settleFaults_unrun (r : RegionId) (s : State) (c : CoreId) : unrun (coreAt (settleFaults r s) c) = unrun (coreAt s c) := by
  unfold settleFaults
  exact foldl_keeps (fun u : State => unrun (coreAt u c)) _ (fun b a => by
    split
    · rfl
    · exact fenceReported_unrun ..) _ _

theorem settleFaults_dram (r : RegionId) (s : State) : (settleFaults r s).dram = s.dram := by
  have h := congrArg State.dram (settleFaults_unfenced s r s)
  exact h

theorem settleFaults_pending (r : RegionId) (s : State) : (settleFaults r s).pending = s.pending := by
  have h := congrArg State.pending (settleFaults_unfenced s r s)
  exact h

theorem settleFaults_store (r : RegionId) (s : State) (c : CoreId) : (coreAt (settleFaults r s) c).store = (coreAt s c).store := by
  have h := congrArg Core.store (settleFaults_unrun r s c)
  exact h

/-- A region without faults settles nothing. -/
theorem settleFaults_none (r : RegionId) (s : State) (h : (regionAt s r).faults = []) : settleFaults r s = s := by
  have e : modRegion s r (fun g => { g with faults := [] }) = s := by
    have : ({ regionAt s r with faults := [] } : Region) = regionAt s r := by
      cases hr : regionAt s r; rw [hr] at h; simp_all
    simp only [modRegion]
    simp only [regionAt] at this
    simp [regionAt, this]
  unfold settleFaults
  simp only [h, e, List.filter_nil]
  have : ∀ l : List CoreId, l.foldl (fun u c =>
      match jobOf u c with
      | none => u
      | some j => fenceReported j [] u) s = s := by
    intro l
    induction l with
    | nil => rfl
    | cons a r ih =>
      rw [List.foldl_cons]
      have : (match jobOf s a with | none => s | some j => fenceReported j [] s) = s := by split <;> rfl
      rw [this]; exact ih
  exact this _

end Sys2Proof.Machine
end

