-- ==== Sys2Proof/Laws/Issue.lean ====
section
/-! SUPPORT. What the issue of a slot instruction can do: nothing, hold its region, fence its job, or take its own effect. -/

namespace Sys2Proof.Machine

/-- Every well-formed slot instruction runs its issue. -/
theorem exec_slot {i : Instr} {x : Issue} (s : State) (hx : issueOf i = some x) (hw : i.wf = true) :
    exec i s = .next (runIssue x i s) := by
  cases i <;> simp only [issueOf, Option.some.injEq, reduceCtorEq] at hx <;> subst hx <;>
    first
    | rfl
    | (simp only [Instr.wf] at hw
       simp only [exec, execMma, execWld, execVdrn, execVop, execVfn, execVred, execFsend, hw, if_true])

theorem runIssue_idle {x : Issue} {i : Instr} {s : State} (h : canIssue s x.core = false) : runIssue x i s = s := by
  simp [runIssue, h]

theorem runIssue_wait {x : Issue} {i : Instr} {s : State} {w : HoldCond} (h : canIssue s x.core = true) (hw : x.wait s = some w) :
    runIssue x i s = modRegion (holdBegin (regionOf x.core) [w] s) (regionOf x.core) (fun g => { g with heldOps := g.heldOps ++ [i] }) := by
  simp [runIssue, h, hw]

theorem runIssue_fault {x : Issue} {i : Instr} {s : State} {f : FaultInfo} (h : canIssue s x.core = true) (hw : x.wait s = none)
    (hf : x.fault s = some f) : runIssue x i s = fenceCore x.core f s := by
  simp [runIssue, h, hw, hf]

theorem runIssue_effect {x : Issue} {i : Instr} {s : State} (h : canIssue s x.core = true) (hw : x.wait s = none)
    (hf : x.fault s = none) : runIssue x i s = x.effect s := by
  simp [runIssue, h, hw, hf]

end Sys2Proof.Machine
end

