-- ==== Sys2Proof/Tests/Slice0.lean ====
section
/-! SUPPORT. Small states, the refusal of ill-formed commands, and for every statement with hypotheses a witness: a state and operands
that meet the hypotheses of each of its clauses, at boundary values where a clause has a range. Expected values come from the spec. -/

open Sys2Proof Sys2Proof.Machine

namespace Sys2Proof.Tests

set_option maxRecDepth 100000

/-- The device after its resets: every region runs, the host's link is up, the rings are enabled with three packets waiting. -/
def upS : State :=
  let s := State.reset
  { s with
    power := { s.power with ready := true, step := 0, regs := Vector.replicate 28 .running, refOk := true }
    host := { s.host with linkUp := true }
    rings := { s.rings with enable := true, tail := 3 } }

/-- The header of a packet with its reserved fields clear. -/
def hdr : PktHdr := { tag := 7, ordered := false, irq := true, rsv := false }

/-- A register access of the host that reaches the device. -/
def bar : BarAcc := { lanes := .all, keyed := false }

/-- `upS` with core C05 as `f` makes it. -/
def coreS (f : Core → Core) : State := modCore upS 5 f

/-- `coreS` with C05 running job 0 alone. -/
def runS (f : Core → Core) : State :=
  setJob (coreS (fun k => f { k with seq := { k.seq with run := .running, job := some 0 } })) 0
    { freeJob with state := .running, cores := 0x20 }

/-- The state an outcome goes on in. -/
def nextOf (o : Host.Outcome State Fault Refusal) : Option State :=
  match o with
  | .next t => some t
  | _ => none

/-- The commands that wait are not part of the state a command acts on. -/
theorem test_reset_queue : State.reset.pending = [] := rfl

/-! ### Ill-formed commands -/

/-- The command's refusal, by its mnemonic. -/
def refusedAs (i : Instr) (s : State) : Option String :=
  match exec i s with
  | .refused (.reservedEncoding m) => some m
  | _ => none

def mma0 : MmaFields := { mask := 1, base := 0, g := 0, first := 0, nM1 := 127, north := false, bank := false, clr := true, acc := 0 }
def wld0 : WldFields := { mask := 1, tile := 1, gw2 := false, axisCols := false, sparsity := 0, mtile := 0, src := 0 }
def vdrn0 : VdrnFields :=
  { mask := 1, bank := false, mv := false, acc := 0, nM1 := 127, vdst := true, dst := 0, e := 0, func := 0, mode := 0, scl := false
    bias := false, aux := 0, save := false, stat := false, rnd := false, ctx := 0 }
def vop0 : VopFields := { op := 6, a := 0, b := 1, d := 2, bmode := 0, r := 0, nM1 := 63, q := 0 }
def vfn0 : VfnFields := { func := 11, src := 0, d := 1, r := 0, nM1 := 63 }
def vred0 : VredFields := { op := 4, src := 0, d := 1, r := 0, nM1 := 63, cM1 := 127, q := 0 }
def fsend0 : FsendFields := { dir := .cw, queue := false, ttl := 67, src := 31, gM1 := 0, flitsM1 := 0, tag := 0 }

theorem test_wf_mma : Instr.wf (.mma 5 mma0) = true ∧ Instr.wf (.mma 5 { mma0 with g := 3 }) = false := by decide
theorem test_wf_wld : Instr.wf (.wld 5 wld0) = true ∧ Instr.wf (.wld 5 { wld0 with sparsity := 3 }) = false ∧
    Instr.wf (.wld 5 { wld0 with src := 3 }) = false := by decide
theorem test_wf_vdrn : Instr.wf (.vdrn 5 { vdrn0 with func := 11 }) = true ∧ Instr.wf (.vdrn 5 { vdrn0 with func := 12 }) = false ∧
    Instr.wf (.vdrn 5 { vdrn0 with mode := 3 }) = false ∧ Instr.wf (.vdrn 5 { vdrn0 with save := true, mode := 1 }) = false ∧
    Instr.wf (.vdrn 5 { vdrn0 with mode := 2, func := 5 }) = true ∧ Instr.wf (.vdrn 5 { vdrn0 with mode := 2, func := 6 }) = false ∧
    Instr.wf (.vdrn 5 { vdrn0 with mode := 2, func := 0 }) = false := by decide
theorem test_wf_vop : Instr.wf (.vop 5 vop0) = true ∧ Instr.wf (.vop 5 { vop0 with op := 7 }) = false := by decide
theorem test_wf_vfn : Instr.wf (.vfn 5 vfn0) = true ∧ Instr.wf (.vfn 5 { vfn0 with func := 12 }) = false := by decide
theorem test_wf_vred : Instr.wf (.vred 5 vred0) = true ∧ Instr.wf (.vred 5 { vred0 with op := 5 }) = false := by decide
theorem test_wf_fsend : Instr.wf (.fsend 5 fsend0) = true ∧ Instr.wf (.fsend 5 { fsend0 with ttl := 0 }) = false ∧
    Instr.wf (.fsend 5 { fsend0 with ttl := 68 }) = false ∧ Instr.wf (.fsend 5 { fsend0 with gM1 := 1 }) = false ∧
    Instr.wf (.fsend 5 { fsend0 with flitsM1 := 1 }) = false ∧
    Instr.wf (.fsend 5 { fsend0 with queue := true, src := 15 }) = true ∧
    Instr.wf (.fsend 5 { fsend0 with queue := true, src := 16 }) = false ∧
    Instr.wf (.fsend 5 { fsend0 with queue := true, src := 15, gM1 := 1 }) = false := by decide

/-- What is ill formed is refused by name, and changes nothing. -/
theorem test_ill_formed_refused : refusedAs (.mma 5 { mma0 with g := 3 }) upS = some "MMA" ∧
    refusedAs (.vop 5 { vop0 with op := 7 }) upS = some "VOP" ∧ refusedAs (.vop 5 vop0) upS = none := by decide

/-! ### Witnesses: issue, scalars and control -/

theorem witness_EmptyQueueIdles : upS.pending = [] ∧ (upS.regions.toList.all (fun g => g.hold.isNone)) = true ∧
    (upS.power.aon = true ∧ upS.power.resetLow = false) ∧
    (let s : State := { upS with power := { upS.power with resetLow := true } }
     s.pending = [] ∧ (s.regions.toList.all (fun g => g.hold.isNone)) = true ∧ (s.power.aon = false ∨ s.power.resetLow = true)) := by
  decide

theorem witness_ScalarResults : canIssue (runS id) 5 = true := by decide

theorem witness_ScalarWriteback : (63 : SReg).val ≠ 0 ∧ (0 : SReg) ≠ 63 ∧ (62 : SReg) ≠ 63 := by decide

/-- S3 holds a count of 1. -/
def countS : State := runS (fun k => { k with seq := { k.seq with scalars := k.seq.scalars.set 3 1 } })

theorem witness_SequencerControl : canIssue countS 5 = true ∧ 0 < (1 : Fin 2048).val ∧ 0 < (2047 : Fin 2048).val ∧
    (0 : Fin 2048).val = 0 ∧ BitVec.ofNat 24 (sreg (coreAt countS 5) 3).toNat ≠ 0 ∧
    BitVec.ofNat 24 (sreg (coreAt countS 5) 0).toNat = 0 := by decide

/-- Queue Q2 of C05 holds one entry whose word is `v`; a gather of queue Q3 is paired with a list of `e` values in queue Q4. -/
def junctionS (v : Byte) (e : BitVec 32) : State :=
  modRegion (runS (fun k =>
    let k1 := modQ k 2 (fun q => { q with entries := [{ missing := 0, landPeriod := 0, tag := 0 }] })
    let k2 := modQ k1 3 (fun q => { q with pairs := [{ gather := 0, idxq := 4, list := some 0, pairPeriod := 0 }] })
    let k3 := modQ k2 4 (fun q => { q with lists := [{ list := 0, paired := true, count := some e, knownPeriod := 0 }] })
    { k3 with store := memWrite [] 0 [v] })) 1 (fun g => { g with periods := 1 })

theorem witness_JunctionControl :
    (let s := junctionS 0 0xFFFFFF
     let k := coreAt s 5
     canIssue s 5 = true ∧ 0 < qReadable (qOf k 2) (periodAt s 5) ∧ 0 = leNat (qHeadBytes k 2 4) ∧ 0 < nvarOf (k.seq.juncs.get 7) ∧
      tripCount k 3 (periodAt s 5) = some 0xFFFFFF ∧ (0xFFFFFF + 2 ^ (0 : Fin 32).val - 1) / 2 ^ (0 : Fin 32).val < 2 ^ 24) ∧
    (let s := junctionS 1 0x1000000
     let k := coreAt s 5
     canIssue s 5 = true ∧ 0 < qReadable (qOf k 2) (periodAt s 5) ∧ 1 = leNat (qHeadBytes k 2 4) ∧ nvarOf (k.seq.juncs.get 7) ≤ 1 ∧
      tripCount k 3 (periodAt s 5) = some 0x1000000 ∧ 2 ^ 24 ≤ (0x1000000 + 2 ^ (0 : Fin 32).val - 1) / 2 ^ (0 : Fin 32).val) := by
  decide

/-- What `x` meets at its issue in `s`. -/
def meets (x : Issue) (s : State) : Bool × Bool × Bool := (canIssue s x.core, (x.wait s).isSome, (x.fault s).isSome)

theorem witness_SlotIssueOutcome :
    (∃ x, issueOf (.waitq 5 2 0) = some x ∧ Instr.wf (.waitq 5 2 0) = true ∧ meets x upS = (false, true, false) ∧
      meets x (runS id) = (true, true, false) ∧ meets x (junctionS 0 1) = (true, false, false)) ∧
    (∃ x, issueOf (.mma 5 mma0) = some x ∧ Instr.wf (.mma 5 mma0) = true ∧ meets x (runS id) = (true, false, true)) :=
  ⟨⟨_, rfl, by decide, by decide, by decide, by decide⟩, ⟨_, rfl, by decide, by decide⟩⟩

theorem witness_OnlyReservedEncodingsAreRefused : Instr.wf (.vred 5 vred0) = true ∧ Instr.wf (.vred 5 { vred0 with op := 5 }) = false := by
  decide

/-! ### Witnesses: streams and releases -/

/-- Tiles T0, T1 and T31 hold 128 rows of 128 bytes, T2 eight rows; array A0 has dense weights; the matrix-vector unit has its vectors; SPAN covers the
ring; queue Q9 is a write queue and K0 combines wide rows; endpoint 0 is a send end with a ring and endpoint 1 a receive end in flag
mode; the link ring has one entry; Boom queue 0 holds 15 handles. -/
def dataS : State :=
  modRegion (runS (fun k =>
    let tile (n : TReg) (rows : Byte) (ts : Vector Tile 32) : Vector Tile 32 :=
      ts.set n.val { ts.get n with empty := false, cfg := { (ts.get n).cfg with rows := rows, rowb := 8 } } n.isLt
    let w : Weights := { resetWeights with kind := .dense, fmt := 0b00011, k := 128, n := 128 }
    let k1 := modQ k 9 (fun q => { q with write := true })
    let k2 := modQ k1 2 (fun q => { q with
      entries := [{ missing := 0, landPeriod := 0, tag := 0 }], limit := 1, llen := 1, staged := true, next := 0x1000 })
    let k3 := modEp k2 0 (fun e => { e with isOpen := true, rlen := 1 })
    let k4 := modEp k3 1 (fun e => { e with isOpen := true, word := BitVec.ofNat 29 (1 + 4 * 2 ^ 20), flag := 1, occ := 64 })
    { k4 with
      tiles := tile 31 128 (tile 2 8 (tile 1 128 (tile 0 128 k.tiles)))
      arrs := k.arrs.set 0 { k.arrs.get 0 with active := w }
      mvu := { k.mvu with bufFmt := 0b00011 }
      combs := k.combs.set 0 { k.combs.get 0 with mode := true, done := 1 }
      skd := { k4.skd with boom := k4.skd.boom.set 0 (List.replicate 15 0) }
      seq := { k.seq with scalars := k.seq.scalars.set 3 1 }
      xflags := k.xflags.set 7 1, xcomp := 1, spanCw := 67, xrLen := 1 })) 1 (fun g => { g with periods := 1 })

theorem witness_NextTickInstructions :
    let s := dataS
    let k := coreAt s 5
    let mask : BitVec 32 := BitVec.ofNat 32 (sreg k 3).toNat
    canIssue s 5 = true ∧
      cfgValid { rows := 128, rowb := 8, fmt := 3, axis := false } = true ∧
      { rows := 128, rowb := 8, fmt := 3, axis := false } = (tileOf k 0).cfg ∧
      cfgValid { rows := 1, rowb := 1, fmt := 3, axis := false } = true ∧ stillUsed k.tileUse 1 (nowAt s 5) = false ∧
      (∀ n : TReg, mask.getLsbD n.val = true → (tileOf k n).empty = true ∨ stillUsed k.tileUse n.val (nowAt s 5) = false) ∧
      ((tileOf k 31).empty = true ∨ stillUsed k.tileUse 31 (nowAt s 5) = false) ∧
      (wideOf k true).mode = false ∧ wideBusy k true (nowAt s 5 + 1) = false ∧
      (boomOf k 0).length < 16 ∧ boomNamed k 0 = false ∧ (boomOf k 0).length = 15 := by
  decide

theorem witness_NextTickResults :
    let k := coreAt dataS 5
    ({ rows := 128, rowb := 8, fmt := 3, axis := false } : TileCfg) = (tileOf k 0).cfg ∧
      ({ rows := 1, rowb := 1, fmt := 3, axis := false } : TileCfg) ≠ (tileOf k 0).cfg ∧ (1 : TReg) ≠ 0 ∧
      (0x80000000 : BitVec 32).getLsbD (31 : TReg).val = true ∧ (0x80000000 : BitVec 32).getLsbD (0 : TReg).val = false ∧
      (8 : Fin 16).val.testBit (3 : Fin 4).val = true ∧ (8 : Fin 16).val.testBit (0 : Fin 4).val = false := by
  decide

theorem witness_ClearAndOpen :
    canIssue dataS 5 = true ∧ (8 : Fin 16).val.testBit (3 : Fin 4).val = true ∧ (8 : Fin 16).val.testBit (0 : Fin 4).val = false ∧
      openFault dataS 5 31 (sreg (coreAt dataS 5) 3).toNat = none := by
  decide

def mvm0 : MvmFields := { q := 15, vecM1 := 7, linesM1 := 255, clr := true, e0 := 0, lc := 0, useLc := false, bank := true }
def wadd0 : WaddFields := { arr := 3, bank := false, wide := true, row := 0, rowsM1 := 127 }

theorem witness_MatrixStreams :
    let s := dataS
    canIssue s 5 = true ∧ (wfMma mma0 = true ∧ ((mmaIssue 5 mma0).fault s).isNone = true) ∧
      (wfWld { wld0 with tile := 31 } = true ∧ ((wldIssue 5 { wld0 with tile := 31 }).fault s).isNone = true) ∧
      ((mvmIssue 5 mvm0).fault s).isNone = true ∧ ((waddIssue 5 wadd0).fault s).isNone = true ∧
      ((mvldIssue 5 2 384).fault s).isNone = true := by
  decide

def vdrnV : VdrnFields := { vdrn0 with nM1 := 63, dst := 7 }
def vld0 : VldFields := { tile := 0, v := 0, f := 64, r := 0, nM1 := 63 }
def vst0 : VstFields := { v := 0, tile := 1, r := 0, f := 64, nM1 := 63, rnd := false, ctx := 0, stat := true }
def vsmx0 : VsmxFields := { scores := 0, p := 1, r := 0, nM1 := 63, ctx := false, init := true, mask := 0, maskEn := false, len := 0 }
def vresc0 : VrescFields := { arr := 0, bank := false, mv := false, acc := 64, nM1 := 63, o := 0, r := 0, ctx := false }
def vsmxf0 : VsmxfFields := { o := 0, vdst := true, dst := 1, r := 0, nM1 := 63, dstRow := 0, ctx := false, lse := 2, q := 0 }
def vwcv0 : VwcvFields := { wide := false, f := 64, nM1 := 63, vdst := true, dst := 0, dstRow := 0 }
def vrng0 : VrngFields := { d := 7, r := 63, nM1 := 0, ctx := 3, bits := true, thr := 0 }

theorem witness_VectorStreams :
    let s := dataS
    canIssue s 5 = true ∧ (wfVdrn vdrnV = true ∧ ((vdrnIssue 5 vdrnV).fault s).isNone = true) ∧
      ((vldIssue 5 vld0).fault s).isNone = true ∧ ((vstIssue 5 vst0).fault s).isNone = true ∧
      (wfVop vop0 = true ∧ ((vopIssue 5 vop0).fault s).isNone = true) ∧
      (wfVfn vfn0 = true ∧ ((vfnIssue 5 vfn0).fault s).isNone = true) ∧
      (wfVred vred0 = true ∧ ((vredIssue 5 vred0).fault s).isNone = true) ∧
      ((vsmxIssue 5 vsmx0).fault s).isNone = true ∧ ((vrescIssue 5 vresc0).fault s).isNone = true ∧
      ((vsmxfIssue 5 vsmxf0).fault s).isNone = true ∧ ((vwcvIssue 5 vwcv0).fault s).isNone = true ∧
      ((vrngIssue 5 vrng0).fault s).isNone = true := by
  decide

def sput0 : SputFields := { q := 9, tile := 31, f := 0, mM1 := 127, plane := false }
def kout0 : KoutFields := { k := 0, q := 9, f := 0, rowsM1 := 127, bf16 := true }

theorem witness_DataStreams :
    let s := dataS
    canIssue s 5 = true ∧ ((sldIssue 5 15 31 0 127).fault s).isNone = true ∧ ((sputIssue 5 sput0).fault s).isNone = true ∧
      (wfFsend fsend0 = true ∧ ((fsendIssue 5 fsend0).fault s).isNone = true) ∧ ((frcvIssue 5 .ccw 1).fault s).isNone = true ∧
      ((fxinIssue 5 .cw 511).fault s).isNone = true ∧ ((csendIssue 5 0 63).fault s).isNone = true ∧
      ((koutIssue 5 kout0).fault s).isNone = true ∧ ((xsendIssue 5 31).fault s).isNone = true := by
  decide

theorem witness_WaitsAndReleases :
    let s := dataS
    let k := coreAt s 5
    let x := qOf k 2
    let limit := (sreg k 3).toNat % 2 ^ 32
    canIssue s 5 = true ∧ (0 : Fin 64).val + 1 ≤ qReadable x (periodAt s 5) ∧
      (x.limit ≠ 0 ∧ (0 : Fin 1024).val + 1 + x.rel.length ≤ x.llen.toNat ∧ queueNamed k 2 = false) ∧
      (x.staged = true ∧ ∀ y ∈ x.rel, x.armMark ≤ y.seqNo) ∧ x.wTail ≤ x.accepted ∧
      (isRecvEnd (epOf k 1) = true ∧ chLand (epOf k 1).word = 4 ∧ limit ≤ (epOf k 1).flag.toNat) ∧
      limit ≤ (combOf k 0).done.toNat ∧ limit ≤ (k.xflags.get 7).toNat ∧ limit ≤ k.xcomp.toNat ∧
      (isRecvEnd (epOf k 1) = true ∧ chLand (epOf k 1).word ≠ 0) ∧ limit = 1 := by
  decide

/-! ### Witnesses: ticks, holds, layers and results -/

/-- The state a command leaves. -/
def afterCmd (i : Instr) (s : State) : State :=
  match exec i s with
  | .next t => t
  | _ => s

/-- C05 streams an SLD from queue Q15, which holds nothing: its next step waits. -/
def sldS : State := afterCmd (.sld 5 15 31 0 127) dataS

theorem witness_ScheduleTickOrHold :
    (regionTicks upS 1 = true ∧ (regionAt upS 1).hold = none ∧ (regionAt (tickBody [] [] 1 upS) 1).waits = []) ∧
    (regionTicks sldS 1 = true ∧ (regionAt sldS 1).hold = none ∧ (regionAt (tickBody [] [] 1 sldS) 1).waits ≠ []) ∧ (0 : RegionId) ≠ 1 := by
  decide

/-- `s` with region CG1 held since the tick that began. -/
def heldS (crossing : Nat) (s : State) : State :=
  modRegion s 1 (fun g => { g with hold := some { cause := 1, queue := 0x12, core := 1, tick := 0, periods := 3, crossing := crossing } })

/-- A WAITQ of C05 that waited for queue Q2 while the region held, before and after an entry landed. -/
def waitqS (entries : List QEntry) : State :=
  modRegion (modCore (afterCmd (.waitq 5 2 0) (runS id)) 5 (fun k => modQ k 2 (fun q => { q with entries := entries }))) 1
    (fun g => { g with periods := 1, hold := g.hold.map (fun h => { h with crossing := 0x100001 }) })

def entry0 : QEntry := { missing := 0, landPeriod := 0, tag := 0 }

theorem witness_HoldEndsWhenConditionsMet :
    ((regionAt (heldS 3 (runS id)) 1).hold.isSome = true ∧ regionTicks (heldS 3 (runS id)) 1 = true ∧
      unmetNow (heldS 3 (runS id)) 1 = [] ∧ (regionAt (heldS 3 (runS id)) 1).heldOps = []) ∧
    ((regionAt (waitqS [entry0]) 1).hold.isSome = true ∧ regionTicks (waitqS [entry0]) 1 = true ∧ unmetNow (waitqS [entry0]) 1 = [] ∧
      (regionAt (waitqS [entry0]) 1).heldOps ≠ []) := by
  decide

def request (mask : BitVec 17) : ClockReq := { mask := mask, idx := 0, waitsVolt := false, admitted := [], by_ := .register, ends := none, busy := none }

/-- `upS` with a clock request for CG1, before and during its switch. -/
def clockS (switching : Bool) : State :=
  modRegion { upS with power := { upS.power with clk := some (request (if switching then 0 else 2)) } } 1 (fun g =>
    { g with switching := switching })

theorem witness_RegionClockEvents :
    (let s : State := { upS with power := { upS.power with avsReq := 740 } }
     let lock := modRegion s 1 (fun g => { g with lsActive := true })
     regionRuns s 1 = true ∧ (714 : BitVec 12).toNat + 25 < s.power.avsReq.toNat ∧ (regionAt s 1).lsActive = false ∧
      regionRuns lock 1 = true ∧ (694 : BitVec 12).toNat + 45 < lock.power.avsReq.toNat ∧ (regionAt lock 1).lsActive = true ∧
      s.power.avsReq.toNat ≤ (715 : BitVec 12).toNat + 25 ∧ lock.power.avsReq.toNat ≤ (695 : BitVec 12).toNat + 45) ∧
    (let s := modRegion { upS with power := { upS.power with avsReq := 740 } } 1 (fun g => { g with lockstep := true })
     (regionAt s 1).lockstep = true ∧ regionRuns s 1 = true ∧ s.power.avsBusy = false ∧ neededMv s (needEntry s) ≤ s.power.avsReq.toNat) ∧
    (let s := clockS false
     s.power.clk = some (request 2) ∧ clkNext (request 2) = some 1 ∧ (request 2).waitsVolt = false ∧ (request 2).ends = none ∧
      (request 2).busy = none ∧ clkAdmitted s (request 2) 1 = true ∧ regionRuns s 1 = true ∧
      (regionAt s 1).hold = none) ∧
    (let s := clockS true
     s.power.clk = some (request 0) ∧ (regionAt s 1).switching = true ∧ regionRuns s 1 = true) := by
  decide

theorem witness_HoldWatchdogFences :
    let s := waitqS []
    ((regionAt s 1).hold.map (fun h => h.crossing)) = some 0x100001 ∧ Nat.max (regionAt s 1).holdwd.toNat 0x1000 < 0x100001 ∧
      (unmetNow s 1).map (fun w => (w.core, creditToo s w)) = [(some 5, none)] ∧ jobOf s 5 = some 0 ∧ canFence (jobAt s 0) = true := by
  decide

def rec0 : CfgRecord := { tag := 9, entry := 4, final := true, writes := [] }

/-- C05 awaits its first START with a record waiting, its job has one more to push, and its last layer has ended. -/
def layerS : State :=
  let s := runS (fun k => { k with seq := { k.seq with
    awaiting := true, runq := List.replicate 255 rec0, startDue := some 0, firstStart := true, finishing := true } })
  setJob s 0 { jobAt s 0 with toPush := [(5, [rec0])] }

/-- A record comes to C05 through the management crossing. -/
def comingS : State := modRegion layerS 1 (fun g => { g with mgtIn := [.record 5 rec0] })

theorem witness_LayerEvents :
    let q := (coreAt layerS 5).seq
    (regionAt layerS (regionOf 5)).hold = none ∧ (startIsDue layerS 5 = true ∧ q.runq = rec0 :: List.replicate 254 rec0 ∧ startCheck layerS 5 q.firstStart rec0 = none ∧
      (regionAt layerS (regionOf 5)).faults = []) ∧
    (q.job = some 0 ∧ (jobAt layerS 0).toPush = [(5, rec0 :: [])] ∧ q.runq.length + recordsComing layerS 5 < 256 ∧
      (regionAt layerS 1).mgtIn.length < 32 ∧ (jobAt layerS 0).state = .running) ∧
    ((regionAt comingS (regionOf 5)).hold = none ∧ (coreAt comingS 5).seq.run = .running ∧
      (regionAt comingS (regionOf 5)).mgtIn = [.record 5 rec0]) ∧
    (q.job = some 0 ∧ q.run = .running ∧ q.finishing = true ∧ q.trailing = 0 ∧ coreQuiet (coreAt layerS 5) = true) := by
  decide

theorem witness_UnitResultValues :
    let k := coreAt upS 5
    (storeWf (bankOf (arrOf k 3) true).elems = true ∧ 127 < 128) ∧ (0 : Fin 4) ≠ 3 ∧
      (cellWf 0#128 (wideOf k true).elems = true ∧ (List.replicate 128 (-1 : Int)).length = 128) ∧
      cellWf 0#32 (k.vec.regs.get 7) = true ∧ (0 : VRegId) ≠ 7 := by
  decide

theorem witness_WideSumOrderFree :
    cellWf 0#128 [(16383, (1 : BitVec 128))] = true ∧ (List.replicate 128 (-1 : Int)).length = 128 ∧
      (List.replicate 128 (2 ^ 127 : Int)).length = 128 := by
  decide

/-! ### Witnesses: streams, flits and the Skidder -/

/-- An operation of C05 issued at tick 0 in slot S, with one step done of `count`, or none. -/
def strm0 (i : Instr) (count : Nat) : Strm :=
  { instr := i, issued := 3, t0 := 0, step := 1, count := count, next := 0, cfg := resetLayerCfg, prof := 0, s0 := 0, s1 := 0, banks := 0
    bytes := [], rows := [], vals := [], cfgs := Vector.ofFn (fun t => (tileOf (coreAt dataS 5) t).cfg), kept := [] }

/-- `dataS` with one operation in progress, and entries readable in queues Q0 and Q14. -/
def opS (o : Strm) (f : Core → Core) : State :=
  modCore dataS 5 (fun k =>
    let k1 := modQ k 14 (fun q => { q with entries := List.replicate 2 entry0, esize := 0x1F })
    let k2 := modQ k1 0 (fun q => { q with entries := [entry0] })
    f { k2 with ops := [o] })

def flit0 : Flit := { payload := [], ttl := 67, tag := 0, crc := flitCrc [] 0, exited := false }

theorem witness_StreamSteps :
    (let o := strm0 (.mvm 5 { mvm0 with q := 0 }) 256
     let s := opS o id
     stepsClean s 5 ∧ onlyDue (fun i => match i with | .mvm _ _ => true | _ => false) s 5 o ∧
      mvmWait s 5 o { mvm0 with q := 0 } = none ∧ mvmTakesScale (coreAt s 5) o = false) ∧
    (let o := strm0 (.sld 5 14 1 0 3) 1
     let s := opS o id
     stepsClean s 5 ∧ onlyDue (fun i => match i with | .sld _ _ _ _ _ => true | _ => false) s 5 o ∧
      sldWait s 5 o 14 1 0 3 = none ∧ cfgMx (tileOf (coreAt s 5) 1).cfg = false) ∧
    (let o := strm0 (.fxin 5 .ccw 511) 512
     let s := modRegion (opS o id) 1 (fun g => { g with inCcw := [flit0] })
     stepsClean s 5 ∧ (∀ e ∈ coresOf 1, stepsClean s e) ∧
      onlyDue (fun i => match i with | .fxin _ e _ => decide (e = .ccw) | _ => false) s 5 o ∧
      (∀ e ∈ coresOf 1, e ≠ 5 →
        dueOps (fun i => match i with | .fxin _ x _ => decide (x = Dir.ccw) | _ => false) (coreAt s e) (nowAt s e) = []) ∧
      inboundOf (regionAt s 1) .ccw = flit0 :: [] ∧ flitOk flit0 = true ∧ ringOf (coreAt s (entryPos 1 .ccw)) .ccw = none) ∧
    (let o := strm0 (.frcv 5 .cw 1) 8
     let s := opS o (fun k => { k with ringCw := some flit0 })
     stepsClean s 5 ∧
      onlyDue (fun i => match i with
        | .frcv _ e _ => decide (e = .cw)
        | .wld _ x => decide (x.src.val ≠ 0) && decide (wldDir x = .cw)
        | _ => false) s 5 o ∧ ringOf (coreAt s 5) .cw = some flit0 ∧ flitOk flit0 = true) ∧
    (let o := strm0 (.sput 5 sput0) 32
     let s := opS o id
     stepsClean s 5 ∧ (∀ p ∈ (coreAt s 5).pend, isLate p.eff = false ∨ nowAt s 5 < p.due) ∧
      onlyDue (fun i => match i with | .sput _ _ => true | .kout _ _ => true | _ => false) s 5 o) := by
  unfold stepsClean onlyDue
  decide +kernel

/-- One operation alone that has a step due and meets no wait meets none at its turn. -/
theorem stepsFree_one {want : Instr → Bool} {c : CoreId} {s : State} {o : Strm} (hd : onlyDue want s c o)
    (hw : opWait s c o = none) : stepsFree want c s := by
  intro before x after h
  rw [hd] at h
  cases before with
  | nil =>
    simp only [List.nil_append, List.cons.injEq] at h
    rw [← h.1]
    exact hw
  | cons y ys => simp at h

theorem witness_UnitResultsLand : unitsStep (runS id) 5 = true := by decide

theorem witness_UnitResultsLand_lines :
    let o := strm0 (.mvm 5 { mvm0 with q := 0 }) 256
    let s := opS o id
    stepsClean s 5 ∧ stepsFree (fun i => match i with | .mvm _ _ => true | _ => false) 5 s :=
  ⟨by unfold stepsClean; decide +kernel, stepsFree_one (o := strm0 (.mvm 5 { mvm0 with q := 0 }) 256) (by unfold onlyDue; decide +kernel) (by decide +kernel)⟩

theorem witness_UnitResultsLand_groups :
    let o := strm0 (.sld 5 14 1 0 3) 1
    let s := opS o id
    stepsClean s 5 ∧ stepsFree (fun i => match i with | .sld _ _ _ _ _ => true | _ => false) 5 s :=
  ⟨by unfold stepsClean; decide +kernel, stepsFree_one (o := strm0 (.sld 5 14 1 0 3) 1) (by unfold onlyDue; decide +kernel) (by decide +kernel)⟩

theorem witness_UnitResultsLand_reads :
    let o := strm0 (.fxin 5 .ccw 511) 512
    let s := modRegion (opS o id) 1 (fun g => { g with inCcw := [flit0] })
    stepsClean s 5 ∧ (∀ e ∈ coresOf 1, stepsClean s e) ∧
      (∀ e ∈ coresOf 1, e ≠ 5 →
        dueOps (fun i => match i with | .fxin _ x _ => decide (x = Dir.ccw) | _ => false) (coreAt s e) (nowAt s e) = []) ∧
      stepsFree (fun i => match i with | .fxin _ e _ => decide (e = Dir.ccw) | _ => false) 5 s :=
  ⟨by unfold stepsClean; decide +kernel, by unfold stepsClean; decide +kernel, by decide +kernel,
    stepsFree_one (o := strm0 (.fxin 5 .ccw 511) 512) (by unfold onlyDue; decide +kernel) (by decide +kernel)⟩

theorem witness_UnitResultsLand_puts :
    let o := strm0 (.sput 5 sput0) 32
    let s := opS o id
    let s1 := settleFaults 1 (runLate 5 (nowAt s 5) s)
    stepsClean s 5 ∧ (regionAt (runLate 5 (nowAt s 5) s) 1).waits = [] ∧ unitsStep s1 5 = true ∧
      stepsFree (fun i => match i with | .sput _ _ => true | .kout _ _ => true | _ => false) 5 s1 :=
  ⟨by unfold stepsClean; decide +kernel, by decide +kernel, by decide +kernel,
    stepsFree_one (o := strm0 (.sput 5 sput0) 32) (by unfold onlyDue; decide +kernel) (by decide +kernel)⟩

/-- `upS` with region CG2 asleep and a flit in its inbound crossing. -/
def bypassS : State :=
  modRegion { upS with power := { upS.power with regs := upS.power.regs.set 2 .asleep } } 2 (fun g => { g with inCw := [flit0] })

theorem witness_FlitMovement :
    (let p : Pend := { due := 0, issued := 3, eff := .inject .cw flit0 }
     let s := runS (fun k => { k with pend := [p] })
     stepsClean s 5 ∧ dueResults (fun e => match e with | .inject x _ => decide (x = .cw) | _ => false) s 5 = [p] ∧
      dueOps (fun i => match i with | .fsend _ x => decide (x.dir = .cw) | _ => false) (coreAt s 5) (nowAt s 5) = [] ∧
      ringOf (coreAt s 5) .cw = none) ∧
    (let s := modCore upS (exitPos 1 .cw) (fun k => { k with ringCw := some flit0 })
     regionTicks s 1 = true ∧ (regionAt s 1).hold = none ∧ exitFull s 1 .cw = false ∧ exitDue s 1 .cw = true ∧
      ringOf (coreAt s (exitPos 1 .cw)) .cw = some flit0) ∧
    (autoReady bypassS 2 .cw = true ∧ inboundOf (regionAt bypassS 2) .cw = flit0 :: [] ∧ flitOk flit0 = true) := by
  unfold stepsClean
  decide

/-- A descriptor of LENGTH 1 in the last 32 bytes of the local store, with the fields `more` of its first word. -/
def desc0 (more : Nat) : Desc :=
  { word0 := BitVec.ofNat 64 (more + 2 ^ 4 + 2 ^ 24), word1 := BitVec.ofNat 64 (0x800000 - 32), word2 := 0, word3 := 0 }

def act0 (d : Desc) : ActDesc :=
  { index := 0, desc := d, base := 0, seqNo := 0, startPeriod := 0, handle := none, handleTaken := false, issued := 0, landed := 0
    count := none, item := none, itemsTaken := 0, firstEntry := 0, boutDone := false, donePeriod := none }

def rel0 (d : Desc) : RelDesc := { index := 0, words := some d, base := 0, seqNo := 0, avail := 0 }

/-- C05 runs, in period 1, with queue Q1 as `f` makes it, beside what `g` changes. -/
def queueS (f : StreamQ → StreamQ) (g : Core → Core) : State :=
  modRegion (runS (fun k => g (modQ k 1 (fun q => f { q with limit := 1 })))) 1 (fun r => { r with periods := 1 })

/-- Boom queue 7 holds the handle of the last 32 bytes of the local store. -/
def boomed (k : Core) : Core :=
  { k with skd := { k.skd with boom := k.skd.boom.set 7 [0x7FFFF] } }

theorem witness_SkidderProgress :
    (let s := queueS (fun q => { q with rel := [rel0 (desc0 1)] }) id
     let k := coreAt s 5
     startReady s 5 1 = some (rel0 (desc0 1)) ∧ descCheck s k (qOf k 1) (relWords k 1 (rel0 (desc0 1))) 0 = none ∧ (0 : QId) ≠ 1) ∧
    (let a := act0 (desc0 (1 + 2 ^ 10 + 7 * 2 ^ 12))
     let s := queueS (fun q => { q with act := [a] }) boomed
     let k := coreAt s 5
     let q := qOf k 1
     handleNext q = some a ∧ boomOf k (dBin a.desc) = [0x7FFFF] ∧ skdRuns k q = true ∧ dBytes a.desc ≤ handleSize 0x7FFFF ∧
      handleAddr 0x7FFFF + dBytes a.desc ≤ storeSize ∧ (dBuf a.desc ≠ 2 ∧ dKind a.desc ≠ 2)) ∧
    (let s := queueS (fun q => { q with act := [act0 (desc0 1)] }) id
     (issueReady s 5).map (fun x => (x.1, x.2.1)) = some ((1 : QId), act0 (desc0 1))) ∧
    (let a : ActDesc := { act0 (desc0 (1 + 2 ^ 19)) with donePeriod := some 0, handleTaken := true, handle := some 5 }
     let s := queueS (fun q => { q with act := [a] }) (fun k => { k with skd := { k.skd with boom := k.skd.boom.set 0 (List.replicate 15 0) } })
     let k := coreAt s 5
     let q := qOf k 1
     q.act.find? (fun a => a.donePeriod.isSome && dBoutEn a.desc && a.handleTaken) = some a ∧
      (a.donePeriod.getD 0).toNat < periodAt s 5 ∧ (boomOf k (dBout a.desc)).length < 16) := by
  decide

theorem witness_SkidderProgress_gather :
    let a := act0 (desc0 (3 + 4 * 2 ^ 20))
     let s := queueS (fun q => { q with act := [a], pairs := [{ gather := 0, idxq := 4, list := some 0, pairPeriod := 0 }] }) (fun k =>
       modQ k 4 (fun q => { q with entries := [entry0], lists := [{ list := 0, paired := true, count := some 1, knownPeriod := 0 }] }))
     let k := coreAt s 5
     let q := qOf k 1
     issuing k q = some a ∧ gatherKnown k q a.seqNo = some 1 ∧ dKind a.desc = 3 ∧ a.item = none ∧ a.itemsTaken < 1 ∧
      4 ≤ qAvail (qOf k (dIdxq a.desc)) (periodAt s 5) ∧ skdRuns k q = true ∧ dBuf a.desc = 0 ∧
      leNat (qPeek k (dIdxq a.desc) 4) = 0 ∧
      runAllowed s k a.desc (baseAddr a.desc a.base (memHandle a.desc a.handle) 0) (dBytes a.desc) = true := by
  decide

def xfer0 (write : Bool) : Xfer :=
  { id := 3, desc := 0, write := write, inStore := false, ranges := [(0, 32)], offs := [], len := 32, data := [], pieces := 1, served := 1
    dropped := false }

theorem witness_SkidderMemorySide_idle :
    (xferOf (qOf (coreAt (runS id) 5) 1) 3 = none) ∧
    (let s := queueS (fun q => { q with xfers := [{ xfer0 false with served := 0 }] }) id
     xferOf (qOf (coreAt s 5) 1) 3 = some { xfer0 false with served := 0 } ∧ xferReady { xfer0 false with served := 0 } = false) ∧
    (let s := queueS (fun q => { q with xfers := [xfer0 false] }) id
     let q := qOf (coreAt s 5) 1
     xferOf q 3 = some (xfer0 false) ∧ (xfer0 false).write = false ∧ xferReady (xfer0 false) = true ∧ actOf q (xfer0 false).desc = none) := by
  decide

theorem witness_SkidderMemorySide :
    (let s := queueS (fun q => { q with act := [act0 (desc0 1)], xfers := [xfer0 false] }) id
     let q := qOf (coreAt s 5) 1
     xferOf q 3 = some (xfer0 false) ∧ (xfer0 false).write = false ∧ xferReady (xfer0 false) = true ∧ (xfer0 false).dropped = false ∧
      actOf q (xfer0 false).desc = some (act0 (desc0 1)) ∧ dKind (act0 (desc0 1)).desc ≠ 4) ∧
    (let a := act0 (desc0 (4 + 2 ^ 6))
     let s := queueS (fun q => { q with act := [a], xfers := [xfer0 false] }) id
     let k := coreAt s 5
     xferOf (qOf k 1) 3 = some (xfer0 false) ∧ actOf (qOf k 1) 0 = some a ∧ dKind a.desc = 4 ∧ dCounted a.desc = true ∧ a.count = none ∧
      leNat ((xferBytes k (xfer0 false)).take 4) ≤ (dLength a.desc - 1) * 8) ∧
    (let s := queueS (fun q => { q with xfers := [xfer0 true] }) id
     let q := qOf (coreAt s 5) 1
     xferOf q 3 = some (xfer0 true) ∧ (xfer0 true).write = true ∧ xferReady (xfer0 true) = true ∧ (xfer0 true).dropped = false ∧
      (xfer0 true).inStore = false) ∧
    (let s := queueS (fun q => { q with act := [act0 (desc0 (1 + 2 ^ 10 + 7 * 2 ^ 12))], cperiods := 0xC0001 }) id
     let k := coreAt s 5
     creditLimit k < (qOf k 1).cperiods ∧ creditBlock k 1 (periodAt s 5) = some (0b011, 7) ∧ jobOf s 5 = some 0 ∧
      canFence (jobAt s 0) = true) := by
  decide

/-! ### Witnesses: channels, combining queues and jobs -/

/-- A message from endpoint 3 of core C00 that has passed its first crossing. -/
def msg0 (kind : ChMsgKind) : ChMsg := { kind := kind, srcCore := 0, srcEp := 3, gen := 0, due := none, dir := .cw, passed := true }

/-- `upS` with endpoint 2 of C05 open towards that sender, with the fields `word` of its register and one item in transit. -/
def chanS (word : Nat) (kind : ChMsgKind) (f : Endpoint → Endpoint) : State :=
  coreS (fun k => modEp k 2 (fun e => f { e with
    word := BitVec.ofNat 29 (word + 3 * 2 ^ 8), isOpen := true, transit := [msg0 kind], unsettled := 1 }))

def desc1 : Desc := { word0 := 2 ^ 16, word1 := 0xFFFFFFFFFFFFFFFF, word2 := 0, word3 := 0 }

def arrivesIn (s : State) (want : ChMsgKind → Bool) (m : ChMsg) : Bool :=
  let x := epOf (coreAt s 5) 2
  decide (nextItem (mayArrive want (nowAt s 5)) [] x.transit = some m) && x.isOpen && peerIs s x.word m

theorem witness_ChannelArrivals :
    (let s := chanS 1 (.message desc1) id
     let x := epOf (coreAt s 5) 2
     arrivesIn s (fun k => match k with | .message _ => true | _ => false) (msg0 (.message desc1)) = true ∧ chRecv x.word = true ∧
      (msg0 (.message desc1)).gen = x.gen ∧ chLand x.word = 0) ∧
    (let s := chanS (1 + 4 * 2 ^ 20) (.message desc1) id
     let x := epOf (coreAt s 5) 2
     arrivesIn s (fun k => match k with | .message _ => true | _ => false) (msg0 (.message desc1)) = true ∧ chRecv x.word = true ∧
      (msg0 (.message desc1)).gen = x.gen ∧ chLand x.word = 4 ∧ x.held = [] ∧ chAutoAck x.word = false) ∧
    (let s := chanS 0 (.credit 64 64) (fun e => { e with credits := 64 })
     let x := epOf (coreAt s 5) 2
     arrivesIn s (fun k => match k with | .credit _ _ => true | _ => false) (msg0 (.credit 64 64)) = true ∧ chRecv x.word = false ∧
      x.credits.toNat ≤ 64 ∧ 64 ≤ 64) ∧
    (let s := chanS 0 .close id
     let x := epOf (coreAt s 5) 2
     arrivesIn s (fun k => match k with | .close => true | _ => false) (msg0 .close) = true ∧ chRecv x.word = false) ∧
    (let s := chanS (2 ^ 28) (.discard true) id
     let x := epOf (coreAt s 5) 2
     arrivesIn s (fun k => match k with | .discard _ => true | _ => false) (msg0 (.discard true)) = true ∧ chRecv x.word = false ∧
      chTolerate x.word = true ∧ (regionAt s (regionOf 5)).faults = []) := by
  decide

def narrow0 : Desc := { word0 := 0, word1 := 5, word2 := 0, word3 := 0 }

/-- `runS` with combining queues K0, narrow over one word, and K1, wide, each with one contribution. -/
def combS : State :=
  modRegion (runS (fun k =>
    let k1 := modQ k 6 (fun q => { q with entries := [entry0], esize := 0x3F })
    let en (d : Desc) : CombEntry := { words := d, entered := 0, rowsDone := 0 }
    let narrow : CombQ := { k.combs.get 0 with awords := 1, entries := [en narrow0] }
    let wide : CombQ := { k.combs.get 1 with mode := true, sq := 6, entries := [en { narrow0 with word1 := 0 }] }
    { k1 with combs := (k.combs.set 0 narrow).set 1 wide })) 1
    (fun r => { r with periods := 1 })

theorem witness_CombiningSteps :
    let k := coreAt combS 5
    (regionAt combS (regionOf 5)).faults = [] ∧ (regionAt combS (regionOf 5)).hold = none ∧
      (narrowReady k 0 = some narrow0 ∧ narrowFault (combOf k 0) narrow0 = none) ∧
      ((wideReady k 1).isSome = true ∧ (∀ e ∈ (combOf k 1).entries, wideReady k 1 = some e ∧ wideFault (wideOf k (combOf k 1).wt) e.words = none ∧
        wideRowBytes e.words ≤ qAvail (qOf k (combOf k 1).sq) (periodAt combS 5))) := by
  decide

theorem witness_NarrowAdditionInStore : memWf (memWrite [] 8 [0xFF, 0xFF]) = true := by decide

/-- Region CG1 has its stop armed for job 0 at tick 7, in which C05 stands. -/
def stopS : State :=
  modRegion (runS (fun k => { k with seq := { k.seq with jtick := 7 } })) 1 (fun g => { g with stopEn := true, stopAt := 7 })

theorem witness_JobStops :
    stopMatches stopS 1 = true ∧
    (let s := modCore stopS 5 (fun k => { k with seq := { k.seq with run := .stopped } })
     (jobAt s 0).state = .running ∧ (∃ c ∈ membersOf s 0, partOver (coreAt s c).seq = false) ∧
      ∀ c ∈ membersOf s 0, partOver (coreAt s c).seq = true ∨ (coreAt s c).seq.run = .stopped) := by
  decide

def image0 : Image :=
  { addr := 0, len := 0, profile := 1, cores := 0x20, engines := 0, coreMap := State.reset.capCores.toList
    windows := [{ base := 0, size := 0x1000, read := true, write := false }]
    sections := [{ logical := 5, bundles := [], jtab := [], records := [rec0] }] }

/-- `upS` with job 0 in `state` on logical core 5 under the image of slot 0. -/
def jobS (state : JobState) (f : Job → Job) : State :=
  setJob { upS with images := [(0, image0)] } 0 (f { freeJob with state := state, cores := 0x20 })

/-- Core C05 has reported to the Landing that its part of job 0 is over. -/
def reportedS : State := modRegion (jobS .running id) 1 (fun g => { g with mgtOut := [{ core := 5, job := 0 }] })

theorem witness_JobLifeCycle :
    (let s := jobS .ready id
     let b := jobAt s 0
     startsAllowed s = true ∧ jobTurn s 0 = true ∧ startRefusal s 0 = none ∧ imageAt s b.slot.toNat = some image0 ∧
      (jobRegions s b).all (fun n => powAt s n == .running) = true) ∧
    jobAllDone reportedS 0 = true ∧ (jobAt (jobS .fencing id) 0).state = .fencing := by
  decide

theorem witness_FaultFencesItsJob : jobOf (runS id) 5 = some 0 ∧ canFence (jobAt (runS id) 0) = true := by decide

/-- Job 0 has completed on its core; job 9 waits for the jobs `ps`. -/
def doneS (ps : List JobId) : State :=
  setJob reportedS 9
    { freeJob with state := .waiting, preds := ps, pred := BitVec.ofNat 16 ps.length }

theorem witness_DoneReleasesSuccessors :
    (let s := doneS [0]
     jobAllDone s 0 = true ∧ (9 : JobId) ≠ 0 ∧ (jobAt s 9).state = .waiting ∧ (0 : JobId) ∈ (jobAt s 9).preds ∧
      (jobAt s 9).preds.length = (jobAt s 9).pred.toNat ∧ cellWf freeJob s.jobs = true ∧ (jobAt s 9).preds = [0]) ∧
    (let s := doneS [0, 12]
     jobAllDone s 0 = true ∧ (jobAt s 9).state = .waiting ∧ (0 : JobId) ∈ (jobAt s 9).preds ∧
      (jobAt s 9).preds.length = (jobAt s 9).pred.toNat ∧ cellWf freeJob s.jobs = true ∧ (jobAt s 9).preds = [0, 12] ∧ (12 : JobId) ≠ 0) := by
  decide

/-! ### Witnesses: command packets -/

def rsvHdr : PktHdr := { hdr with rsv := true }

theorem witness_PacketTaking :
    packetOf (.startRelease hdr 3) = some (hdr, 0x03, 0) ∧ mayRead hdr { upS with rings := { upS.rings with head := 3 } } = false ∧
      packetOf (.startRelease { hdr with readOk := false } 3) = some ({ hdr with readOk := false }, 0x03, 0) ∧
      mayRead { hdr with readOk := false } upS = true ∧
      packetOf (.startRelease rsvHdr 3) = some (rsvHdr, 0x03, 0) ∧ canTake rsvHdr upS = true ∧ rsvHdr.rsv = true ∧
      opcodeKnown 0x12 = false ∧ canTake hdr upS = true := by
  decide

/-- `s` with bytes of DRAM from address `a` on. -/
def withBytes (a : Nat) (bs : List Byte) (s : State) : State := dramWrite s a bs

/-- An image at 0x8000 for logical core 0: one layer whose only bundle that does something holds NEXT (spec/04, Tables 2 and 4; spec/12,
Table 7), and its core map. -/
def imageS : State :=
  withBytes 0x8000 [1] (withBytes 0x8004 [1] (withBytes 0x8008 [1] (withBytes 0x8018 State.reset.capCores.toList
    (withBytes 0x8101 [2] (withBytes 0x8108 [1] (withBytes 0x8110 [0x40, 2] (withBytes 0x8118 [0xC0, 2] (withBytes 0x8120 [1]
      (withBytes 0x8200 [1, 1, 0x48] (withBytes 0x82C0 [1, 0, 9, 0, 0, 0x10] upS))))))))))

theorem witness_ImagesAndGraphs :
    (takes hdr imageS ∧ slotUsed (takeHead imageS) 1023 = false ∧
      (parseImage (takeHead imageS) 0x8000 0x300 0x9000).map (fun i => imageCheck (takeHead imageS) 1023 i) = some none) ∧
    (let s := { withBytes 0xA008 [0x20] upS with images := [(0, image0)] }
     let u := takeHead s
     takes hdr s ∧ isDram u 0xA000 64 = true ∧
      graphCheck u 0 [] ((List.range 1).map (fun n => parseNode (dramRead u (0xA000 + 64 * n) 64))) = none) := by
  unfold takes
  decide +kernel

/-- A graph node with one predecessor, job 0. -/
def node0 : GraphNode :=
  { index := 9, slot := 0, tag := 5, hold := false, notify := true, cores := 0x20, preds := [0], reserved := false }

theorem witness_ImagesAndGraphs_node :
    (let s := jobS .running id
     node0.preds = [0] ∧ ¬ ((jobAt s 0).state = .fenced ∨ (jobAt s 0).state = .cancelled)) ∧
    (let s := jobS .cancelled id
     node0.preds = [0] ∧ ((jobAt s 0).state = .fenced ∨ (jobAt s 0).state = .cancelled)) := by
  decide

theorem witness_StartAndFencePackets :
    (takes hdr (jobS .held id) ∧ (jobAt (jobS .held id) 0).state = .held) ∧
    (takes hdr (jobS .stopped id) ∧ (jobAt (jobS .stopped id) 0).state = .stopped) ∧
    (takes hdr (jobS .waiting id) ∧ (jobAt (jobS .waiting id) 0).state = .waiting) ∧
    (takes hdr (runS id) ∧ (jobAt (runS id) 0).state = .running ∧ partOver (coreAt (runS id) 5).seq = false ∧
      5 ∈ membersOf (runS id) 0) := by
  unfold takes
  decide

/-- `upS` with group 15 as `f` makes it, over logical core 0. -/
def groupS (f : Group → Group) : State := modGroup upS 15 (fun g => f { g with mask := 1 })

/-- One stage entry at 0xB000: RNG_SEED_LO of core 0 becomes 1 (spec/12, Table 13; spec/03, Table 11). -/
def stageS : State :=
  withBytes 0xB000 (leBytes 8 (0x318 * 2 ^ 8)) (withBytes 0xB008 [1] (groupS (fun g => { g with state := .isOpen })))

theorem witness_CommitPackets :
    (let s := groupS id
     let u := takeHead s
     takes hdr s ∧ (groupAt s 15).state ≠ .isOpen ∧ groupBusy (groupAt s 15) = false ∧
      (∀ l ∈ bitList 64 (0x8000000000000001 : Word).toNat,
        (s.groups.toList.filter (fun y => y.state == .isOpen && isMember y l)).length < 2 ∧ l < s.activeCores.toNat) ∧
      isDram u 0x10000 0x1000 = true ∧ clearOfWindows u 0x10000 0x1000 = true) ∧
    (let s := stageS
     let u := takeHead s
     let x := groupAt s 15
     let es := (List.range 1).map (fun n => parseStage u (0xB000 + 32 * n))
     takes hdr s ∧ x.state = .isOpen ∧ isDram u 0xB000 32 = true ∧ (∀ e ∈ es, stageBad u x e = false ∧ e.isMem = false) ∧
      stageOver x (stagedRegs es) [] = false ∧ stageTwice (x.regs ++ stagedRegs es) = false ∧ (stagedRegs es).any (stepPast u) = false) ∧
    (let s := groupS (fun g => { g with state := .isOpen })
     let x := groupAt s 15
     takes hdr s ∧ x.state = .isOpen ∧ x.regs = [] ∧ x.mems = [] ∧ fabricWide s 15 = false) ∧
    (let s := { groupS (fun g => { g with state := .isOpen }) with fabric := { upS.fabric with grp := 0x8000 } }
     takes hdr s ∧ (groupAt s 15).state = .isOpen ∧ fabricWide s 15 = true) ∧
    (let s := groupS (fun g => { g with state := .isOpen })
     let steps : List StagedReg := (bitList 64 1).map (fun l => { core := some l, off := 0x328, value := 0, step := true })
     takes hdr s ∧ (∀ l ∈ bitList 64 1, isMember (groupAt s 15) l = true) ∧ stageOver (groupAt s 15) steps [] = false ∧
      stageTwice ((groupAt s 15).regs ++ steps) = false ∧ steps.any (stepPast (takeHead s)) = false) := by
  unfold takes
  decide

/-- The epoch's staged write of a group that takes a snapshot. -/
def epochReg : StagedReg := { core := none, off := 0x4000, value := 2 ^ 32 + 5, step := false }

theorem witness_CommitPrepareAndDecide :
    (let s := groupS (fun g => { g with state := .preparing })
     let x := groupAt s 15
     x.state = .preparing ∧ isMember x (0 : Fin 64).val = true ∧ x.prepared.contains (0 : Fin 64).val = false ∧ groupFenced s x = none ∧
      prepareFails s x 0 = false) ∧
    (let s := groupS (fun g => { g with state := .preparing, prepared := [0] })
     let x := groupAt s 15
     x.state = .preparing ∧ allPrepared x = true ∧ fabricWide s 15 = false ∧ groupFenced s x = none ∧ ∀ r ∈ x.regs, r.core ≠ none) ∧
    (let s := groupS (fun g => { g with state := .preparing, prepared := [0], regs := [epochReg] })
     let x := groupAt s 15
     x.state = .preparing ∧ allPrepared x = true ∧ fabricWide s 15 = false ∧ groupFenced s x = none ∧
      x.regs.find? (fun r => decide (r.core = none)) = some epochReg ∧ s.snap.en = false) ∧
    (let s := groupS (fun g => { g with state := .preparing })
     let x := groupAt s 15
     x.state = .preparing ∧ groupFenced s x = none ∧ (bitList 64 x.mask.toNat).find? (fun l => !x.prepared.contains l) = some 0) := by
  decide

theorem witness_CommitApplyAndComplete :
    (let s := groupS (fun g => { g with state := .applying })
     let x := groupAt s 15
     x.state = .applying ∧ isMember x (0 : Fin 64).val = true ∧ x.applied.contains (0 : Fin 64).val = false ∧
      physicalOf s (0 : Fin 64).val = some 0 ∧ applyReady s x 0 = true ∧ s.snap.state ≠ .capturing) ∧
    (let m : StagedMem := { core := 0, dst := 0x20000, src := 0x10000, len := 32 }
     let s := groupS (fun g => { g with state := .applying, applied := [0], mems := [m] })
     let x := groupAt s 15
     x.state = .applying ∧ (∀ l ∈ bitList 64 x.mask.toNat, x.applied.contains l = true) ∧ x.mems = [m] ∧ memWf s.dram = true ∧
      isDram s m.dst m.len = true ∧ memsServed s x.mems = true ∧ badAddrs s = []) ∧
    (let m : StagedMem := { core := 0, dst := 0x20000, src := 0x10000, len := 32 }
     let s := { groupS (fun g => { g with state := .applying, applied := [0], mems := [m] }) with
       power := { upS.power with regs := upS.power.regs.set 17 .asleep } }
     let x := groupAt s 15
     x.state = .applying ∧ (∀ l ∈ bitList 64 x.mask.toNat, x.applied.contains l = true) ∧ memsServed s x.mems = false) := by
  decide

/-- A snapshot plan over one page, its slots in DRAM, with `partner`. -/
def plan0 (partner : BitVec 16) : SnapPlan :=
  { slot0 := 0x40000, slot1 := 0x80000, far0 := 0, far1 := 0x40000, partner := partner, ranges := [(0x10000, 0x1000)] }

/-- `s` with a slot of every wheel given to an owner. -/
def slotS (owner : Byte) (s : State) : State := { s with mems := vmap (fun m : MemRegion => { m with wheel := m.wheel.set 2 owner }) s.mems }

/-- `upS` with the first granule of DRAM retained, slots for the snapshot engine, and that plan. -/
def snapS (partner : BitVec 16) (f : Snap → Snap) : State :=
  slotS 0x41 { upS with retain0 := (0, 1), snap := f { upS.snap with plan := some (plan0 partner) } }

/-- A snapshot of no record at 0x40000: its length and SHA3-512 of the empty string (FIPS 202). -/
def validS : State :=
  withBytes 0x40009 [1] (withBytes 0x40040 (leBytes 64
    0x26CD1D2886857501E3D3B6959D1900F558C53A2C40E9E3114CF9F5F13A12B215A6805C47C1DCD1E05958E24F1682C9976E755A18DC67B5C8C59A3AA2CC739FA6)
    (snapS 0xFFFF id))

theorem witness_SnapshotsAndRestores :
    (let s := { upS with part := 0x30 }
     takes hdr s ∧ noEngines s = true) ∧
    (let s := withBytes 0x50002 [4] (withBytes 0x5000A [8] (withBytes 0x50020 [0xFF, 0xFF, 1] (withBytes 0x50042 [1]
       (withBytes 0x50049 [0x10] (snapS 0xFFFF id)))))
     takes hdr s ∧ noEngines s = false ∧ snapBusy s = false ∧ planRefusal (takeHead s) 0x50000 = none) ∧
    (let s := snapS 0xFFFF id
     takes hdr s ∧ noEngines s = false ∧ s.snap.state ≠ .capturing ∧ takeComplete s = true) ∧
    (let s := snapS 0xFFFF (fun x => { x with state := .capturing, takeEpoch := 1, lastTake := some 0 })
     takes hdr s ∧ noEngines s = false ∧ s.snap.state = .capturing ∧ takeComplete s = false ∧ s.snap.plan = some (plan0 0xFFFF) ∧
      (plan0 0xFFFF).partner = 0xFFFF ∧ recordsMissing s = false ∧ badAddrs s = [] ∧
      snapServed s ((planSlot (plan0 0xFFFF) s.snap.slot, 256) :: (plan0 0xFFFF).ranges) = true ∧
      s.fabric.mgr = false ∧ s.fabric.idValid = false ∧ domainIds s = [] ∧ s.snap.lastTake.isSome = true ∧
      s.snap.complete.toNat < s.snap.takeEpoch.toNat) ∧
    (let s := { snapS 0xFFFF (fun x => { x with state := .capturing, takeGroup := some 15 }) with
       groups := (groupS (fun g => { g with state := .applying })).groups }
     s.snap.state = .capturing ∧ s.snap.plan = some (plan0 0xFFFF) ∧ recordsMissing s = true) ∧
    (let s := withBytes 0x9 [1] { snapS 7 id with fabric := { upS.fabric with routes := [(7, some 4)] } }
     takes hdr s ∧ noEngines s = false ∧ s.snap.plan = some (plan0 7) ∧ restoreSlot s 0 true = some 0 ∧
      snapAt (takeHead s) 0 = some 256 ∧ 255 + 1 ≤ 256 ∧ (routeOf s 7).isSome = true ∧ s.snap.forwardLeft = 0 ∧
      isOwnId s 7 = false ∧ badAddrs (takeHead s) = [] ∧
      snapServed (takeHead s) (restoreTouches (takeHead s) (.forward 0 255 1 7 0)) = true) ∧
    (let s := { snapS 0xFFFF (fun x => { x with takeEpoch := 1 }) with fabric := { upS.fabric with mgr := true } }
     s.fabric.mgr = true ∧ s.snap.complete.toNat < (1 : BitVec 32).toNat ∧ s.snap.takeEpoch = 1 ∧
      ∀ i ∈ domainIds s, i = (3 : BitVec 14).toNat ∨ ∃ r ∈ s.snap.reports, r.toNat = i) ∧
    (upS.fabric.mgr = false ∧ upS.snap.complete.toNat < (1 : BitVec 32).toNat ∧ mgtRuns upS = true) := by
  unfold takes
  decide

theorem witness_SnapshotsAndRestores_restore :
    takes hdr validS ∧ noEngines validS = false ∧ validS.snap.plan = some (plan0 0xFFFF) ∧ restoreSlot validS 0 false = some 0x40000 ∧
      jobsWhere (takeHead validS) jobActive = [] ∧
      snapValid (takeHead validS) (planSlot (plan0 0xFFFF) (decide ((0 : Fin 2).val = 1))) = true ∧ badAddrs (takeHead validS) = [] ∧
      snapServed (takeHead validS) (restoreTouches (takeHead validS) (.bringBack 0)) = true ∧
      snapServed (takeHead validS) (restoreTouches (takeHead validS) (.verify 0 false)) = true := by
  unfold takes
  decide +kernel

def wiper : OpenCmd := { opcode := 0x21, tag := 7, irq := true, awaits := .wipe }

theorem witness_WipeClockWheelAndQueryPackets :
    (takes hdr upS ∧ (575 : BitVec 32).toNat + (1 : BitVec 16).toNat ≤ 576 ∧
      jobsWhere (takeHead upS) (fun b => jobLive b && windowIn (takeHead upS) (575 * gib) (1 * gib) b) = []) ∧
    (∀ l ∈ bitList 64 (0x8000000000000020 : Word).toNat, ∃ c, physicalOf upS l = some c ∧ jobOf upS c = none) ∧
    (let s := { upS with power := { upS.power with wipes := [.dram 575 1] }, rings := { upS.rings with waiting := [wiper] } }
     s.power.wipes = .dram 575 1 :: [] ∧ s.rings.waiting = wiper :: [] ∧ wiper.awaits = .wipe) ∧
    ((7 : Byte).toNat ≤ 7 ∧ upS.power.clk = none ∧ upS.power.recover = false ∧ upS.power.lost = false ∧ upS.power.trip = false ∧
      (∀ r : RegionId, (0x1FFFF : BitVec 17).getLsbD r.val = true → (regionAt upS r).freqIdx.toNat = (0 : Byte).toNat) ∧
      (∀ r, (regionAt upS r).switching = false) ∧ neededMv upS (entryOf upS) = upS.power.avsReq.toNat) ∧
    ((0x3FFFFF8 : Word).toNat % 8 = 0 ∧ (0x3FFFFF8 : Word).toNat < 0x4000000) := by
  unfold takes
  decide

/-- The reset wheel of R230 stands at 0xC000, as an array of entries. -/
def wheelS : State := withBytes 0xC000 resetWheel.toList upS

theorem witness_WheelPacket :
    let u := takeHead wheelS
    let w : Vector Byte 128 := Vector.ofFn (fun e => dramByte u (0xC000 + e.val))
    takes hdr wheelS ∧ isDram u 0xC000 128 = true ∧ wheelShape u w = true ∧
      (∀ k, (0x81 : Byte).getLsbD k.val = true → wheelChanges u k w = false) ∧ wheelSnapBad u w = false := by
  unfold takes
  decide +kernel

/-! ### Witnesses: the host -/

def ringS (f : Rings → Rings) : State := { upS with rings := f upS.rings }
def reply0 : Reply := replyOf 0x30 hdr .ok 0
def alert0 : Alert := { status := .linkDown, detail := 4, merged := 0 }

theorem witness_HostRings :
    (let s := ringS (fun r => { r with enable := false })
     served bar s ∧ s.power.ready = true ∧ s.rings.enable = false ∧
      bitOf (merged bar (crCtlValue s.rings) 0x41) 0 = true ∧ fieldOf (merged bar (crCtlValue s.rings) 0x41) 4 4 = 4 ∧
      bitOf (merged bar (crCtlValue s.rings) 0xC1) 0 = true ∧ fieldOf (merged bar (crCtlValue s.rings) 0xC1) 4 4 = 12) ∧
    (let s := { ringS (fun r => { r with enable := false }) with power := { upS.power with ready := false } }
     served bar s ∧ s.power.ready = false) ∧
    (served bar upS ∧ upS.rings.enable = true ∧ bitOf (merged bar (crCtlValue upS.rings) 0xC0) 0 = false) ∧
    (let t (v : Word) := BitVec.ofNat 16 (merged bar upS.rings.tail.toNat v)
     (t 0x1000 - upS.rings.head).toNat ≤ 2 ^ upS.rings.size.toNat ∧ 2 ^ upS.rings.size.toNat < (t 0x1001 - upS.rings.head).toNat) ∧
    (let s := ringS (fun r => { r with store := [reply0] })
     mayReply s = true ∧ s.rings.store = reply0 :: [] ∧ s.rings.store ≠ []) ∧
    (let s := ringS (fun r => { r with alerts := [alert0] })
     mayReply s = true ∧ s.rings.store = [] ∧ s.rings.alerts = alert0 :: []) ∧
    (let s := jobS .done (fun b => { b with evt := true })
     mayReply s = true ∧ s.rings.store = [] ∧ s.rings.alerts = [] ∧ jobsWhere s (fun b => b.evt) = 0 :: [] ∧ cellWf freeJob s.jobs = true ∧
      (jobAt s 0).evt = true) ∧
    (let s := ringS (fun r => { r with rrTail := 0x1000, alerts := [alert0] })
     2 ^ s.rings.size.toNat ≤ (s.rings.rrTail - s.rings.rrHead).toNat ∧ s.rings.alerts ≠ []) ∧
    ({ upS with host := { upS.host with linkUp := false } } : State).host.linkUp = false := by
  unfold served
  decide

/-- Window 0 covers a page of DRAM, window 1 the local store of logical core 5, both for reads and writes. -/
def winS : State :=
  let w0 : HostWin := { base := 0x20, en := true, wr := true, size := 12 }
  let w1 : HostWin := { base := 0xC00005000, en := true, wr := true, size := 23 }
  { upS with host := { upS.host with wins := (upS.host.wins.set 0 w0).set 1 w1 } }

def acc0 (slot : Fin 16) (write : Bool) : HostAcc :=
  { slot := slot, off := 4092, len := 4, write := write, data := if write then [1, 2, 3, 4] else [], keyed := false, ecc := false }

/-- The access meets what a served access needs; its first address is `a`. -/
def mappedAt (s : State) (x : HostAcc) (a : Nat) : Bool :=
  let w := s.host.wins.get x.slot
  hostReaches s && (x.keyed || !s.ident.ideOnly) && w.en && decide (x.off + x.len ≤ 2 ^ w.size.toNat) && (!x.write || w.wr) &&
    (hostRefusal s x a).isNone && decide (w.base.toNat * 4096 + x.off = a)

theorem witness_HostAccesses :
    (served bar upS ∧ winFits upS (merged bar (hwinReg (upS.host.wins.get 15)) 0x0033000000020000) = true ∧
      winFits upS (merged bar (hwinReg (upS.host.wins.get 15)) 0x002D000000020000) = false) ∧
    (mappedAt winS (acc0 0 false) 0x20FFC = true ∧ localRange winS 0x20FFC 4 = none) ∧
    (mappedAt winS (acc0 1 false) 0xC00005000FFC = true ∧ localRange winS 0xC00005000FFC 4 = some (5, 0xFFC)) ∧
    (mappedAt winS (acc0 0 true) 0x20FFC = true ∧ memWf winS.dram = true ∧ (acc0 0 true).data.length = (acc0 0 true).len) ∧
    (mappedAt winS (acc0 1 true) 0xC00005000FFC = true ∧ regionRuns winS (regionOf 5) = true) ∧
    (hostServed winS winS.host.waiting { acc := acc0 0 false, addr := 0x20FFC } = true ∧ (acc0 0 false).chks = [] ∧ badAddrs winS = [] ∧
      hostServed winS winS.host.waiting { acc := acc0 0 true, addr := 0x20FFC } = true ∧ (acc0 0 true).chks = []) ∧
    (let s := { winS with power := { winS.power with regs := winS.power.regs.set 17 .asleep } }
     mappedAt s (acc0 0 false) 0x20FFC = true ∧ hostServed s s.host.waiting { acc := acc0 0 false, addr := 0x20FFC } = false) ∧
    ({ acc0 0 true with poisoned := true }.poisoned = true ∧ ({ bar with poisoned := true } : BarAcc).poisoned = true ∧
      hostReaches upS = true) ∧
    (0x3FFFFF8 % 8 = 0 ∧ 0x3FFFFF8 < 0x4000000 ∧ 0x10041 % 8 ≠ 0) ∧
    (let s := { upS with ident := { upS.ident with ideOnly := true } }
     hostReaches s = true ∧ bar.keyed = false ∧ s.ident.ideOnly = true) ∧
    (served bar (ringS (fun r => { r with enable := false })) ∧ bar.lanes = .all) ∧
    (hostReaches upS = true ∧ ¬ (upS.power.warm = true ∧ upS.power.cause.toNat = 4)) ∧
    (mgtRuns upS = true ∧ upS.power.supply.getLsbD 3 = false) := by
  unfold served
  decide

/-- Endpoint 31 of C05, between jobs: a receive end in register mode that is closed, or open with one message held. -/
def epS (open_ : Bool) : State :=
  coreS (fun k => modEp k 31 (fun e => { e with
    word := 1, isOpen := open_, occ := if open_ then 1 else 0, held := if open_ then [desc1] else [] }))

theorem witness_RegisterWriteEffects :
    (served bar upS ∧ bitOf (strobes bar 1) 0 = true ∧ deviceQuiet upS = true ∧ deviceQuiet (runS id) = false) ∧
    (wheelShape upS (memAt upS 7).wheelN = true ∧ wheelSnapBad upS (memAt upS 7).wheelN = false ∧
      wheelChanges upS 7 (memAt upS 7).wheelN = false) ∧
    (let s := modMem upS 7 (fun m => { m with wheelN := Vector.replicate 128 0x40 })
     wheelShape s (memAt s 7).wheelN = false) ∧
    (let s := modMem upS 7 (fun m => { m with wheelNext := some resetWheel })
     (memAt s 7).wheelNext = some resetWheel ∧ memRuns s 7 = true) ∧
    (regionRuns upS (regionOf 5) = true ∧ coreBusy (coreAt upS 5) = false ∧ coreHalted upS 5 = false ∧ hasWide upS = true ∧
      bitOf (merged bar (coreRegRead upS 5 (.wabCtl true)) 0x1000) 12 = true ∧
      bitOf (merged bar (coreRegRead upS 5 (.wabCtl true)) 1) 0 ≠ (wideOf (coreAt upS 5) true).mode) ∧
    (let y := epOf (coreAt (epS false) 5) 31
     chRecv y.word = true ∧ openFault (epS false) 5 31 y.word.toNat = none ∧ coreBusy (coreAt (epS false) 5) = false ∧ coreHalted (epS false) 5 = false) ∧
    (let y := epOf (coreAt (epS true) 5) 31
     y.isOpen = true ∧ chRecv y.word = true ∧ chLand y.word = 0 ∧ y.held = desc1 :: [] ∧ coreBusy (coreAt (epS true) 5) = false ∧ coreHalted (epS true) 5 = false) ∧
    ((memAt upS 7).temp.toNat < 100 ∧ upS.power.temp.toNat < 95) ∧
    (let s := modMem { upS with power := { upS.power with temp := 95 } } 7 (fun m => { m with temp := 100 })
     100 ≤ (memAt s 7).temp.toNat ∧ 95 ≤ s.power.temp.toNat) ∧
    (let s := { upS with power := { upS.power with sleepReq := 1, regs := upS.power.regs.set 0 .asleep } }
     s.power.sleepReq.getLsbD (0 : Fin 26).val = true ∧ bitOf (fieldOf (merged bar s.power.sleepReq.toNat 0) 0 26) 0 = false ∧
      powAt s 0 = .asleep) ∧
    (bitOf (merged bar 0 3) 0 = true ∧ bitOf (merged bar 0 3) 1 = true ∧ bitOf (merged bar 0 1) 1 = false ∧
      ¬ ∃ y ∈ upS.fabric.barm.toList, y.mode ≠ 0) := by
  unfold served
  decide +kernel

/-! ### Witnesses: memory, repairs, power -/

def piece0 (write : Bool) : Piece :=
  { client := 0x40, channel := 31, off := 0x1200000000 - 128, len := 128, write := write, data := if write then List.replicate 128 1 else []
    core := 5, queue := 1, xfer := 3, pos := 0 }

/-- Stack 7's queue holds one host piece at its last bytes. -/
def memS (write : Bool) (f : MemRegion → MemRegion) : State := modMem upS 7 (fun m => f { m with queue := [piece0 write] })

/-- `upS` with an idle slot in every wheel, stack 7 as `f` makes it. -/
def idleS (f : MemRegion → MemRegion) : State := modMem (slotS 0x7F upS) 7 f

theorem witness_MemoryEvents :
    (∀ w : Bool, let s := memS w id
      memRuns s 7 = true ∧ s.memcFailed.getLsbD (7 : StackId).val = false ∧ slotClient (memAt s 7) 1 = some 0x40 ∧
        takePiece 0x40 31 (memAt s 7).queue = some (piece0 w, []) ∧ (piece0 w).write = w ∧
        errorKind (effectiveCheck (memAt s 7) (0x1200000000 - 128) w (.corrected 3 5 9)) = none ∧
        errorKind (effectiveCheck (memAt s 7) (0x1200000000 - 128) w .bondFailed) = some 2) ∧
    memWf (memS true id).dram = true ∧
    (let s := { idleS (fun m => { m with rowErrs := [({ ch := 31, die := 3, bank := 5, row := 9 }, 15)] }) with scrub := true }
     ownsSlots s idleOwner 7 = true ∧ s.scrub = true ∧ s.memcFailed.getLsbD (7 : StackId).val = false ∧ 0x11FFFFFFFF < stackBytes ∧
      (memAt s 7).dieState = 0 ∧ 0x11FFFFFF80 ∉ (memAt s 7).badPieces ∧ channelOf 0x11FFFFFF80 = 31 ∧
      rowCount (memAt s 7) { ch := 31, die := 3, bank := 5, row := 9 } = 15 ∧
      rowDeclared s 7 { ch := 31, die := 3, bank := 5, row := 9 } = false ∧ sparesTaken s 7 { ch := 31, die := 3, bank := 5, row := 9 } < 4) ∧
    ownsSlots upS idleOwner 7 = false ∧
    (let s := { idleS (fun m => { m with dieLog := List.replicate 63 (15, 0) }) with scrub := true, mgtPeriods := 999999999 }
     ownsSlots s idleOwner 7 = true ∧ s.scrub = true ∧ (memAt s 7).dieState = 0 ∧ 0 ∉ (memAt s 7).badPieces ∧ (15 : Fin 17).val ≠ 16 ∧
      63 ≤ ((memAt s 7).dieLog.filter (fun y => decide (s.mgtPeriods.toNat < y.2 + periodsPerSecond) && decide (y.1 = 15))).length) ∧
    ((104 : Byte).toNat < 105 ∧ 105 ≤ (105 : Byte).toNat ∧ (memAt upS 7).trip = false) := by
  decide

def spareS (f : Spare → Spare) : State := { upS with spare := f upS.spare }
def dieS (f : MemRegion → MemRegion) : State := modMem upS 7 f

theorem witness_RepairEvents :
    (served bar upS ∧ fieldOf (strobes bar 0x143) 0 8 = (67 : CoreId).val ∧ bitOf (strobes bar 0x143) 8 = true ∧ jobOf upS 67 = none ∧
      upS.spare.testing.contains 67 = false ∧ ∀ f ∈ upS.spare.fills, f.2 ≠ 67) ∧
    (let s := spareS (fun x => { x with testing := [67] })
     regionRuns s (regionOf 67) = true ∧ s.power.refStop = false ∧ jobOf s 67 = none ∧ (∀ f ∈ s.spare.fills, f.2 ≠ 67) ∧ s.spare.testing.contains 67 = true ∧
      s.spare.repairs = [] ∧
      ∀ n : Fin 4, (arrOf (coreAt s 67) n).rowMap = resetLines ∧ (arrOf (coreAt s 67) n).colMap = resetLines) ∧
    (let s := spareS (fun x => { x with repairs := [.array 67 3 { badA := 129, badB := 0xFF } resetLines] })
     s.spare.repairs = [.array 67 3 { badA := 129, badB := 0xFF } resetLines] ∧ jobOf s 67 = none) ∧
    (let s := spareS (fun x => { x with repairs := [.replace 5 17] })
     s.spare.repairs = [.replace 5 17] ∧ filling s 5 = false ∧ jobsWhere s jobActive = []) ∧
    (let s := spareS (fun x => { x with repairs := [.shed 5] })
     s.spare.repairs = [.shed 5] ∧ isBypass s 5 = false ∧ jobsWhere s jobActive = []) ∧
    ((memAt upS 7).dieState = 0 ∧ upS.memcFailed.getLsbD (7 : StackId).val = false ∧ (15 : Fin 17).val ≠ 16) ∧
    (let m := memAt (dieS (fun m => { m with dieState := 3, badDie := 15 })) 7
     m.dieState ≠ 0 ∧ m.badDie.toNat ≠ (16 : Fin 17).val ∧ ¬ (m.dieState = 3 ∧ m.badDie = 0x1F ∧ (16 : Fin 17).val = 16)) ∧
    (let s := idleS (fun m => { m with dieState := 1, rebuilt := 18874367 })
     ownsSlots s idleOwner 7 = true ∧ ((memAt s 7).dieState = 1 ∨ (memAt s 7).dieState = 2) ∧ (memAt s 7).rebuilt.toNat < 18874368 ∧
      s.memcFailed.getLsbD (7 : StackId).val = false) ∧
    (let s := { dieS (fun m => { m with dieState := 2, rebuilt := 18874368 }) with
                  spare := { upS.spare with repairs := [.rebuild 7] } }
     (memAt s 7).dieState = 2 ∧ (memAt s 7).rebuilt.toNat = 18874368 ∧ s.spare.repairs = [.rebuild 7]) ∧
    ((memAt (dieS (fun m => { m with dieState := 2 })) 7).dieState = 2) ∧
    (let r : Repair := .row 7 { ch := 31, die := 16, bank := 3, row := 4095 } false
     let s := { idleS (fun m => { m with sparesUsed := [(rowKey 31 16 3, 3)], dieState := 3 }) with spare := { upS.spare with repairs := [r] } }
     ownsSlots s idleOwner 7 = true ∧ ((memAt s 7).dieState = 0 ∨ (memAt s 7).dieState = 3) ∧ s.spare.repairs = [r]) := by
  unfold served
  refine ⟨?_, ?_, ?_, ?_, ?_, ?_, ?_, ?_, ?_, ?_, ?_⟩ <;> decide

def powS (f : Power → Power) : State := { upS with power := f upS.power }

theorem witness_ThermalSupplyAndReference :
    (upS.power.aon = true ∧ upS.power.resetLow = false ∧ (99 : Byte).toNat < warnLevel upS ∧ (99 : Byte).toNat < 105) ∧
    (105 ≤ (114 : Byte).toNat ∧ (114 : Byte).toNat < 115 ∧ upS.power.trip = false) ∧
    (let s := powS (fun p => { p with trip := true })
     115 ≤ (115 : Byte).toNat ∧ s.power.trip = true ∧ s.power.hard = false) ∧
    (let s := powS (fun p => { p with avsBusy := true, avsLower := true })
     s.power.avsBusy = true ∧ s.power.avsLower = true ∧ s.power.avsReq.toNat ≤ (0x2D5 : BitVec 12).toNat + 5 ∧
      (0x2D5 : BitVec 12).toNat ≤ s.power.avsReq.toNat + 5 ∧ s.power.clk = none) ∧
    (upS.power.lost = false ∧ upS.power.ready = true ∧ cellWf freeJob (runS id).jobs = true ∧ upS.power.refStop = false) ∧
    (let s := powS (fun p => { p with lost := true })
     served bar s ∧ s.power.lost = true ∧ s.power.refOk = true ∧ s.power.recover = false ∧ s.power.clk = none ∧
      neededMv s (entryOf s) = s.power.avsReq.toNat) ∧
    (let s := powS (fun p => { p with lost := true, refOk := false })
     served bar s ∧ (s.power.lost = false ∨ s.power.refOk = false)) ∧
    (let x (v : Word) := merged bar (packFields [(0, upS.power.clkMask.toNat), (17, upS.power.clkIdx.toNat)]) v
     served bar upS ∧ bitOf (strobes bar 0x1FFFF) 21 = false ∧ bitOf (strobes bar 0x20FFFF) 21 = true ∧ fieldOf (x 0x2FFFFF) 17 4 = 7 ∧
      fieldOf (x 0x20FFFF) 17 4 ≤ 7 ∧ upS.power.clk = none ∧
      (∀ r : RegionId, bitOf (x 0x20FFFF) r.val = true → (regionAt upS r).freqIdx.toNat = fieldOf (x 0x20FFFF) 17 4) ∧
      (∀ r, (regionAt upS r).switching = false) ∧ neededMv upS (entryOf upS) = upS.power.avsReq.toNat) ∧
    (let s := powS (fun p => { p with clk := some (request 2) })
     served bar s ∧ s.power.clk.isSome = true ∧ s.power.lost = false ∧ s.power.trip = false ∧ upS.power.recover = false) := by
  unfold served
  decide

theorem witness_ThermalSupplyAndReference_levels :
    inWindow upS .core (upS.power.avsReq + 40) = true ∧ inWindow upS .core (upS.power.avsReq + 41) = false ∧
      inWindow upS .sram 728 = true ∧ inWindow upS .sram 727 = false ∧ inWindow upS .dram 1133 = true ∧ inWindow upS .dram 1134 = false ∧
      inWindow upS .iod0 776 = true ∧ inWindow upS .iod0 775 = false ∧ inWindow upS .vdda0 1224 = true ∧ inWindow upS .vdda0 1225 = false := by
  decide

theorem witness_ThermalSupplyAndReference_entries :
    (let s := powS (fun p => { p with lost := true, entryBefore := Vector.replicate 17 7 })
     regionRuns s 16 = true ∧ s.power.entryBefore.get 16 ≠ (regionAt s 16).freqIdx) ∧
    (let s := powS (fun p => { p with lost := true, entryBefore := Vector.ofFn (fun r => (regionAt upS r).freqIdx) })
     ∀ r, (regionAt s r).freqIdx = s.power.entryBefore.get r) := by
  decide

theorem witness_RegionPower :
    (let s := powS (fun p => { p with sleepReq := 0x10000 })
     (16 : Fin 26).val = (16 : RegionId).val ∧ s.power.sleepReq.getLsbD (16 : Fin 26).val = true ∧ powAt s (powCg 16) = .running ∧
      takenNeeds s (powCg 16) = false ∧ maySleep s 16 true = true) ∧
    (let s := powS (fun p => { p with queue := [.wake 17] })
     s.power.aon = true ∧ s.power.resetLow = false ∧ s.power.refStop = false ∧ s.power.ready = true ∧ s.power.step = 0 ∧
      wakesAllowed s = true ∧ s.power.queue = [.wake 17] ∧ 17 ≤ (17 : Fin 28).val) ∧
    (let s := powS (fun p => { p with regs := p.regs.set 17 .waking })
     powAt s 17 = .waking ∧ s.power.ready = true ∧ s.power.refStop = false ∧ nothingWaits s) := by
  unfold nothingWaits
  decide

/-! ### Witnesses: resets, identity, the board -/

theorem witness_Resets :
    (let s := powS (fun p => { p with resetLow := true })
     s.power.resetLow = true) ∧ upS.power.resetLow = false ∧
    (served bar upS ∧ fieldOf (strobes bar 0x1B007) 0 16 = 0xB007 ∧ bitOf (strobes bar 0x1B007) 16 = true ∧
      fieldOf (strobes bar 0x2B007) 0 16 = 0xB007 ∧ bitOf (strobes bar 0x2B007) 16 = false ∧ bitOf (strobes bar 0x2B007) 17 = true ∧
      upS.power.ready = true ∧ fieldOf (strobes bar 0x3B006) 0 16 ≠ 0xB007) ∧
    (let s := powS (fun p => { p with ready := false, wiped := true, warm := true })
     resetMayEnd s = true ∧ s.power.warm = true) ∧
    (let s := { powS (fun p => { p with ready := false, wiped := true, woken := 0x201FFFF }) with ident := { upS.ident with bootState := 2 } }
     resetMayEnd s = true ∧ s.power.warm = false ∧ s.spare.repairs = [] ∧ (portAt s 9).en = true ∧ portRuns s 9 = true) := by
  unfold served
  decide

/-- `upS` with the identity block as `f` makes it; its life-cycle state is BLANK. -/
def identS (f : Ident → Ident) : State := { upS with ident := f upS.ident }

theorem witness_TrustLifeCycleAndDigests :
    (identS (fun d => { d with bootState := 1 })).ident.bootState = 1 ∧ upS.ident.bootState ≠ 1 ∧
    (served bar upS ∧ bitOf (strobes bar 9) 3 = true ∧ upS.ident.lcBusy = false ∧ upS.power.ready = true) ∧
    (let s := powS (fun p => { p with ready := false })
     served bar s ∧ s.ident.lcBusy = false ∧ s.power.ready = false) ∧
    lcListed upS.ident (BitVec.ofNat 3 (strobes bar 0xA)) = false ∧
    (let s := identS (fun d => { d with lcState := 1, serial := 1 })
     served bar s ∧ s.ident.lcBusy = false ∧ lcListed s.ident (BitVec.ofNat 3 (strobes bar 0xA)) = true ∧
      lcToken s.ident (BitVec.ofNat 3 (strobes bar 0xA)) = false) ∧
    (let s := identS (fun d => { d with serial := 1 })
     served bar s ∧ s.ident.lcBusy = false ∧ lcListed s.ident (BitVec.ofNat 3 (strobes bar 9)) = true ∧
      lcToken s.ident (BitVec.ofNat 3 (strobes bar 9)) = true ∧ tokenNames s.ident (BitVec.ofNat 3 (strobes bar 9)) = false) ∧
    (let v : Word := 0x100000001
     let s1 := { written upS with digest := { upS.digest with items := BitVec.ofNat 9 (merged bar upS.digest.items.toNat v) } }
     bitOf (strobes bar v) 32 = true ∧ digestRefusal s1 (digestNamed s1) = none) ∧
    (let v : Word := 0x100000001
     let s := { upS with digest := { upS.digest with cores := 0x8000000000000000, active := some { items := 0, cores := 0, ranges := [] } } }
     let s1 := { written s with digest := { s.digest with items := BitVec.ofNat 9 (merged bar s.digest.items.toNat v) } }
     served bar s ∧ digestRefusal s1 (digestNamed s1) = some .resourceConflict ∧
      s.digest.active = some { items := 0, cores := 0, ranges := [] } ∧
      ∀ c, c ∈ (bitList 64 (0x20 : Word).toNat).filterMap (physicalOf s) → ∀ q, (qOf (coreAt s c) q).xfers = []) := by
  unfold served
  decide

def spdmS (f : Spdm → Spdm) : State := { identS (fun d => { d with idKey := true }) with spdm := f upS.spdm }

theorem witness_SpdmSessions :
    (hostReaches upS = true ∧ upS.spdm.versioned = false ∧ upS.spdm.established = false ∧ upS.ident.idKey = false) ∧
    (let s := spdmS (fun z => { z with versioned := true, capable := true, negotiated := true })
     hostReaches s = true ∧ s.spdm.versioned = true ∧ s.spdm.capable = true ∧ s.spdm.negotiated = true ∧ s.ident.idKey = true ∧
      s.spdm.session = none ∧ (measBlocks s 0 0).isSome = true ∧ (measBlocks s 4 0).isSome = true) ∧
    ({ upS with spdm := { upS.spdm with negotiated := true } } : State).spdm.negotiated = true ∧
    (let s := spdmS (fun z => { z with negotiated := true, session := some 1 })
     hostReaches s = true ∧ s.spdm.negotiated = true ∧ s.spdm.session ≠ none ∧ s.spdm.established = false ∧ s.ident.idKey = true) ∧
    (let s := spdmS (fun z => { z with session := some 1, established := true })
     hostReaches s = true ∧ s.spdm.established = true) := by
  decide

def wtnS : State := { upS with wtn := { upS.wtn with valid := true } }

theorem witness_BoardInterfaces :
    (upS.power.aon = true ∧ upS.power.resetLow = false ∧ upS.power.auxBar = false) ∧
    (let s := { powS (fun p => { p with auxBar := true, auxBarrier := 7 }) with fabric := { upS.fabric with
       kids := [4], barm := upS.fabric.barm.set 7 { mode := 1, job := 0, state := 1, late := false, kids := [], selfIn := false, release := none } } }
     s.power.auxBar = true ∧ s.power.auxBarrier = BitVec.ofNat 3 (7 : Fin 8).val ∧ barCondition s 7 = true ∧ mgtRuns s = true ∧
      ∃ p ∈ s.fabric.kids, p ∉ (barAt s 7).kids) ∧
    (let bs : List Byte := 0x02 :: leBytes 4 0x100008 ++ leBytes 8 1
     wtnS.wtn.valid = true ∧ bs.length = 13 ∧ bs.head? = some 0x02 ∧ chainWritable (leNat ((bs.drop 1).take 4)) = true) ∧
    (let bs : List Byte := 0x01 :: leBytes 4 0x100000
     bs.length = 5 ∧ bs.head? = some 0x01 ∧ chainReadable (leNat (bs.drop 1)) = true) ∧
    (upS.wtn.valid = false ∧ mgtRuns upS = true) ∧ (powS (fun p => { p with resetLow := true })).power.resetLow = true := by
  decide

/-! ### Witnesses: ports, links, the fabric -/

/-- Port B0 of `upS` up on lanes 0 to 7, as `f` makes it. -/
def portS (f : Port → Port) : State := modPort upS 0 (fun q => f { q with state := pUp, lanes := 0x0FF })

def counts (a b : Nat) : Vector Nat 9 := ((Vector.replicate 9 0).set 0 a).set 7 b

/-- A data flit with number 0 and its CRC-32. -/
def goodFlit : List Byte := [1] ++ List.replicate 251 0 ++ leBytes 4 0xA59AA192

theorem witness_PortEvents :
    (let q := portAt upS 0
     portRuns upS 0 = true ∧ q.en = true ∧ (let t := portAt (modPort upS 0 (fun q => { q with state := pTraining })) 0
       t.state = pTraining ∧ t.queue = []) ∧ q.state ≠ pUp ∧ served bar upS ∧
      (bestLanes (Vector.replicate 9 0) 0x07F).length < 8 ∧ (bestLanes (Vector.replicate 9 0) 0x1FF).length = 8) ∧
    (let s := portS id
     let q := portAt s 0
     portUp s 0 = true ∧ s.power.lost = false ∧ q.en = true ∧ served bar s ∧ spareHealthy q = true ∧ q.asked = none ∧ q.agreed = none ∧ q.queue = [] ∧
      q.replay = [] ∧
      (∀ m, q.lanes.getLsbD m.val = true → (counts 64000 64000).get m ≤ q.laneThr.toNat * 1000) ∧
      (∀ m : Fin 9, (q.lanes.getLsbD m.val = true ∧ q.laneThr.toNat * 1000 < (counts 0 64001).get m) ↔ m = 7) ∧
      ((0 : Fin 9) ≠ 7 ∧ q.lanes.getLsbD (0 : Fin 9).val = true ∧ q.lanes.getLsbD (7 : Fin 9).val = true ∧
        q.laneThr.toNat * 1000 < (counts 64001 64001).get 0 ∧ q.laneThr.toNat * 1000 < (counts 64001 64001).get 7) ∧
      q.credits.get 3 = 0 ∧ q.credits.get 1 = 0 ∧ (3 : Fin 4) ≠ 1 ∧ markFresh s q = false) := by
  unfold served
  decide

theorem witness_PortEvents_lanes :
    (let s := portS (fun q => { q with asked := some (7, 0x1FFFF) })
     portUp s 0 = true ∧ (portAt s 0).asked = some (7, 0x1FFFF)) ∧
    (let s := portS (fun q => { q with agreed := some (7, 0x1FFFF) })
     portUp s 0 = true ∧ (portAt s 0).agreed = some (7, 0x1FFFF) ∧ spareLane (portAt s 0) = some 8 ∧ (portAt s 0).spareLost = false) ∧
    (let s := portS (fun q => { q with agreed := some (7, 0x1FFFF), spareLost := true })
     portUp s 0 = true ∧ (portAt s 0).agreed = some (7, 0x1FFFF) ∧ spareLane (portAt s 0) = some 8 ∧ (portAt s 0).spareLost = true) ∧
    (let s := portS (fun q => { q with nakGot := true, replays := 6 })
     portUp s 0 = true ∧ (portAt s 0).nakGot = true ∧ (portAt s 0).replays < 7) ∧
    (let s := portS (fun q => { q with nakGot := true, replays := 7 })
     portUp s 0 = true ∧ (portAt s 0).nakGot = true ∧ 7 ≤ (portAt s 0).replays) ∧
    (let m : OutPkt := { pkt := { pk := 5, dst := 0, src := 0, core := 0, cmd := 0, addr := 0, status := 0, data := [] }
                         cls := 3, owner := none, left := 16, final := false, came := none }
     let s := portS (fun q => { q with queue := [m] })
     portUp s 0 = true ∧ ∃ y ∈ (portAt s 0).queue, y.cls = 3) ∧
    (let s := { portS id with fabric := { upS.fabric with idValid := true, parent := 0 } }
     s.fabric.mgr = false ∧ s.fabric.idValid = true ∧ s.fabric.parent.toNat = (0 : PortId).val ∧ portUp s 0 = true) := by
  decide

/-- Signal lost on a port's lane, of those that `PortEvents` sees: its active lanes and an idle spare. -/
abbrev seenLane (q : Port) (lanes : BitVec 9) (m : Fin 9) : Prop :=
  lanes.getLsbD m.val = true ∧ (q.lanes.getLsbD m.val = true ∨ (spareLane q = some m ∧ q.spareUsed = false))

theorem witness_PortEvents_signal :
    (∀ m, seenLane (portAt (portS id) 0) 0x080 m ↔ m = 7) ∧ (∀ m, seenLane (portAt (portS id) 0) 0x100 m ↔ m = 8) ∧
      (portAt (portS id) 0).lanes.getLsbD (8 : Fin 9).val = false ∧ seenLane (portAt (portS id) 0) 0x180 7 ∧
      seenLane (portAt (portS id) 0) 0x180 8 := by
  decide

/-- A ninth lane that has failed is no spare: loss of signal on it says nothing. -/
theorem test_spare_of_failed_lane : spareHealthy { portAt (portS id) 0 with spareUsed := true } = false := by decide

/-- A flit has room for 248 bytes: after the last 240 of one packet it carries the first 8 of the next of its class (R293). -/
theorem test_packets_end_to_end :
    let m : OutPkt := { pkt := { pk := 5, dst := 0, src := 0, core := 0, cmd := 0, addr := 0, status := 0, data := [] }
                        cls := 3, owner := none, left := 16, final := false, came := none }
    let y := fillFlit 3 (fun _ => true) (fun _ => false) flitRoom [] [{ m with left := 240 }, { m with cls := 0 }, m]
    y.queue = [{ m with cls := 0 }, { m with left := 8 }] := by
  decide

theorem witness_PortEvents_flit :
    flitBad goodFlit true = true ∧ flitBad goodFlit false = false ∧
      (let h := leNat (goodFlit.take 4)
       fieldOf h 0 2 = 1 ∧ fieldOf h 27 3 < 4 ∧ BitVec.ofNat 12 (fieldOf h 2 12) = (portAt (portS id) 0).rxNum + 1) := by
  decide +kernel

def pkt0 (src : BitVec 14) : LinkPkt :=
  { pk := 1, dst := 3, src := src, core := 5, cmd := 0, addr := 0x20FFF, status := 0, data := [7] }

/-- `upS` as device 3 with port B0 up, a route to device 7 through the port B4, which is down, and a receive window of one page;
C05 and C06 run job 0. -/
def fabS (f : Core → Core) (g : Fabric → Fabric) : State :=
  let s := modPort (modCore (runS f) 6 (fun k => { k with
    seq := { k.seq with run := .running, job := some 0 }, combs := k.combs.set 7 { k.combs.get 7 with mode := true } })) 0
    (fun q => { q with state := pUp })
  { s with fabric := g { s.fabric with
    idValid := true, id := 3, routes := [(7, some 4)], lrx := s.fabric.lrx.set 7 { base := 0x20, en := true, size := 12 } } }

/-- A link command of C05: a write to device `dest` of `bytes` bytes, or a flag (spec/14, Table 1). -/
def cmd0 (word0 : Word) (taken sent : Bool) : LinkCmd :=
  { words := { word0 := word0, word1 := 0, word2 := 0, word3 := 0 }, seqNo := 4, index := 9, taken := taken, sent := sent, acked := false }

def entry1 : LinkEntry :=
  { k := 7, rcore := 6, words := desc1, src := 7, core := 1, cmd := 2, port := 0 }

/-- `fabS` whose stacks give IO0's link engine a slot. -/
def linkS (f : Core → Core) (g : Fabric → Fabric) : State := slotS 0x44 (fabS f g)

def contrib0 : ContribInfo :=
  { rcore := 6, rk := 7, wide := false, row0 := 0, nrowsM1 := 0, anchor := 0, nan := false, final := true }

theorem witness_LinkPackets :
    (let s := fabS id id
     portUp s 0 = true ∧ isOwnId s 9 = false ∧ routeOf s 9 = none ∧ isOwnId s 7 = false ∧ routeOf s 7 = some 4 ∧ portUp s 4 = false) ∧
    (let l := cmd0 0xFFFFFFFFFFFFFFFF false false
     let s := fabS (fun k => { k with links := [l] }) id
     let k := coreAt s 5
     nextLink s 5 = some l ∧ s.power.lost = false ∧ outstanding k < 64 ∧
      coreFencing k = false ∧ (lcFault s 5 l.words).isSome = true) ∧
    (let l := cmd0 (3 + 7 * 2 ^ 5) false false
     let s := fabS (fun k => { k with links := [l] }) id
     let k := coreAt s 5
     nextLink s 5 = some l ∧ s.power.lost = false ∧ outstanding k < 64 ∧
      coreFencing k = false ∧ lcFault s 5 l.words = none ∧ badAddrs s = [] ∧ lcReads l.words = false) ∧
    (let l := { cmd0 (1 + 7 * 2 ^ 5) false false with words := { (cmd0 (1 + 7 * 2 ^ 5) false false).words with word3 := 4 } }
     let s := linkS (fun k => { k with links := [l] }) id
     nextLink s 5 = some l ∧ s.power.lost = false ∧ outstanding (coreAt s 5) < 64 ∧ coreFencing (coreAt s 5) = false ∧
      lcReads l.words = true ∧ badAddrs s = [] ∧
      rangeServed s (linkOwner (linkVia l.words)) (fieldOf l.words.word1.toNat 0 48) (lcBytes l.words) = true ∧
      rangeServed (fabS id id) (linkOwner (linkVia l.words)) (fieldOf l.words.word1.toNat 0 48) (lcBytes l.words) = false) ∧
    (let s := fabS id id
     arrives s 0 (pkt0 7) = true ∧ inServed s (portVia 0) (.write 0 (pkt0 7) false) = false) ∧
    (let s := fabS id id
     s.fabric.refused = [] ∧ s.fabric.landBad = [] ∧ s.fabric.store = [] ∧ s.fabric.arrived = [] ∧ s.fabric.flags = [] ∧ rcoreOf s 6 = some 6 ∧
      (coreAt s 6).seq.job.isSome = true ∧ (combOf (coreAt s 6) 7).mode = true ∧ (combOf (coreAt s 6) 7).entries.length < 16 ∧
      (coreAt s 6).linkBuf.length < 16) := by
  decide

theorem witness_LinkPackets_queues :
    (let s := fabS (fun k => { k with linkBuf := [entry1] }) id
     nextEntry s 5 = some entry1 ∧ entryTarget s entry1 = some 6 ∧ s.fabric.store = [] ∧ s.fabric.arrived = [] ∧ s.fabric.flags = [] ∧
      (coreAt s 5).linkBuf = [entry1] ∧ beyondBuf s = []) ∧
    (let s := fabS id id
     entriesAhead s 7 5 0 = [] ∧ inboundIo s (portVia 0) = [] ∧ rcoreOf s 5 = some 5 ∧ (coreAt s 5).seq.job = some 0 ∧ canFence (jobAt s 0) = true) ∧
    (let l := { cmd0 (3 + 7 * 2 ^ 5) true true with index := 0 }
     let s := fabS (fun k => { k with links := [l] }) id
     let x : LinkPkt := { pkt0 7 with addr := 0 }
     isOwnId s x.dst = true ∧ x.cmd.getLsbD 18 = false ∧ rcoreOf s x.core = some 5 ∧
      (coreAt s 5).lateAcks.contains (x.src, x.cmd.toNat) = false ∧
      (coreAt (fabS (fun k => { k with lateAcks := [(7, 0)] }) id) 5).lateAcks.contains (x.src, x.cmd.toNat) = true ∧
      (coreAt s 5).links.find? (fun m => m.taken && !m.acked && decide (m.index = x.cmd.toNat)) = some l ∧
      (coreAt s 5).seq.job = some 0 ∧ canFence (jobAt s 0) = true ∧ x.addr.getLsbD 0 = false ∧ x.status = 0 ∧
      ({ x with status := 0x80 } : LinkPkt).status ≠ 0 ∧
      (coreAt s 5).links.find? (fun m => decide (m.index = 0) && m.sent && !m.acked) = some l) := by
  decide

theorem witness_LinkPackets_landing :
    (let s := linkS id id
     let far : LinkPkt := { pkt0 7 with addr := 0x21000 }
     let big : LinkPkt := { pkt0 7 with data := [7, 8] }
     arrives s 0 (pkt0 7) = true ∧ inboundIo s (portVia 0) = [] ∧ inServed s (portVia 0) (.write 0 (pkt0 7) false) = true ∧
      inServed s (portVia 0) (.write 0 far true) = true ∧ badAddrs s = [] ∧ memWf s.dram = true ∧
      landAllowed s (landingOf s (pkt0 7) none) (pkt0 7) = true ∧ landAllowed s (landingOf s far none) far = false ∧
      landAllowed s (landingOf s big none) big = false) ∧
    (let s := linkS id id
     let x : LinkPkt := { pkt0 7 with addr := 0x20000 }
     landAllowed s (landingOf s x (some 512)) x = true ∧ landAllowed s (landingOf s (pkt0 7) (some 512)) (pkt0 7) = false ∧
      inServed s (portVia 0) (.contribution 0 x contrib0) = true) := by
  decide

def enum0 : EnumPkt :=
  { manager := 0, fromOther := false, assign := none, kids := none, routes := [], found := none, done := true }

def fabricS (f : Fabric → Fabric) : State := { upS with fabric := f upS.fabric }

/-- Group 15 spans the fabric. -/
def wideGroupS (f : Group → Group) (g : Fabric → Fabric) : State :=
  { groupS (fun x => f { x with state := .preparing, prepared := [0] }) with fabric := g { upS.fabric with grp := 0x8000 } }

/-- Two devices behind the manager, in a row: each takes the lowest free identifier, and the route to the far one leads through the near
one's port (R301, R297). -/
theorem test_enumeration_of_a_chain :
    let cs : List FabLink := [{ a := 0, pa := 3, b := 1, pb := 2 }, { a := 1, pa := 5, b := 2, pb := 0 }]
    (fabTree cs []).nodes.map (fun n => (n.dev, n.id, n.depth)) = [(0, 0, 0), (1, 1, 1), (2, 2, 2)] ∧
      kidPorts (fabTree cs []).nodes 0 = [3] ∧ routeTable cs (fabTree cs []).nodes 0 = [(1, some 3), (2, some 3)] := by
  decide

theorem witness_FabricProtocols :
    (let s := fabricS (fun f => { f with mgr := true })
     s.fabric.mgr = true ∧ s.fabric.enumSt ≠ 3 ∧ mgtRuns s = true ∧ s.power.ready = true ∧ portsSettled s = false ∧ ({ enum0 with fromOther := true } : EnumPkt).fromOther = true) ∧
    (let s := { fabricS (fun f => { f with mgr := true }) with ports := Vector.replicate 10 { resetPort with settled := true } }
     portsSettled s = true ∧ s.fabric.enumSt = 0) ∧
    (let s := fabricS (fun f => { f with mgr := true, enumSt := 1 })
     s.fabric.mgr = true ∧ s.fabric.enumSt = 1 ∧ mgtRuns s = true ∧ enum0.fromOther = false) ∧
    (upS.fabric.mgr = false ∧ upS.fabric.enumSt ≠ 3 ∧
      ({ enum0 with assign := some (1, 1, 0) } : EnumPkt).assign = some (1, 1, 0) ∧ enum0.routes = [] ∧
      enum0.kids = none ∧ enum0.fromOther = false ∧ enum0.assign = none) ∧
    (let arm : Barrier := { mode := 1, job := 0, state := 0, late := false, kids := [], selfIn := false, release := none }
     let s := fabricS (fun f => { f with kids := [4], barm := f.barm.set 7 arm })
     barCondition s 7 = true ∧ auxGates s 7 = false ∧ mgtRuns s = true ∧ (∃ q ∈ s.fabric.kids, q ∉ (barAt s 7).kids)) ∧
    (let arm : Barrier := { mode := 2, job := 0, state := 0, late := false, kids := [], selfIn := false, release := none }
     let s := { jobS .ready id with fabric := { upS.fabric with mgr := true, barm := upS.fabric.barm.set 7 arm } }
     barCondition s 7 = true ∧ auxGates s 7 = false ∧ mgtRuns s = true ∧ (∀ q ∈ s.fabric.kids, q ∈ (barAt s 7).kids) ∧
      (barAt s 7).state ≠ 1 ∧ s.fabric.mgr = true ∧ s.fabric.tsync = false) := by
  decide

theorem witness_FabricProtocols_release :
    (let s := modPort (fabricS (fun f => { f with kids := [0] })) 0 (fun q => { q with state := pUp })
     (0 : PortId) ∈ s.fabric.kids ∧ portUp s 0 = true ∧ (barAt s 7).selfIn = false ∧ (0 : PortId) ∉ (barAt s 7).kids) ∧
    (let s := modBar upS 7 (fun y => { y with state := 1 })
     (barAt s 7).state = 1) ∧
    (let s := modBar upS 7 (fun y => { y with release := some 5 })
     (barAt s 7).release = some 5 ∧ (s.fabric.tsync = false ∨ (5 : Word).toNat ≤ s.fabric.time.toNat)) ∧
    (let s := modBar (fabricS (fun f => { f with tsync := true, time := 4 })) 7 (fun y => { y with release := some 5 })
     (barAt s 7).release = some 5 ∧ s.fabric.tsync = true ∧ s.fabric.time.toNat < (5 : Word).toNat) ∧
    (let s := wideGroupS id id
     let z := groupAt s 15
     z.state = .preparing ∧ fabricWide s 15 = true ∧ groupFenced s z = none ∧ z.reported = false ∧ allPrepared z = true ∧
      (∀ q ∈ s.fabric.kids, q ∈ z.kids) ∧ s.fabric.mgr = false) ∧
    ((wideGroupS (fun x => { x with state := .isOpen }) id).groups.get 15).state = .isOpen ∧
    (let s := wideGroupS (fun x => { x with reported := true }) id
     (groupAt s 15).state = .preparing ∧ fabricWide s 15 = true ∧ (groupAt s 15).reported = true ∧ s.fabric.mgr = false) ∧
    (powS (fun p => { p with lost := true })).power.lost = true ∧
    (let s := fabricS (fun f => { f with idValid := true, id := 3, routes := [(0, some 4)] })
     s.power.lost = false ∧ s.fabric.idValid = true ∧ mgtRuns s = true ∧ s.fabric.mgr = false ∧ s.fabric.id ≠ 0 ∧
      routeOf s 0 = some 4 ∧ portUp s 4 = false) ∧
    (let s := fabricS (fun f => { f with idValid := true, mgr := true })
     mgtRuns s = true ∧ s.fabric.idValid = true ∧ s.fabric.mgr = true ∧ (0x3FFF : BitVec 14) ≠ 0 ∧
      s.fabric.lostPeers.contains (0x3FFF : BitVec 14).toNat = false) := by
  decide

/-- The state after reset meets what MemoriesStayCanonical asks of a state; an idle step from it answers a next state. -/
theorem witness_MemoriesStayCanonical :
    State.reset.memoriesWf = true ∧ (match step State.reset with | .next _ => True | _ => False) := by
  constructor
  · decide
  · exact True.intro

theorem witness_CommandsWaitInOrder :
    (nextOf (step { State.reset with pending := [.wswap 5 15, .getVersion] })).map (fun t => t.pending) = some [.getVersion] := by
  decide

/-! ### Words of the slots, written out from the encoding tables (spec/04 Tables 3 and 4, spec/05 Table 4, spec/06 Table 2, spec/07
Table 10, spec/09 Table 5, spec/10 Table 5) -/

theorem test_decode_control :
    decodeK 5 (0x01 + 1 * 2 ^ 8 + 2 * 2 ^ 14 + 63 * 2 ^ 20) = .op (.sadd 5 1 2 63) ∧
    decodeK 5 (0x11 + 1 * 2 ^ 8 + 2 * 2 ^ 14 + 0xFFF * 2 ^ 20) = .op (.saddi 5 1 2 0xFFF) ∧
    decodeK 5 (0x18 + 1 * 2 ^ 8 + 0x20001 * 2 ^ 14) = .op (.sli 5 1 0x20001) ∧
    decodeK 5 (0x40 + 7 * 2 ^ 8 + 1023 * 2 ^ 11 + 2047 * 2 ^ 21) = .op (.rep 5 7 1023 2047) ∧
    decodeK 5 0x48 = .op (.nextLayer 5) ∧ decodeK 5 (0x48 + 2 ^ 8) = .reserved ∧ decodeK 5 0x0D = .undefined ∧ decodeK 5 0 = .idle ∧
    decodeK 5 (0x51 + 15 * 2 ^ 8 + 3 * 2 ^ 12 + 9 * 2 ^ 15 + 31 * 2 ^ 25) = .op (.jtrip 5 15 3 9 31) := by
  decide

theorem test_decode_array :
    decodeA 5 (0x01 + 9 * 2 ^ 8 + 17 * 2 ^ 12 + 2 * 2 ^ 17 + 3 * 2 ^ 19 + 127 * 2 ^ 26 + 2 ^ 33 + 2 ^ 34 + 2 ^ 35 + 5 * 2 ^ 36) =
      .op (.mma 5 { mask := 9, base := 17, g := 2, first := 3, nM1 := 127, north := true, bank := true, clr := true, acc := 5 }) ∧
    decodeA 5 (0x01 + 3 * 2 ^ 17) = .reserved ∧
    decodeA 5 (0x09 + 15 * 2 ^ 8 + 7 * 2 ^ 12 + 255 * 2 ^ 15 + 2 ^ 23 + 511 * 2 ^ 24 + 6 * 2 ^ 33 + 2 ^ 36 + 2 ^ 37) =
      .op (.mvm 5 { q := 15, vecM1 := 7, linesM1 := 255, clr := true, e0 := 511, lc := 6, useLc := true, bank := true }) := by
  decide

theorem test_decode_vector :
    decodeV 5 (0x20 + 6 * 2 ^ 8 + 1 * 2 ^ 12 + 2 * 2 ^ 15 + 3 * 2 ^ 18 + 1 * 2 ^ 21 + 4 * 2 ^ 23 + 63 * 2 ^ 29 + 5 * 2 ^ 35) =
      .op (.vop 5 { op := 6, a := 1, b := 2, d := 3, bmode := 1, r := 4, nM1 := 63, q := 5 }) ∧
    decodeV 5 (0x50 + 7 * 2 ^ 8 + 63 * 2 ^ 11 + 1 * 2 ^ 17 + 3 * 2 ^ 23 + 2 ^ 25 + 9 * 2 ^ 26) =
      .op (.vrng 5 { d := 7, r := 63, nM1 := 1, ctx := 3, bits := true, thr := 9 }) ∧
    decodeV 5 0x60 = .op (.vscln 5) := by
  decide

theorem test_decode_stream :
    decodeS 5 (0x09 + 9 * 2 ^ 8 + 31 * 2 ^ 12 + 3 * 2 ^ 17 + 127 * 2 ^ 24 + 2 ^ 31) =
      .op (.sput 5 { q := 9, tile := 31, f := 3, mM1 := 127, plane := true }) ∧
    decodeS 5 (0x30 + 2 ^ 8 + 2 ^ 9 + 15 * 2 ^ 10 + 67 * 2 ^ 17 + 511 * 2 ^ 24 + 0xAB * 2 ^ 33) =
      .op (.fsend 5 { dir := .ccw, queue := true, src := 15, gM1 := 0, ttl := 67, flitsM1 := 511, tag := 0xAB }) := by
  decide

theorem test_decode_channel :
    decodeC 5 (0x01 + 31 * 2 ^ 8 + 63 * 2 ^ 13) = .op (.chOpen 5 31 63) ∧
    decodeC 5 (0x09 + 7 * 2 ^ 8 + 9 * 2 ^ 11 + 1 * 2 ^ 15 + 126 * 2 ^ 22 + 2 ^ 29) =
      .op (.kout 5 { k := 7, q := 9, f := 1, rowsM1 := 126, bf16 := true }) := by
  decide

/-! ### Values from the spec's tables -/

/-- The worked conversions of spec/03, Table 5. -/
theorem test_conversions :
    let at_ (f : Elem) (ovf : Bool) (n : Nat) (e : Int) : Nat := (cvtElem f ovf .rne (.fin false n e)).1
    at_ .e4m3 false 456 0 = 0x7E ∧ at_ .e4m3 false 464 0 = 0x7E ∧ at_ .e4m3 false 470 0 = 0x7E ∧ at_ .e4m3 true 470 0 = 0x7F ∧
      at_ .e5m2 false 61440 0 = 0x7C ∧ at_ .fp16 false 65519 0 = 0x7BFF ∧
      (cvtElem .e4m3 false .rne (.fin false 470 0)).2.sat = 1 := by
  decide

/-- A scalar sum is taken modulo 2^64 and shows in the next tick (R85; spec/04, Table 3). -/
theorem test_sadd_wraps :
    (nextOf (exec (.sadd 5 1 3 4) (runS (fun k =>
      { k with seq := { k.seq with scalars := (k.seq.scalars.set 3 0xFFFFFFFFFFFFFFFF).set 4 2 } })))).map (fun t => (coreAt t 5).pend) =
      some [{ due := 1, issued := 0, eff := .scalar 1 1 }] := by
  decide

/-- S0 reads 0 whatever is written to it (R84). -/
theorem test_s0_reads_zero : sreg (coreAt (applyPend 5 { due := 0, issued := 0, eff := .scalar 0 7 } upS) 5) 0 = 0 := by decide

/-- The sigmoid of 0 is one half, e to the power 0 is 1, and the logarithm of 0 is minus infinity (spec/07, Table 3). -/
theorem test_functions : fpSigmoid (fp32 0) = 0x3F000000 ∧ fpExp (fp32 0) = 0x3F800000 ∧ fpLn (fp32 0) = 0xFF800000 := by decide

/-- The check value of the CRC-32 of IEEE 802.3 over the digits 1 to 9. -/
theorem test_crc32 : crc32 [0x31, 0x32, 0x33, 0x34, 0x35, 0x36, 0x37, 0x38, 0x39] = 0xCBF43926 := by decide +kernel

/-- READY is clear at reset, step 1 is in progress, and CAP_CORES skips the spare C17 (R355, R15). -/
theorem test_reset : State.reset.power.ready = false ∧ State.reset.power.step = 1 ∧ physicalOf State.reset 17 = some 18 := by decide

/-- A register query is answered with the register's value: GRP_CTL resets to 0x3E8 (spec/12, Table 14). -/
theorem test_query_register :
    (nextOf (exec (.queryRegister hdr 0x13080) upS)).map (fun t => t.rings.store.map (fun r => (r.status, r.tag, r.result))) =
      some [(.ok, 7, 0x3E8)] := by
  decide

end Sys2Proof.Tests
end

/-! SUPPORT. What the units of a tick, a hold and a clock request leave of regions and cores, and from it the statements on ticks,
holds, region clocks and the units' own commands (spec/02). -/

namespace Sys2Proof.Machine

/-! ### Regions: what the units of a tick leave of them -/

/-- A region without what its units may change in a tick beside its waits: recorded faults, crossings and lanes (R27, R134, R210). -/
def unitFree (g : Region) : Region :=
  { g with faults := [], flmxCrc := false, inCw := [], inCcw := [], laneCw := [], laneCcw := [], mgtIn := [], mgtOut := [] }

/-- Of a region, what its clock alone moves: the waits, the held work and the stop match left out too (R20, R33, R37, R283). -/
def clockPart (g : Region) : Region := { unitFree g with waits := [], heldOps := [], stopEn := false, stopFired := false }

/-- What the units of a tick leave of every region. -/
def kept (s : State) (q : RegionId) : Region := unitFree (regionAt s q)

/-- Every region's clock. -/
def clocks (s : State) (q : RegionId) : Region := clockPart (regionAt s q)

@[simp] theorem kept_setCore (s : State) (c : CoreId) (x : Core) : kept (setCore s c x) = kept s := rfl
@[simp] theorem kept_modCore (s : State) (c : CoreId) (f : Core → Core) : kept (modCore s c f) = kept s := rfl
@[simp] theorem kept_modSeq (s : State) (c : CoreId) (f : Seq → Seq) : kept (modSeq s c f) = kept s := rfl
@[simp] theorem kept_setEp (c : CoreId) (e : Fin 32) (f : Endpoint → Endpoint) (s : State) : kept (setEp c e f s) = kept s := rfl

theorem kept_of_regions {s t : State} (h : t.regions = s.regions) : kept t = kept s := by
  funext q; simp only [kept, regionAt, h]

theorem clocks_of_kept {s t : State} (h : kept t = kept s) : clocks t = clocks s := by
  funext q
  have e := congrArg clockPart (congrFun h q)
  exact e

theorem waits_of_kept {s t : State} (h : kept t = kept s) (q : RegionId) : (regionAt t q).waits = (regionAt s q).waits := by
  have e := congrArg Region.waits (congrFun h q)
  exact e

theorem tick_of_clocks {s t : State} (h : clocks t = clocks s) (q : RegionId) : (regionAt t q).tick = (regionAt s q).tick := by
  have e := congrArg Region.tick (congrFun h q)
  exact e

/-- A projection of regions that a change of one region keeps, the state keeps. -/
theorem modRegion_keeps (p : Region → Region) (s : State) (r : RegionId) (f : Region → Region) (h : ∀ g, p (f g) = p g) :
    (fun q => p (regionAt (modRegion s r f) q)) = fun q => p (regionAt s q) := by
  funext q
  by_cases hq : q = r
  · subst hq; rw [regionAt_modRegion, h]
  · rw [regionAt_modRegion_ne _ _ _ _ hq]

theorem kept_modRegion (s : State) (r : RegionId) (f : Region → Region) (h : ∀ g, unitFree (f g) = unitFree g) :
    kept (modRegion s r f) = kept s := modRegion_keeps unitFree s r f h

theorem clocks_modRegion (s : State) (r : RegionId) (f : Region → Region) (h : ∀ g, clockPart (f g) = clockPart g) :
    clocks (modRegion s r f) = clocks s := modRegion_keeps clockPart s r f h

/-- A change of a region that reads the clock alone acts on clocks. -/
theorem clocks_modRegion_congr {s t : State} (r : RegionId) (f : Region → Region) (h : clocks t = clocks s)
    (hf : ∀ g g', clockPart g = clockPart g' → clockPart (f g) = clockPart (f g')) :
    clocks (modRegion t r f) = clocks (modRegion s r f) := by
  funext q
  have hq := congrFun h q
  by_cases e : q = r
  · subst e; simp only [clocks, regionAt_modRegion] at hq ⊢; exact hf _ _ hq
  · simp only [clocks, regionAt_modRegion_ne _ _ _ _ e] at hq ⊢; exact hq

/-! ### Faults, fences and flits -/

@[simp] theorem kept_raiseFault (c : CoreId) (n : Nat) (i : FaultInfo) (s : State) : kept (raiseFault c n i s) = kept s :=
  kept_modRegion _ _ _ fun _ => rfl

@[simp] theorem kept_fenceJob (j : JobId) (i : FaultInfo) (s : State) : kept (fenceJob j i s) = kept s :=
  kept_of_regions (fenceJob_regions j i s)

@[simp] theorem kept_flmError (c : CoreId) (d : Dir) (crc : Bool) (s : State) : kept (flmError c d crc s) = kept s := rfl

@[simp] theorem kept_setInbound (s : State) (r : RegionId) (d : Dir) (q : Region → List Flit) :
    kept (modRegion s r (fun g => setInbound g d (q g))) = kept s :=
  kept_modRegion _ _ _ fun _ => by cases d <;> rfl

@[simp] theorem kept_setLane (s : State) (r : RegionId) (d : Dir) (l : Region → List LaneItem) :
    kept (modRegion s r (fun g => setLane g d (l g))) = kept s :=
  kept_modRegion _ _ _ fun _ => by cases d <;> rfl

@[simp] theorem kept_ringPut (c : CoreId) (d : Dir) (f : Flit) (issued : Nat) (s : State) : kept (ringPut c d f issued s) = kept s := by
  unfold ringPut
  split
  · rfl
  · simp

@[simp] theorem kept_injectFlit (c : CoreId) (d : Dir) (f : Flit) (issued : Nat) (s : State) :
    kept (injectFlit c d f issued s) = kept s := by simp [injectFlit]

@[simp] theorem kept_captureFlit (c : CoreId) (d : Dir) (issued : Nat) (s : State) : kept (captureFlit c d issued s).1 = kept s := by
  unfold captureFlit
  split
  · simp
  · split
    · rfl
    · simp

@[simp] theorem kept_fxinTake (c : CoreId) (d : Dir) (issued : Nat) (s : State) : kept (fxinTake c d issued s) = kept s := by
  unfold fxinTake
  dsimp only
  split
  · rfl
  · rw [kept_ringPut]
    split <;> simp

@[simp] theorem kept_exitWrite (r : RegionId) (d : Dir) (s : State) : kept (exitWrite r d s) = kept s := by
  unfold exitWrite
  split <;> simp

@[simp] theorem kept_autoForward (r : RegionId) (d : Dir) (s : State) : kept (autoForward r d s) = kept s := by
  unfold autoForward
  split
  · split
    · rfl
    · split
      · simp
      · have hx (u : State) : kept (modRegion u r (fun g => { g with flmxCrc := true })) = kept u := kept_modRegion _ _ _ fun _ => rfl
        split <;> simp [hx]
  · rfl

@[simp] theorem kept_ringHop (r : RegionId) (s : State) : kept (ringHop r s) = kept s := by
  unfold ringHop
  exact foldl_keeps kept _ (fun u c => kept_modCore u c _) _ _

/-! ### Channels -/

@[simp] theorem kept_sendItem (c : CoreId) (e : Fin 32) (w : BitVec 29) (gen : BitVec 4) (kind : ChMsgKind) (s : State) :
    kept (sendItem c e w gen kind s) = kept s := by
  unfold sendItem
  split
  · rfl
  · dsimp only
    rw [apply_ite kept, kept_setLane, kept_setEp, ite_self]

@[simp] theorem kept_sendCredit (c : CoreId) (e : Fin 32) (n : Nat) (s : State) : kept (sendCredit c e n s) = kept s := kept_sendItem ..

@[simp] theorem kept_openCredits (c : CoreId) (e : Fin 32) (w : BitVec 29) (s : State) : kept (openCredits c e w s) = kept s := by
  unfold openCredits
  split <;> simp

@[simp] theorem kept_closeEp (c : CoreId) (e : Fin 32) (s : State) : kept (closeEp c e s) = kept s := by
  unfold closeEp
  dsimp only
  split
  · split
    · rw [foldl_keeps kept _ (fun _ _ => kept_sendItem ..)]; simp
    · rfl
  · rfl

@[simp] theorem kept_closeAll (c : CoreId) (s : State) : kept (closeAll c s) = kept s := foldl_keeps kept _ (fun _ _ => kept_closeEp ..) _ _

@[simp] theorem kept_drainHeld (c : CoreId) (e : Fin 32) (n : Nat) (s : State) : kept (drainHeld c e n s) = kept s := by
  induction n generalizing s with
  | zero => rfl
  | succ n ih =>
    unfold drainHeld
    dsimp only
    split
    · rfl
    · split
      · rw [ih]
        split <;> split <;> simp
      · rfl

@[simp] theorem kept_discardAt (c : CoreId) (e : Fin 32) (s : State) : kept (discardAt c e s) = kept s := by
  unfold discardAt
  dsimp only
  split <;> simp

@[simp] theorem kept_arriveMessage (c : CoreId) (e : Fin 32) (m : ChMsg) (d : Desc) (s : State) :
    kept (arriveMessage c e m d s) = kept s := by
  unfold arriveMessage
  dsimp only
  split
  · split <;> simp [settle]
  · split <;> simp

@[simp] theorem kept_arrive (c : CoreId) (e : Fin 32) (m : ChMsg) (s : State) : kept (arrive c e m s) = kept s := by
  unfold arrive
  dsimp only
  split
  · simp
  · split <;> simp
  · split <;> simp
  · split <;> split <;> simp

@[simp] theorem kept_arriveDue (c : CoreId) (e : Fin 32) (n : Nat) (s : State) : kept (arriveDue c e n s) = kept s := by
  induction n generalizing s with
  | zero => rfl
  | succ n ih =>
    unfold arriveDue
    split
    · simp
    · rw [ih]; simp

@[simp] theorem kept_channelTick (c : CoreId) (s : State) : kept (channelTick c s) = kept s :=
  foldl_keeps kept _ (fun _ _ => kept_arriveDue ..) _ _

@[simp] theorem kept_csendStep (c : CoreId) (e : Fin 32) (issued : Nat) (s : State) : kept (csendStep c e issued s) = kept s := by
  unfold csendStep
  dsimp only
  split
  · split <;> simp
  · split <;> simp

@[simp] theorem kept_lanePass (b : RegionId) (d : Dir) (q : RegionId) (s : State) : kept (lanePass b d q s) = kept s := by
  unfold lanePass
  dsimp only
  split
  · rfl
  · split
    · simp
    · split
      · simp
      · rfl

@[simp] theorem kept_lanePeriod (b : RegionId) (s : State) : kept (lanePeriod b s) = kept s :=
  foldl_keeps kept _ (fun _ _ => by simp) _ _

/-! ### Results, records and combining queues -/

@[simp] theorem kept_applyPend (c : CoreId) (p : Pend) (s : State) : kept (applyPend c p s) = kept s := by
  unfold applyPend
  dsimp only
  split <;> split <;> simp [openEp]

@[simp] theorem kept_settlePends (want : Eff → Bool) (c : CoreId) (t : Nat) (s : State) : kept (settlePends want c t s) = kept s :=
  foldl_keeps kept _ (fun _ _ => kept_applyPend ..) _ _

@[simp] theorem kept_startApply (c : CoreId) (x : CfgRecord) (s : State) : kept (startApply c x s) = kept s := by
  have hw (u : State) : kept (writeSpans u c) = kept u := by unfold writeSpans; split <;> rfl
  unfold startApply
  dsimp only
  split <;> simp [hw]

@[simp] theorem kept_layerStart (c : CoreId) (s : State) : kept (layerStart c s) = kept s := by
  unfold layerStart
  split
  · split
    · rfl
    · split <;> simp
  · rfl

@[simp] theorem kept_mgtArrive (r : RegionId) (s : State) : kept (mgtArrive r s) = kept s := by
  unfold mgtArrive
  rw [foldl_keeps kept _ (fun b m => by cases m <;> rfl)]
  exact kept_modRegion _ _ _ fun _ => rfl

@[simp] theorem kept_combFault (c : CoreId) (q : Fin 8) (st : Status) (s : State) : kept (combFault c q st s) = kept s := by
  unfold combFault
  split <;> simp

@[simp] theorem kept_combineNarrow (c : CoreId) (q : Fin 8) (s : State) : kept (combineNarrow c q s) = kept s := by
  unfold combineNarrow
  dsimp only
  split
  · rfl
  · split <;> simp

@[simp] theorem kept_combineWideRow (c : CoreId) (q : Fin 8) (s : State) : kept (combineWideRow c q s) = kept s := by
  unfold combineWideRow
  dsimp only
  split
  · rfl
  · split
    · simp
    · split <;> simp

@[simp] theorem kept_combineWideRows (n : Nat) (c : CoreId) (q : Fin 8) (s : State) : kept (combineWideRows n c q s) = kept s := by
  induction n generalizing s with
  | zero => rfl
  | succ n ih =>
    unfold combineWideRows
    split
    · simp [ih]
    · rfl

@[simp] theorem kept_combineWide (c : CoreId) (q : Fin 8) (s : State) : kept (combineWide c q s) = kept s := by
  unfold combineWide
  split <;> simp

@[simp] theorem kept_combTick (c : CoreId) (s : State) : kept (combTick c s) = kept s :=
  foldl_keeps kept _ (fun _ _ => by split <;> simp) _ _

/-! ### Operations in progress -/

@[simp] theorem kept_captureStep (c : CoreId) (d : Dir) (o : Strm) (f : Core → Strm → Core) (s : State) :
    kept (captureStep c d o f s) = kept s := by
  have h := kept_captureFlit c d o.issued s
  unfold captureStep
  split <;> rename_i e <;> rw [e] at h <;> simpa using h

@[simp] theorem kept_opRun (c : CoreId) (o : Strm) (t : Nat) (s : State) : kept (opRun c o t s) = kept s := by
  unfold opRun
  split
  case h_2 => split <;> simp
  all_goals simp

@[simp] theorem kept_opStep (c : CoreId) (o : Strm) (t : Nat) (found : Vector Tile 32) (s : State) :
    kept (opStep c o t found s) = kept s := by simp [opStep]

@[simp] theorem kept_opAdvance (c : CoreId) (o : Strm) (s : State) : kept (opAdvance c o s) = kept s := rfl

@[simp] theorem kept_stepAll (c : CoreId) (now : Nat) (found : Vector Tile 32) (os : List Strm) (s : State) :
    kept (stepAll c now found os s) = kept s := foldl_keeps kept _ (fun _ _ => by simp) _ _

/-! ### The issue of slot instructions -/

/-- What the effect of an issue reaches: its own core, and for OPEN and CACK the credits that they send besides (R207, R208). -/
theorem issueOf_effect {i : Instr} {x : Issue} (hx : issueOf i = some x) (s : State) :
    (∃ k, x.effect s = setCore s x.core k) ∨ (∃ e w k, x.effect s = openCredits x.core e w (setCore s x.core k)) ∨
      ∃ e n k, x.effect s = sendCredit x.core e n (setCore s x.core k) := by
  cases i <;> simp only [issueOf, Option.some.injEq, reduceCtorEq] at hx <;> subst hx
  case chOpen => exact .inr (.inl ⟨_, _, _, rfl⟩)
  case cack => exact .inr (.inr ⟨_, _, _, rfl⟩)
  case cwait | kwait | xwait | xsync => exact .inl ⟨_, (setCore_coreAt s _).symm⟩
  all_goals exact .inl ⟨_, rfl⟩

theorem kept_effect {i : Instr} {x : Issue} (hx : issueOf i = some x) (s : State) : kept (x.effect s) = kept s := by
  rcases issueOf_effect hx s with ⟨k, h⟩ | ⟨e, w, k, h⟩ | ⟨e, n, k, h⟩ <;> rw [h] <;> simp

/-! ### The phases of a tick -/

@[simp] theorem clocks_addWait (r : RegionId) (h : HoldCond) (s : State) : clocks (addWait r h s) = clocks s :=
  clocks_modRegion _ _ _ fun _ => rfl

@[simp] theorem kept_startOfTick (c : CoreId) (t : Nat) (s : State) : kept (startOfTick c t s) = kept s := by
  unfold startOfTick
  dsimp only
  split <;> simp [bankReads]

@[simp] theorem kept_startPhase (mask : List CoreId) (c : CoreId) (s : State) : kept (startPhase mask c s) = kept s := by
  unfold startPhase
  split
  · split
    · split <;> simp
    · rfl
  · simp

@[simp] theorem clocks_issueOps (c : CoreId) (l : List (Nat × Instr)) (s : State) : clocks (issueOps c l s) = clocks s := by
  induction l generalizing s with
  | nil => rfl
  | cons a rest ih =>
    unfold issueOps
    split
    · exact ih _
    · rename_i x hx
      split
      · rw [ih, clocks_addWait]
      · split
        · rw [ih, clocks_of_kept (kept_raiseFault ..)]
        · rw [ih, clocks_of_kept (kept_effect hx _)]

@[simp] theorem clocks_issueBundle (mask : List CoreId) (c : CoreId) (s : State) : clocks (issueBundle mask c s) = clocks s := by
  have hm (u : State) (f : Seq → Seq) : clocks (modSeq u c f) = clocks u := clocks_of_kept (kept_modSeq ..)
  unfold issueBundle
  dsimp only
  split
  · split
    · exact hm _ _
    · split
      · simp [hm]
      · split
        · simp [hm]
        · rw [clocks_of_kept (kept_raiseFault ..)]; simp [hm]
  · rfl

@[simp] theorem clocks_runOps (want : Instr → Bool) (c : CoreId) (t : Nat) (found : Vector Tile 32) (s : State) :
    clocks (runOps want c t found s) = clocks s := by
  refine foldl_keeps clocks _ (fun u o => ?_) _ s
  split
  · exact clocks_addWait ..
  · exact clocks_of_kept (by simp)

@[simp] theorem clocks_corePhase (want : Instr → Bool) (c : CoreId) (t : Nat) (found : Vector Tile 32) (s : State) :
    clocks (corePhase want c t found s) = clocks s := by
  unfold corePhase
  split <;> simp

@[simp] theorem clocks_runLate (c : CoreId) (t : Nat) (s : State) : clocks (runLate c t s) = clocks s := by
  refine foldl_keeps clocks _ (fun u p => ?_) _ s
  dsimp only
  split
  · split
    · exact clocks_addWait ..
    · exact clocks_of_kept (by simp)
  · exact clocks_of_kept (by simp)

@[simp] theorem clocks_exitPhase (r : RegionId) (d : Dir) (s : State) : clocks (exitPhase r d s) = clocks s := by
  unfold exitPhase
  split
  · split
    · split <;> simp
    · exact clocks_of_kept (by simp)
  · rfl

/-- A fold of phases that leave clocks over cores leaves them. -/
theorem clocks_foldl {α : Type} (f : State → α → State) (h : ∀ u a, clocks (f u a) = clocks u) (l : List α) (s : State) :
    clocks (l.foldl f s) = clocks s := foldl_keeps clocks f h l s

/-- The units of a tick leave every region's clock (R20). -/
@[simp] theorem clocks_tickBody (mask : List CoreId) (bad : List BadRead) (r : RegionId) (s : State) :
    clocks (tickBody mask bad r s) = clocks s := by
  unfold tickBody
  dsimp only
  rw [clocks_of_kept (kept_autoForward ..), clocks_of_kept (kept_autoForward ..), clocks_exitPhase, clocks_exitPhase]
  rw [clocks_foldl _ (fun u c => clocks_of_kept (kept_combTick c u)), clocks_foldl _ (fun _ _ => clocks_corePhase ..)]
  rw [clocks_foldl _ (fun u c => by split <;> simp), clocks_foldl _ (fun _ _ => clocks_corePhase ..)]
  rw [clocks_foldl _ (fun _ _ => clocks_of_kept (kept_fxinTake ..)), clocks_foldl _ (fun _ _ => clocks_issueBundle ..)]
  rw [clocks_foldl _ (fun _ _ => clocks_of_kept (kept_startPhase ..)), clocks_foldl _ (fun _ _ => clocks_of_kept (kept_startOfTick ..))]
  exact clocks_of_kept (kept_mgtArrive ..)

/-! ### The end of a tick, stops and holds -/

/-- A region once a schedule tick has counted (R20). -/
def oneTick (g : Region) : Region := { g with tick := g.tick + 1, periods := g.periods + 1 }

/-- The hold of a region once a held period has counted, with the conditions `ws` unmet after it (R33, R37). -/
def heldOn (ws : List HoldCond) (g : Region) : Region :=
  { g with
    tallyTicks := BitVec.ofNat 64 (satAdd 64 g.tallyTicks.toNat 1)
    waits := ws
    hold := g.hold.map (fun h => { h with periods := h.periods + 1, crossing := if ws.isEmpty then 0 else h.crossing + 1 }) }

/-- A region once a held period has counted (R33, R37). -/
def oneHeld (ws : List HoldCond) (g : Region) : Region := heldOn ws { g with periods := g.periods + 1 }

@[simp] theorem kept_requestPass (c : CoreId) (s : State) : kept (requestPass c s) = kept s := by
  unfold requestPass
  split
  · rfl
  · exact foldl_keeps kept (fun u (p : Fin 8 × Piece) => modMem u p.1 _) (fun _ _ => rfl) _ _

theorem kept_regionPeriod (r : RegionId) (s : State) :
    kept (regionPeriod r s) = kept (modRegion s r (fun g => { g with periods := g.periods + 1 })) := by
  unfold regionPeriod
  rw [foldl_keeps kept _ (fun _ _ => by simp), kept_lanePeriod]

theorem kept_endOfTick (c : CoreId) (t : Nat) (s : State) : kept (endOfTick c t s) = kept s := by
  unfold endOfTick
  split <;> simp

@[simp] theorem modRegion_modRegion (s : State) (r : RegionId) (f g : Region → Region) :
    modRegion (modRegion s r f) r g = modRegion s r (fun x => g (f x)) := by
  simp [modRegion, regionAt]

/-- Like clocks stay alike as a tick counts. -/
theorem clockPart_oneTick (g g' : Region) (h : clockPart g = clockPart g') : clockPart (oneTick g) = clockPart (oneTick g') := by
  simp only [clockPart, unitFree, oneTick, Region.mk.injEq] at h ⊢
  simp only [h, and_self]

/-- The end of a tick counts the tick and its period, in its region alone (R20). -/
theorem clocks_tickEnd (r : RegionId) (s : State) : clocks (tickEnd r s) = clocks (modRegion s r oneTick) := by
  unfold tickEnd
  dsimp only
  rw [clocks_foldl _ (fun _ _ => clocks_of_kept (by rw [kept_endOfTick, kept_modCore])), clocks_of_kept (kept_regionPeriod ..),
    modRegion_modRegion]
  exact clocks_modRegion_congr r oneTick (clocks_of_kept (kept_ringHop r s)) clockPart_oneTick

theorem clocks_stopCore (c : CoreId) (s : State) : clocks (stopCore c s) = clocks s := by
  unfold stopCore
  refine (clocks_modRegion _ _ _ fun g => ?_).trans (clocks_of_kept (kept_modCore ..))
  rfl

@[simp] theorem clocks_stopFire (r : RegionId) (s : State) : clocks (stopFire r s) = clocks s := by
  unfold stopFire
  split
  · dsimp only
    refine (clocks_foldl _ (fun u c => ?_) _ _).trans (clocks_modRegion _ _ _ fun _ => rfl)
    rw [apply_ite clocks, clocks_stopCore, ite_self]
  · rfl

@[simp] theorem kept_settleFaults (r : RegionId) (s : State) : kept (settleFaults r s) = kept s :=
  (kept_of_regions (settleFaults_regions r s)).trans (kept_modRegion _ _ _ fun _ => rfl)

/-- The state of a region's first hold period on: the hold that conditions `ws` begin, for the core field `x` (R37, R38). -/
def heldSince (ws : List HoldCond) (x : BitVec 2) (g : Region) : Region :=
  { g with
    hold := some { cause := (holdChoice ws).cause, queue := (holdChoice ws).queue, core := x, tick := BitVec.ofNat 32 g.tick.toNat,
                   periods := 0, crossing := 0 }
    waits := ws
    tallyEvents := BitVec.ofNat 64 (satAdd 64 g.tallyEvents.toNat 1) }

/-- A change of a region goes by what it makes of the region as it stands. -/
theorem modRegion_congr {s : State} {r : RegionId} {f g : Region → Region} (h : f (regionAt s r) = g (regionAt s r)) :
    modRegion s r f = modRegion s r g := by simp only [modRegion, h]

/-- As `modRegion_congr`, for one of several changes. -/
theorem modRegion_congr_exists {α : Type} {s : State} {r : RegionId} {f : Region → Region} {g : α → Region → Region}
    (h : ∃ x, f (regionAt s r) = g x (regionAt s r)) : ∃ x, modRegion s r f = modRegion s r (g x) := by
  obtain ⟨x, hx⟩ := h
  exact ⟨x, modRegion_congr hx⟩

/-- The state with another job table. -/
def withJobs (s : State) (js : List (Nat × Job)) : State := { s with jobs := js }

@[simp] theorem regionAt_withJobs (s : State) (js : List (Nat × Job)) (r : RegionId) : regionAt (withJobs s js) r = regionAt s r := rfl
@[simp] theorem coreAt_withJobs (s : State) (js : List (Nat × Job)) (c : CoreId) : coreAt (withJobs s js) c = coreAt s c := rfl
@[simp] theorem withJobs_power (s : State) (js : List (Nat × Job)) : (withJobs s js).power = s.power := rfl
@[simp] theorem clocks_withJobs (s : State) (js : List (Nat × Job)) : clocks (withJobs s js) = clocks s := rfl

theorem modRegion_withJobs (s : State) (js : List (Nat × Job)) (r : RegionId) (f : Region → Region) :
    modRegion (withJobs s js) r f = withJobs (modRegion s r f) js := rfl

/-- The counts of holds are a job's; nothing else changes (R41). -/
theorem countHolds_eq (r : RegionId) (events ticks : Nat) (s : State) : ∃ js, countHolds r events ticks s = withJobs s js := by
  unfold countHolds
  refine foldl_inv (fun u => ∃ js, u = withJobs s js) _ ?_ _ _ ⟨s.jobs, rfl⟩
  rintro _ j ⟨js, rfl⟩
  exact ⟨_, rfl⟩

/-- A hold begins: the region notes it, its jobs count the event, and nothing else changes (R37, R41). -/
theorem holdBegin_starts {r : RegionId} (ws : List HoldCond) {s : State} (hh : (regionAt s r).hold = none) :
    ∃ js x, holdBegin r ws s = withJobs (modRegion s r (heldSince ws x)) js := by
  obtain ⟨js, hc⟩ := countHolds_eq r 1 0 s
  unfold holdBegin
  rw [hh, Option.isNone_none, if_pos rfl, hc]
  refine ⟨js, modRegion_congr_exists (s := withJobs s js) (g := heldSince ws) ?_⟩
  simp only [regionAt_withJobs, hh]
  exact ⟨_, rfl⟩

/-- A held period: the region's own clock counts, and so do the hold and its jobs (R33, R37, R41). -/
theorem heldPeriod_eq (r : RegionId) (s : State) :
    ∃ js ws, heldPeriod r s = withJobs (modRegion (regionPeriod r s) r (heldOn ws)) js := by
  obtain ⟨js, hc⟩ := countHolds_eq r 0 1 (regionPeriod r s)
  unfold heldPeriod
  rw [hc]
  exact ⟨js, unmetNow (withJobs (regionPeriod r s) js) r, modRegion_withJobs ..⟩

/-- Like clocks stay alike as a held period counts. -/
theorem clockPart_heldOn (ws : List HoldCond) (g g' : Region) (h : clockPart g = clockPart g') :
    clockPart (heldOn ws g) = clockPart (heldOn ws g') := by
  simp only [clockPart, unitFree, heldOn, Region.mk.injEq] at h ⊢
  simp only [h, and_self]

/-- A held period counts in its region alone (R33, R37). -/
theorem clocks_heldPeriod (r : RegionId) (s : State) : ∃ ws, clocks (heldPeriod r s) = clocks (modRegion s r (oneHeld ws)) := by
  obtain ⟨js, ws, h⟩ := heldPeriod_eq r s
  have hp := clocks_modRegion_congr r (heldOn ws) (clocks_of_kept (kept_regionPeriod r s)) (clockPart_heldOn ws)
  rw [modRegion_modRegion] at hp
  refine ⟨ws, ?_⟩
  rw [h, clocks_withJobs]
  exact hp

/-! ### The outcome of a tick -/

theorem kept_keepFlmErr (s1 : State) (c : CoreId) (s : State) : kept (keepFlmErr s1 c s) = kept s := rfl

/-- A tick that met no wait counts once, and stands in whatever hold its region stood (R20). -/
theorem clocks_tickCommit (r : RegionId) {s s1 : State} (h : clocks s1 = clocks s) :
    clocks (tickCommit r s s1) = clocks (modRegion s r oneTick) := by
  have hb : clocks (if (regionAt s1 r).faults.isEmpty then s1
      else (coresOf r).foldl (fun u c => keepFlmErr s1 c u) (tickBody (faultCores s1 r) (badReads r s s1) r s)) = clocks s := by
    split
    · exact h
    · rw [clocks_foldl _ (fun _ _ => clocks_of_kept (kept_keepFlmErr ..)), clocks_tickBody]
  unfold tickCommit
  dsimp only
  rw [clocks_stopFire, clocks_tickEnd]
  refine clocks_modRegion_congr r oneTick ?_ clockPart_oneTick
  rw [clocks_of_kept (kept_settleFaults ..)]
  refine (clocks_modRegion _ r _ fun _ => ?_).trans hb
  rfl

@[simp] theorem kept_storeErrors (r : RegionId) (errs : List StoreError) (s : State) : kept (storeErrors r errs s) = kept s := by
  refine foldl_keeps kept _ (fun u x => ?_) _ s
  split <;> simp

/-- A schedule tick that meets no unmet crossing condition counts. -/
theorem scheduleTick_counts {r : RegionId} (errs : List StoreError) {s : State} (ht : regionTicks s r = true)
    (hh : (regionAt s r).hold = none) (hw : (regionAt (tickBody [] [] r s) r).waits = []) :
    clocks (scheduleTick r errs s) = clocks (modRegion s r oneTick) := by
  have hk := kept_storeErrors r errs (tickBody [] [] r s)
  unfold scheduleTick
  simp only [ht, hh, Option.isNone_none, Bool.and_self, if_true, waits_of_kept hk, hw, List.isEmpty_nil]
  exact clocks_tickCommit r ((clocks_of_kept hk).trans (clocks_tickBody ..))

/-- A schedule tick that meets unmet crossing conditions is the first period of a hold. -/
theorem scheduleTick_holds {r : RegionId} (errs : List StoreError) {s : State} (ht : regionTicks s r = true)
    (hh : (regionAt s r).hold = none) (hw : (regionAt (tickBody [] [] r s) r).waits ≠ []) :
    scheduleTick r errs s = heldPeriod r (holdBegin r (regionAt (tickBody [] [] r s) r).waits s) := by
  have hk := kept_storeErrors r errs (tickBody [] [] r s)
  unfold scheduleTick
  simp only [ht, hh, Option.isNone_none, Bool.and_self, if_true, waits_of_kept hk]
  rw [if_neg (by simpa using hw)]

/-! ### What a hold lets go on -/

/-- A core with its Skidder and its channel endpoints, which go on in a hold, taken from `z` (R33). -/
def unheld (z k : Core) : Core := { k with skd := z.skd, eps := z.eps }

/-- A projection of cores that a change of one core keeps, the state keeps. -/
theorem modCore_keeps {β : Type} (p : Core → β) (s : State) (c d : CoreId) (f : Core → Core) (h : ∀ k, p (f k) = p k) :
    p (coreAt (modCore s c f) d) = p (coreAt s d) := by
  by_cases e : d = c
  · subst e; rw [coreAt_modCore, h]
  · rw [coreAt_modCore_ne _ _ _ _ e]

theorem unheld_creditPeriod (z k : Core) (n : Nat) : unheld z (creditPeriod k n) = unheld z k := by
  have hq (k : Core) (q : QId) (f : StreamQ → StreamQ) : unheld z (modQ k q f) = unheld z k := rfl
  refine foldl_keeps (unheld z) _ (fun k q => ?_) _ _
  dsimp only
  rw [hq, endEmptyGathers, retireActs, hq, hq]

theorem unheld_requestPass (z : Core) (c d : CoreId) (s : State) : unheld z (coreAt (requestPass c s) d) = unheld z (coreAt s d) := by
  unfold requestPass
  split
  · rfl
  · have hq (ps : List (Fin 8 × Piece)) (u : State) : coreAt (queuePieces ps u) d = coreAt u d :=
      foldl_keeps (fun u : State => coreAt u d) (fun u (p : Fin 8 × Piece) => modMem u p.1 _) (fun _ _ => rfl) _ _
    rw [hq]
    exact modCore_keeps (unheld z) _ _ _ _ fun _ => rfl

theorem unheld_lanePeriod (z : Core) (r : RegionId) (d : CoreId) (s : State) :
    unheld z (coreAt (lanePeriod r s) d) = unheld z (coreAt s d) := by
  have hp (b : RegionId) (e : Dir) (q : RegionId) (u : State) : unheld z (coreAt (lanePass b e q u) d) = unheld z (coreAt u d) := by
    unfold lanePass
    dsimp only
    split
    · rfl
    · split
      · exact modCore_keeps (unheld z) _ _ _ _ fun _ => rfl
      · split <;> rfl
  exact foldl_keeps (fun u : State => unheld z (coreAt u d)) _ (fun _ _ => by rw [hp, hp]) _ _

/-- One period of a region's own clock changes the Skidders and the endpoints of cores alone (R27, R33). -/
theorem unheld_regionPeriod (z : Core) (r : RegionId) (d : CoreId) (s : State) :
    unheld z (coreAt (regionPeriod r s) d) = unheld z (coreAt s d) := by
  unfold regionPeriod
  rw [foldl_keeps (fun u : State => unheld z (coreAt u d)) _ (fun u c => ?_) _ _, unheld_lanePeriod]
  · rfl
  · rw [unheld_requestPass]
    refine modCore_keeps (unheld z) _ _ _ _ fun k => ?_
    split
    · rfl
    · exact unheld_creditPeriod ..

/-- A held period changes the Skidders and the endpoints of cores alone (R33). -/
theorem unheld_heldPeriod (z : Core) (r : RegionId) (d : CoreId) (s : State) :
    unheld z (coreAt (heldPeriod r s) d) = unheld z (coreAt s d) := by
  obtain ⟨js, ws, h⟩ := heldPeriod_eq r s
  rw [h, coreAt_withJobs, coreAt_modRegion, unheld_regionPeriod]

/-- The clocks as a hold begins. -/
theorem holdBegin_clocks {r : RegionId} (ws : List HoldCond) {s : State} (hh : (regionAt s r).hold = none) :
    ∃ x, clocks (holdBegin r ws s) = clocks (modRegion s r (heldSince ws x)) := by
  obtain ⟨js, x, h⟩ := holdBegin_starts ws hh
  exact ⟨x, by rw [h, clocks_withJobs]⟩

/-- A tick that begins a hold, as its region's clock: an event of one period (R33, R37). -/
theorem clocks_firstHeld {r : RegionId} (ws : List HoldCond) {s : State} (hh : (regionAt s r).hold = none) :
    ∃ x ws', clocks (heldPeriod r (holdBegin r ws s)) = clocks (modRegion s r (fun g => oneHeld ws' (heldSince ws x g))) := by
  obtain ⟨x, hb⟩ := holdBegin_clocks ws hh
  obtain ⟨ws', hp⟩ := clocks_heldPeriod r (holdBegin r ws s)
  refine ⟨x, ws', hp.trans ?_⟩
  rw [clocks_modRegion_congr r (oneHeld ws') hb, modRegion_modRegion]
  exact fun g g' h => clockPart_heldOn ws' _ _ (by
    simp only [clockPart, unitFree, Region.mk.injEq] at h ⊢
    simp only [h, and_self])

/-- The hold that an event's first period leaves (R37, R38). -/
theorem hold_firstHeld (ws ws' : List HoldCond) (x : BitVec 2) (g : Region) :
    ∃ h, (oneHeld ws' (heldSince ws x g)).hold = some h ∧ h.cause = (holdChoice ws).cause ∧ h.queue = (holdChoice ws).queue ∧
      h.periods = 1 := ⟨_, rfl, rfl, rfl, rfl⟩

/-- The clock of the region that a command changes, and those of the others. -/
theorem clockPart_at {s t : State} {r : RegionId} {f : Region → Region} (h : clocks t = clocks (modRegion s r f)) :
    clockPart (regionAt t r) = clockPart (f (regionAt s r)) ∧
      ∀ q, q ≠ r → clockPart (regionAt t q) = clockPart (regionAt s q) := by
  refine ⟨?_, fun q hq => ?_⟩
  · have e := congrFun h r
    simpa only [clocks, regionAt_modRegion] using e
  · have e := congrFun h q
    simpa only [clocks, regionAt_modRegion_ne _ _ _ _ hq] using e

/-- The beginning of a hold leaves every core (R33). -/
theorem coreAt_holdBegin {r : RegionId} (ws : List HoldCond) {s : State} (hh : (regionAt s r).hold = none) (c : CoreId) :
    coreAt (holdBegin r ws s) c = coreAt s c := by
  obtain ⟨js, x, h⟩ := holdBegin_starts ws hh
  rw [h, coreAt_withJobs, coreAt_modRegion]

/-- The fields of a region's clock that the statements read. -/
theorem fields_of_clockPart {g g' : Region} (h : clockPart g = clockPart g') :
    g.tick = g'.tick ∧ g.periods = g'.periods ∧ g.hold = g'.hold ∧ g.tallyEvents = g'.tallyEvents ∧ g.tallyTicks = g'.tallyTicks ∧
      g.tallyLast = g'.tallyLast ∧ g.freqIdx = g'.freqIdx ∧ g.switching = g'.switching := by
  simp only [clockPart, unitFree, Region.mk.injEq] at h
  simp only [h, and_self]

/-- Settles O16: the units of a tick leave the regions' clocks, so a tick counts in `tickEnd` alone; one that meets a wait is
discarded, and a held period changes Skidders and endpoints alone. -/
theorem scheduleTickOrHold : Obligations.ScheduleTickOrHold := by
  unfold Obligations.ScheduleTickOrHold
  intro r errs s ht hh g ws
  by_cases hw : ws = []
  · obtain ⟨hr, ho⟩ := clockPart_at (scheduleTick_counts errs ht hh hw)
    obtain ⟨htick, hperiods, hhold, -⟩ := fields_of_clockPart hr
    refine ⟨scheduleTick r errs s, rfl, hperiods, fun q hq => ?_, fun _ => ⟨htick, hhold.trans hh⟩, fun h => absurd hw h⟩
    obtain ⟨hq1, hq2, -⟩ := fields_of_clockPart (ho q hq)
    exact ⟨hq1, hq2⟩
  · obtain ⟨x, ws', hc⟩ := clocks_firstHeld ws hh
    rw [← scheduleTick_holds errs ht hh hw] at hc
    obtain ⟨hr, ho⟩ := clockPart_at hc
    obtain ⟨htick, hperiods, hhold, hevents, hticks, -⟩ := fields_of_clockPart hr
    refine ⟨scheduleTick r errs s, rfl, hperiods, fun q hq => ?_, fun h => absurd h hw,
      fun _ => ⟨htick, by rw [hhold]; exact hold_firstHeld .., hevents, hticks, fun c => ?_⟩⟩
    · obtain ⟨hq1, hq2, -⟩ := fields_of_clockPart (ho q hq)
      exact ⟨hq1, hq2⟩
    · have hu := unheld_heldPeriod (coreAt s c) r c (holdBegin r ws s)
      rw [coreAt_holdBegin ws hh, ← scheduleTick_holds errs ht hh hw] at hu
      exact hu

/-! ### Clock requests: what they leave of regions -/

/-- The regions and their power states. -/
def powered (s : State) : Vector Region 17 × Vector RegPower 28 := (s.regions, s.power.regs)

/-- A region without its entry in the frequency table. -/
def entryFree (g : Region) : Region := { g with freqIdx := 0 }

/-- Between the two states regions keep their power, and of them only the entries of some that do not run have changed (R43). -/
def OnlyIdleEntries (s t : State) : Prop :=
  t.power.regs = s.power.regs ∧ ∀ q, entryFree (regionAt t q) = entryFree (regionAt s q) ∧
    (regionRuns s q = true → regionAt t q = regionAt s q)

theorem OnlyIdleEntries.of_powered {s t : State} (h : powered t = powered s) : OnlyIdleEntries s t := by
  obtain ⟨hr, hp⟩ := Prod.mk.inj h
  have hq (q : RegionId) : regionAt t q = regionAt s q := by rw [regionAt, hr, regionAt]
  exact ⟨hp, fun q => ⟨by rw [hq], fun _ => hq q⟩⟩

theorem OnlyIdleEntries.trans {s t u : State} (h : OnlyIdleEntries s t) (h' : OnlyIdleEntries t u) : OnlyIdleEntries s u := by
  refine ⟨h'.1.trans h.1, fun q => ⟨(h'.2 q).1.trans (h.2 q).1, fun hr => ((h'.2 q).2 ?_).trans ((h.2 q).2 hr)⟩⟩
  rw [regionRuns, h.1]
  exact hr

/-- A region that does not run takes an entry. -/
theorem OnlyIdleEntries.setEntry (s : State) (r : RegionId) (x : BitVec 4) (h : regionRuns s r = false) :
    OnlyIdleEntries s (modRegion s r (fun g => { g with freqIdx := x })) := by
  refine ⟨rfl, fun q => ?_⟩
  by_cases e : q = r
  · subst e
    exact ⟨by rw [regionAt_modRegion]; rfl, fun hr => absurd hr (by simp [h])⟩
  · rw [regionAt_modRegion_ne _ _ _ _ e]
    exact ⟨rfl, fun _ => rfl⟩

@[simp] theorem powered_modPower (s : State) (f : Power → Power) (h : ∀ p, (f p).regs = p.regs) :
    powered (modPower s f) = powered s := by simp [powered, h]

@[simp] theorem powered_modRings (s : State) (f : Rings → Rings) : powered (modRings s f) = powered s := rfl
@[simp] theorem powered_modPort (s : State) (p : PortId) (f : Port → Port) : powered (modPort s p f) = powered s := rfl
@[simp] theorem powered_modFabric (s : State) (f : Fabric → Fabric) : powered (modFabric s f) = powered s := rfl
@[simp] theorem powered_modSnap (s : State) (f : Snap → Snap) : powered (modSnap s f) = powered s := rfl

@[simp] theorem powered_answer (a : Awaits) (st : Status) (x : BitVec 192) (s : State) : powered (answer a st x s) = powered s := by
  unfold answer
  exact foldl_keeps powered (fun u (c : OpenCmd) => putReply c.opcode.toNat c.tag c.irq st x u) (fun _ _ => rfl) _ _

@[simp] theorem powered_fenceJob (j : JobId) (i : FaultInfo) (s : State) : powered (fenceJob j i s) = powered s := by
  have h := congrArg (fun u : State => u.power.regs) (fenceJob_unfenced s j i s)
  exact Prod.ext (fenceJob_regions j i s) h

@[simp] theorem powered_raiseAlert (st : Status) (x : Word) (s : State) : powered (raiseAlert st x s) = powered s := by
  have hs (u : State) : powered (signalIbi st u) = powered u := by unfold signalIbi; split <;> rfl
  exact (hs _).trans (powered_modRings ..)

@[simp] theorem powered_portEnds (p : PortId) (s : State) : powered (portEnds p s) = powered s := by
  have hf (st : Status) (u : State) : powered (snapFail st u) = powered u := by unfold snapFail; split <;> simp
  unfold portEnds
  extract_lets s1
  have h1 : powered s1 = powered s := by
    dsimp only [s1]
    split
    · split
      · exact hf ..
      · rfl
    · rfl
  split
  · rw [powered_answer, powered_modSnap, h1]
  · exact h1

@[simp] theorem powered_portDrop (p : PortId) (state : BitVec 2) (reason : Nat) (s : State) :
    powered (portDrop p state reason s) = powered s := by
  have h0 : powered ((portOwners s p).foldl (fun u o => loseCommand o u) s) = powered s :=
    foldl_keeps powered (fun u o => loseCommand o u) (fun _ _ => rfl) _ _
  unfold portDrop
  dsimp only
  split
  · rw [powered_modFabric, powered_portEnds, foldl_keeps powered _ (fun _ _ => powered_fenceJob ..), powered_modPort,
      powered_modFabric, h0]
  · rw [powered_portEnds, foldl_keeps powered _ (fun _ _ => powered_fenceJob ..), powered_modPort, powered_modFabric, h0]

@[simp] theorem powered_retrainDown (s : State) : powered (retrainDown s) = powered s := by
  have hp (p : PortId) (u : State) : powered (portRetrain p u) = powered u := by
    unfold portRetrain portDown
    dsimp only
    split
    · rw [powered_modPort]; split <;> simp
    · rfl
  refine foldl_keeps powered _ (fun u p => ?_) _ s
  split
  · exact hp ..
  · rfl

@[simp] theorem powered_avsSend (mv : Nat) (s : State) : powered (avsSend mv s) = powered s := rfl

@[simp] theorem powered_clkEnd (st : Status) (s : State) : powered (clkEnd st s) = powered s := by
  have ha (u : State) : powered (avsUpdate u) = powered u := by unfold avsUpdate; dsimp only; split <;> rfl
  have hr (st : Status) (u : State) : powered (recoverEnd st u) = powered u := by unfold recoverEnd; split <;> simp
  unfold clkEnd
  split
  · rfl
  · dsimp only
    split <;> simp [ha, hr]

@[simp] theorem powered_clkIfDone (s : State) : powered (clkIfDone s) = powered s := by
  unfold clkIfDone
  split
  · split <;> simp
  · rfl

@[simp] theorem powered_queueRaises (s : State) : powered (queueRaises s) = powered s := by
  unfold queueRaises
  split
  · rfl
  · exact foldl_keeps powered (fun u (x : RegionId × Nat) => modPower u _) (fun _ _ => rfl) _ _

/-- A clock request begins with the entries of regions that do not run (R43). -/
theorem clkBegin_onlyIdle (b : ClockBy) (mask : BitVec 17) (idx : BitVec 4) (s : State) : OnlyIdleEntries s (clkBegin b mask idx s) := by
  unfold clkBegin
  extract_lets q0 tgt s1 left s2 need
  have h1 : OnlyIdleEntries s s1 := by
    refine foldl_inv (OnlyIdleEntries s) _ (fun u r h => h.trans ?_) allRegions s (.of_powered rfl)
    split
    · rename_i hr
      simp only [Bool.and_eq_true, Bool.not_eq_true'] at hr
      exact OnlyIdleEntries.setEntry u r _ hr.2
    · exact .of_powered rfl
  have h2 : powered s2 = powered s1 := powered_modPower _ _ fun _ => rfl
  clear_value need s2
  refine h1.trans (.of_powered (Eq.trans ?_ h2))
  split
  · rw [powered_avsSend, powered_modPower]
    exact fun _ => rfl
  · exact powered_queueRaises s2

/-- The end of a switch, of a region or of a request, leaves regions but for the entries of some that do not run (R43, R346). -/
theorem clkSettle_onlyIdle (s : State) : OnlyIdleEntries s (clkSettle s) := by
  unfold clkSettle
  split
  · exact .of_powered rfl
  · split
    · exact .of_powered rfl
    · split
      · exact (OnlyIdleEntries.of_powered (powered_clkEnd ..)).trans ((clkBegin_onlyIdle ..).trans (.of_powered (powered_clkIfDone _)))
      · refine (OnlyIdleEntries.of_powered (powered_clkIfDone s)).trans ?_
        unfold clkRecover
        split
        · exact (clkBegin_onlyIdle ..).trans (.of_powered (powered_clkIfDone _))
        · exact .of_powered rfl

theorem clkResume_onlyIdle (r : RegionId) (s : State) : OnlyIdleEntries s (clkResume r s) := by
  unfold clkResume
  split
  · split
    · exact (OnlyIdleEntries.of_powered rfl).trans (clkSettle_onlyIdle _)
    · exact .of_powered rfl
  · exact .of_powered rfl

/-! ### The end of a hold -/

/-- TALLY_HOLD_LAST of an event: it counts at least one period (R37, R38). -/
def lastOf (h : HoldRun) : TallyLast :=
  { cause := h.cause, queue := h.queue, core := h.core, tick := h.tick,
    periods := BitVec.ofNat 16 (Nat.min (Nat.max h.periods 1) 0xFFFF) }

/-- A hold that ends: it counts at least one period, TALLY_HOLD_LAST takes the event, and beside the periods and the tallies nothing of
the region's clock moves (R37, R38). -/
theorem holdOver_clock {r : RegionId} {s : State} {h : HoldRun} (hh : (regionAt s r).hold = some h) :
    (regionAt (holdOver r s) r).hold = none ∧ (regionAt (holdOver r s) r).tallyLast = lastOf h ∧
      (regionAt (holdOver r s) r).tick = (regionAt s r).tick ∧ (regionAt (holdOver r s) r).freqIdx = (regionAt s r).freqIdx ∧
      (regionAt (holdOver r s) r).switching = (regionAt s r).switching := by
  unfold holdOver holdEnd lastOf
  simp only [hh, regionAt_modRegion]
  by_cases hp : h.periods = 0
  · obtain ⟨ws, hc⟩ := clocks_heldPeriod r s
    obtain ⟨htick, -, hhold, -, -, -, hfreq, hsw⟩ := fields_of_clockPart (clockPart_at hc).1
    have hhold' : (regionAt (heldPeriod r s) r).hold =
        some { h with periods := h.periods + 1, crossing := if ws.isEmpty then 0 else h.crossing + 1 } := by
      rw [hhold]
      simp only [oneHeld, heldOn, hh, Option.map_some]
    simp only [hp, if_true, hhold', htick, hfreq, hsw]
    exact ⟨trivial, rfl, rfl, rfl, rfl⟩
  · have hm : Nat.max h.periods 1 = h.periods := Nat.max_eq_left (Nat.one_le_iff_ne_zero.2 hp)
    simp only [hp, if_false, hh, hm, and_self]

/-- The held slot commands issue and count no tick: beside the end of the hold no clock moves (R34). -/
theorem clocks_issueHeld (r : RegionId) (s : State) : clocks (issueHeld r s) = clocks (holdOver r s) := by
  unfold issueHeld
  rw [clocks_of_kept (kept_settleFaults ..)]
  refine clocks_foldl _ (fun u i => ?_) _ _
  split
  · rfl
  · rename_i x hx
    split
    · exact clocks_of_kept (kept_raiseFault ..)
    · exact clocks_of_kept (kept_effect hx u)

/-- The held tick issues and counts. -/
theorem clocks_holdRelease_tick {r : RegionId} {s : State} {h : HoldRun} (hh : (regionAt s r).hold = some h)
    (ht : regionTicks s r = true) (hu : unmetNow s r = []) (ho : (regionAt s r).heldOps = []) :
    clocks (holdRelease r s) = clocks (modRegion (holdOver r s) r oneTick) := by
  unfold holdRelease
  simp only [hh, ht, hu, ho, Option.isSome_some, List.isEmpty_nil, Bool.and_self, if_true]
  exact clocks_tickCommit r (clocks_tickBody ..)

/-- The held slot commands issue. -/
theorem clocks_holdRelease_ops {r : RegionId} {s : State} {h : HoldRun} (hh : (regionAt s r).hold = some h)
    (ht : regionTicks s r = true) (hu : unmetNow s r = []) (ho : (regionAt s r).heldOps ≠ []) :
    clocks (holdRelease r s) = clocks (holdOver r s) := by
  have he : (regionAt s r).heldOps.isEmpty = false := by simpa using ho
  unfold holdRelease
  simp only [hh, ht, hu, he, Option.isSome_some, List.isEmpty_nil, Bool.and_self, if_true, Bool.false_eq_true, if_false]
  exact clocks_issueHeld r s

/-- What follows a release in a clock request's work leaves the region's clock, but for its entry (R43). -/
theorem clkResume_clock (r : RegionId) (s : State) :
    (regionAt (clkResume r s) r).hold = (regionAt s r).hold ∧ (regionAt (clkResume r s) r).tallyLast = (regionAt s r).tallyLast ∧
      (regionAt (clkResume r s) r).tick = (regionAt s r).tick ∧ (regionAt (clkResume r s) r).switching = (regionAt s r).switching := by
  have h := ((clkResume_onlyIdle r s).2 r).1
  simp only [entryFree, Region.mk.injEq] at h
  simp only [h, and_self]

/-- Settles O17: the hold ends in `holdOver`, and the units that then issue leave the region's clock, which the held tick alone moves. -/
theorem holdEndsWhenConditionsMet : Obligations.HoldEndsWhenConditionsMet := by
  unfold Obligations.HoldEndsWhenConditionsMet
  intro r s h hh ht hu
  obtain ⟨chold, clast, ctick, -⟩ := clkResume_clock r (holdRelease r s)
  obtain ⟨ohold, olast, otick, -⟩ := holdOver_clock hh
  refine ⟨clkResume r (holdRelease r s), rfl, ?_⟩
  rw [chold, clast, ctick]
  by_cases ho : (regionAt s r).heldOps = []
  · obtain ⟨htick, -, hhold, -, -, hlast, -⟩ := fields_of_clockPart (clockPart_at (clocks_holdRelease_tick hh ht hu ho)).1
    exact ⟨hhold.trans ohold, hlast.trans olast, fun _ => htick.trans (congrArg (· + 1) otick), fun h => absurd ho h⟩
  · obtain ⟨htick, -, hhold, -, -, hlast, -⟩ := fields_of_clockPart (congrFun (clocks_holdRelease_ops hh ht hu ho) r)
    exact ⟨hhold.trans ohold, hlast.trans olast, fun h => absurd h ho, fun _ => htick.trans otick⟩

/-! ### The end of a clock switch -/

@[simp] theorem regionAt_modPower (s : State) (f : Power → Power) (r : RegionId) : regionAt (modPower s f) r = regionAt s r := rfl

theorem regionPeriod_power (r : RegionId) (s : State) : (regionPeriod r s).power = s.power := by
  have hq (c : CoreId) (u : State) : (requestPass c u).power = u.power := by
    unfold requestPass
    split
    · rfl
    · exact foldl_keeps State.power (fun u (p : Fin 8 × Piece) => modMem u p.1 _) (fun _ _ => rfl) _ _
  have hl (b : RegionId) (d : Dir) (q : RegionId) (u : State) : (lanePass b d q u).power = u.power := by
    unfold lanePass
    dsimp only
    split
    · rfl
    · split
      · rfl
      · split <;> rfl
  have hp (b : RegionId) (u : State) : (lanePeriod b u).power = u.power :=
    foldl_keeps State.power _ (fun u q => by rw [hl, hl]) _ _
  unfold regionPeriod
  rw [foldl_keeps State.power _ (fun u c => by rw [hq, modCore_power]), hp, modRegion_power]

theorem holdOver_power (r : RegionId) (s : State) : (holdOver r s).power = s.power := by
  have hh : (heldPeriod r s).power = s.power := by
    obtain ⟨js, ws, h⟩ := heldPeriod_eq r s
    rw [h, withJobs_power, modRegion_power, regionPeriod_power]
  unfold holdOver
  split
  · rw [holdEnd, modRegion_power]
    split
    · exact hh
    · rfl
  · rfl

/-- The end of a hold, where there is one, leaves the region's entry and the end of its switch. -/
theorem holdOver_entry (r : RegionId) (s : State) :
    (regionAt (holdOver r s) r).freqIdx = (regionAt s r).freqIdx ∧
      (regionAt (holdOver r s) r).switching = (regionAt s r).switching := by
  cases hh : (regionAt s r).hold with
  | none => simp only [holdOver, hh, and_self]
  | some h =>
    obtain ⟨-, -, -, hfreq, hsw⟩ := holdOver_clock hh
    exact ⟨hfreq, hsw⟩

/-- With the end of its switch a region that runs takes the new entry, whether its hold ends or goes on (R43). -/
theorem clockSwitchDone_entry {r : RegionId} {s : State} {q : ClockReq} (hq : s.power.clk = some q)
    (hsw : (regionAt s r).switching = true) (hr : regionRuns s r = true) :
    (regionAt (clockSwitchDone r s) r).switching = false ∧ (regionAt (clockSwitchDone r s) r).freqIdx = clkTarget s q r := by
  unfold clockSwitchDone
  rw [hq]
  dsimp only
  rw [if_pos hsw]
  generalize hs1 : modRegion s r (fun g => { g with switching := false, freqIdx := clkTarget s q r }) = s1
  have h1 : (regionAt s1 r).switching = false ∧ (regionAt s1 r).freqIdx = clkTarget s q r := by
    rw [← hs1, regionAt_modRegion]
    exact ⟨rfl, rfl⟩
  split
  · have hr1 : regionRuns (holdOver r s1) r = true := by
      rw [regionRuns, holdOver_power, ← hs1, modRegion_power]
      exact hr
    obtain ⟨hf, hs⟩ := holdOver_entry r s1
    rw [((clkResume_onlyIdle r (holdOver r s1)).2 r).2 hr1, hf, hs]
    exact h1
  · rw [regionAt_modRegion]
    exact h1

/-- A clock switch holds its region from the tick due on, without a crossing condition (R32, R43). -/
theorem regionClockSwitch_holds {r : RegionId} {s : State} {q : ClockReq} (hq : s.power.clk = some q) (hn : clkNext q = some r)
    (hv : q.waitsVolt = false) (he : q.ends = none) (hb : q.busy = none) (ha : clkAdmitted s q r = true)
    (hr : regionRuns s r = true) (hh : (regionAt s r).hold = none) :
    ∃ x, regionAt (regionClockSwitch r s) r = { heldSince [] x (regionAt s r) with switching := true } := by
  obtain ⟨js, x, h⟩ := holdBegin_starts [] hh
  unfold regionClockSwitch
  rw [hq]
  dsimp only
  rw [if_pos ⟨hn, hv, he, hb, ha⟩, if_pos hr, h]
  refine ⟨x, ?_⟩
  rw [regionAt_modPower, regionAt_modRegion, regionAt_withJobs, regionAt_modRegion]

/-- Settles O18: each event's guard decides it, and what follows the end of a switch leaves the entries of regions that run. -/
theorem regionClockEvents : Obligations.RegionClockEvents := by
  unfold Obligations.RegionClockEvents
  intro r mv s q g
  refine ⟨fun hr hm => congrArg Host.Outcome.next ?_, fun hm => congrArg Host.Outcome.next ?_,
    fun hl hr hb hv => congrArg Host.Outcome.next ?_, ?_, fun hq hsw hr => ?_⟩
  · have hd : droopStretch r mv s = modRegion s r _ := if_pos (by rw [hr, Bool.true_and, decide_eq_true_eq]; exact hm)
    exact hd
  · exact if_neg (by rw [Bool.and_eq_true, decide_eq_true_eq]; exact fun h => absurd h.2 (Nat.not_lt.2 hm))
  · have hc : ((regionAt s r).lockstep && regionRuns s r && !s.power.avsBusy &&
        decide (neededMv s (needEntry s) ≤ s.power.avsReq.toNat)) = true := by
      simp only [show (regionAt s r).lockstep = true from hl, hr, hb, hv, Bool.not_false, decide_true, Bool.and_self]
    exact if_pos hc
  · intro hq hn hv he hb ha hr hh
    obtain ⟨x, h⟩ := regionClockSwitch_holds hq hn hv he hb ha hr hh
    refine ⟨regionClockSwitch r s, rfl, ?_⟩
    rw [h]
    exact ⟨rfl, ⟨_, rfl, rfl⟩, rfl⟩
  · obtain ⟨h1, h2⟩ := clockSwitchDone_entry hq hsw hr
    refine ⟨clockSwitchDone r s, rfl, h1, h2.trans ?_⟩
    unfold clkTarget
    cases q.by_ <;> rfl

/-! ### Folds that one element, or every element's turn, decides -/

/-- Two folds agree whose steps agree wherever the second has come. -/
theorem foldl_eq_of_turns {α β : Type} {f g : β → α → β} (l : List α) (b : β)
    (h : ∀ before a after, l = before ++ a :: after → f (before.foldl g b) a = g (before.foldl g b) a) :
    l.foldl f b = l.foldl g b := by
  induction l generalizing b with
  | nil => rfl
  | cons a r ih =>
    have h0 : f b a = g b a := h [] a r rfl
    rw [List.foldl_cons, List.foldl_cons, h0]
    exact ih _ fun before x after e => h (a :: before) x after (by rw [e]; rfl)

/-- A fold of which every step but that of one element does nothing is that step. -/
theorem foldl_eq_single {α β : Type} {f : β → α → β} {l : List α} {a : α} {b b' : β} (hn : l.Nodup) (ha : a ∈ l)
    (hbefore : ∀ x ∈ l, x ≠ a → f b x = b) (hstep : f b a = b') (hafter : ∀ x ∈ l, x ≠ a → f b' x = b') :
    l.foldl f b = b' := by
  induction l with
  | nil => cases ha
  | cons x r ih =>
    obtain ⟨hx, hn⟩ := List.nodup_cons.1 hn
    rw [List.foldl_cons]
    by_cases e : x = a
    · subst e
      rw [hstep]
      have hid : ∀ (m : List α), (∀ y ∈ m, f b' y = b') → m.foldl f b' = b' := by
        intro m
        induction m with
        | nil => exact fun _ => rfl
        | cons y m ihm =>
          intro hm
          rw [List.foldl_cons, hm y List.mem_cons_self]
          exact ihm fun z hz => hm z (List.mem_cons_of_mem _ hz)
      exact hid r fun y hy => hafter y (List.mem_cons_of_mem _ hy) (fun e => hx (e ▸ hy))
    · rw [hbefore x List.mem_cons_self e]
      exact ih hn ((List.mem_cons.1 ha).resolve_left (Ne.symm e)) (fun y hy => hbefore y (List.mem_cons_of_mem _ hy))
        (fun y hy => hafter y (List.mem_cons_of_mem _ hy))

theorem coresOf_nodup (r : RegionId) : (coresOf r).Nodup :=
  List.Pairwise.map (coreOf r) (fun i j hne h => hne (Fin.ext (by
    have hv := congrArg Fin.val h
    simp only [coreOf] at hv
    omega))) (List.nodup_finRange 4)

theorem mem_coresOf {c : CoreId} {r : RegionId} : c ∈ coresOf r ↔ regionOf c = r := by
  constructor
  · intro h
    obtain ⟨i, -, rfl⟩ := List.mem_map.1 h
    exact Fin.ext (by simp only [regionOf, coreOf]; omega)
  · rintro rfl
    exact List.mem_map.2 ⟨⟨c.val % 4, by omega⟩, List.mem_finRange _, Fin.ext (by simp only [regionOf, coreOf]; omega)⟩

/-! ### The operations of other cores -/

/-- A fault is its region's. -/
theorem coreAt_raiseFault (c d : CoreId) (n : Nat) (i : FaultInfo) (s : State) : coreAt (raiseFault c n i s) d = coreAt s d := rfl

theorem ops_flmError (c d : CoreId) (e : Dir) (crc : Bool) (s : State) : (coreAt (flmError c e crc s) d).ops = (coreAt s d).ops :=
  modCore_keeps Core.ops _ _ _ _ fun _ => rfl

theorem ops_ringPut (c d : CoreId) (e : Dir) (f : Flit) (issued : Nat) (s : State) :
    (coreAt (ringPut c e f issued s) d).ops = (coreAt s d).ops := by
  have hr (u : State) (x : Option Flit) : (coreAt (modCore u c (fun k => setRing k e x)) d).ops = (coreAt u d).ops :=
    modCore_keeps Core.ops _ _ _ _ fun k => by cases e <;> rfl
  unfold ringPut
  split
  · exact hr ..
  · rw [coreAt_raiseFault, ops_flmError, hr]

theorem ops_fxinTake (c d : CoreId) (e : Dir) (issued : Nat) (s : State) :
    (coreAt (fxinTake c e issued s) d).ops = (coreAt s d).ops := by
  unfold fxinTake
  dsimp only
  split
  · rfl
  · rw [ops_ringPut]
    split
    · rfl
    · rw [coreAt_raiseFault, ops_flmError, coreAt_modRegion]

theorem ops_setEp (c d : CoreId) (e : Fin 32) (f : Endpoint → Endpoint) (s : State) :
    (coreAt (setEp c e f s) d).ops = (coreAt s d).ops := modCore_keeps Core.ops _ _ _ _ fun _ => rfl

theorem ops_sendItem (c d : CoreId) (e : Fin 32) (w : BitVec 29) (gen : BitVec 4) (kind : ChMsgKind) (s : State) :
    (coreAt (sendItem c e w gen kind s) d).ops = (coreAt s d).ops := by
  unfold sendItem
  split
  · rfl
  · dsimp only
    rw [apply_ite (fun u => (coreAt u d).ops), coreAt_modRegion, ops_setEp, ite_self]

theorem ops_csendStep (c d : CoreId) (e : Fin 32) (issued : Nat) (s : State) :
    (coreAt (csendStep c e issued s) d).ops = (coreAt s d).ops := by
  unfold csendStep
  dsimp only
  split
  · split
    · rw [ops_setEp]
      exact modCore_keeps Core.ops _ _ _ _ fun _ => rfl
    · rfl
  · split
    · rfl
    · rw [ops_sendItem, ops_setEp, ops_setEp]

theorem coreAt_captureStep_ne (c : CoreId) {d : CoreId} (e : Dir) (o : Strm) (f : Core → Strm → Core) (s : State) (h : d ≠ c) :
    coreAt (captureStep c e o f s) d = coreAt s d := by
  have hc : coreAt (captureFlit c e o.issued s).1 d = coreAt s d := by
    unfold captureFlit
    split
    · rfl
    · split
      · exact coreAt_modCore_ne _ _ _ _ h
      · exact (coreAt_raiseFault ..).trans (coreAt_modCore_ne _ _ _ _ h)
  unfold captureStep
  split <;> rename_i heq <;> rw [heq] at hc
  · exact hc
  · rw [coreAt_modCore_ne _ _ _ _ h]; exact hc

/-- A step of an operation leaves the operations of every other core. -/
theorem ops_opRun_ne (c : CoreId) {d : CoreId} (o : Strm) (t : Nat) (s : State) (h : d ≠ c) :
    (coreAt (opRun c o t s) d).ops = (coreAt s d).ops := by
  unfold opRun
  split
  case h_2 => split <;> simp only [coreAt_modCore_ne _ _ _ _ h, coreAt_captureStep_ne _ _ _ _ _ h]
  all_goals simp only [coreAt_modCore_ne _ _ _ _ h, coreAt_captureStep_ne _ _ _ _ _ h, ops_fxinTake, ops_csendStep]

theorem ops_stepAll_ne (c : CoreId) {d : CoreId} (now : Nat) (found : Vector Tile 32) (os : List Strm) (s : State) (h : d ≠ c) :
    (coreAt (stepAll c now found os s) d).ops = (coreAt s d).ops :=
  foldl_keeps (fun u : State => (coreAt u d).ops) _ (fun u o => by
    rw [opAdvance, coreAt_modCore_ne _ _ _ _ h, opStep, coreAt_modCore_ne _ _ _ _ h, ops_opRun_ne _ _ _ _ h,
      coreAt_modCore_ne _ _ _ _ h]) _ _

theorem ops_settleFaults (r : RegionId) (s : State) (c : CoreId) : (coreAt (settleFaults r s) c).ops = (coreAt s c).ops := by
  have h := congrArg Core.ops (settleFaults_unrun r s c)
  exact h

/-! ### The steps of units, one command each -/

/-- Where no wait is unmet, the operations that have a step due take it one after the other. -/
theorem runOps_eq_stepAll {want : Instr → Bool} {c : CoreId} {s : State} (h : stepsFree want c s) :
    runOps want c (nowAt s c) (coreAt s c).tiles s =
      stepAll c (nowAt s c) (coreAt s c).tiles (dueOps want (coreAt s c) (nowAt s c)) s :=
  foldl_eq_of_turns _ _ fun before o after e => by
    have hw := h before o after e
    rw [stepAll] at hw
    rw [hw]

/-- A unit's step command in a region without a hold that meets no unmet wait. -/
theorem runKind_eq_stepped {want : Instr → Bool} {c : CoreId} {s : State} (hu : unitsStep s c = true)
    (hw : (regionAt s (regionOf c)).waits = []) (h : stepsFree want c s) : runKind want c s = stepped want c s := by
  refine (if_pos hu).trans ?_
  rw [runOps_eq_stepAll h, waits_of_kept (kept_stepAll ..), hw]
  rfl

/-- A unit's step command with no step due changes nothing. -/
theorem runKind_of_noneDue {want : Instr → Bool} {c : CoreId} {s : State} (hd : dueOps want (coreAt s c) (nowAt s c) = [])
    (hw : (regionAt s (regionOf c)).waits = []) (hf : (regionAt s (regionOf c)).faults = []) : runKind want c s = s := by
  unfold runKind
  dsimp only
  split
  · rw [runOps, hd, List.foldl_nil, hw]
    exact settleFaults_none _ _ hf
  · rfl

/-- After a core's step of streams its region has met no wait and has settled its faults, and no other core has another step due. -/
theorem stepped_leaves (want want' : Instr → Bool) (c : CoreId) {d : CoreId} (s : State) (h : d ≠ c) :
    kept (stepped want c s) = kept s ∧ (regionAt (stepped want c s) (regionOf c)).faults = [] ∧
      dueOps want' (coreAt (stepped want c s) d) (nowAt (stepped want c s) d) = dueOps want' (coreAt s d) (nowAt s d) := by
  have hk : kept (stepped want c s) = kept s := by rw [stepped, kept_settleFaults, kept_stepAll]
  have ho : (coreAt (stepped want c s) d).ops = (coreAt s d).ops := by rw [stepped, ops_settleFaults, ops_stepAll_ne _ _ _ _ _ h]
  have hn : nowAt (stepped want c s) d = nowAt s d := by rw [nowAt, tickOf, tick_of_clocks (clocks_of_kept hk), nowAt, tickOf]
  refine ⟨hk, ?_, by rw [dueOps, dueOps, ho, hn]⟩
  rw [stepped, regionAt, settleFaults_regions]
  exact congrArg Region.faults (regionAt_modRegion ..)

/-- The reads of FXIN that one core of a region has due (R135). -/
theorem fxinRead_eq_stepped {c : CoreId} {s : State} (hc : ∀ e ∈ coresOf (regionOf c), stepsClean s e)
    (want : Instr → Bool) (hd : ∀ e ∈ coresOf (regionOf c), e ≠ c → dueOps want (coreAt s e) (nowAt s e) = [])
    (hf : stepsFree want c s) : (coresOf (regionOf c)).foldl (fun u e => runKind want e u) s = stepped want c s := by
  have hmem : c ∈ coresOf (regionOf c) := mem_coresOf.2 rfl
  obtain ⟨hu, hw, -⟩ := hc c hmem
  refine foldl_eq_single (coresOf_nodup _) hmem (fun e he hne => ?_) (runKind_eq_stepped hu hw hf) (fun e he hne => ?_)
  · obtain ⟨-, hwe, hfe⟩ := hc e he
    exact runKind_of_noneDue (hd e he hne) hwe hfe
  · obtain ⟨hk, hfaults, hdue⟩ := stepped_leaves want want c s hne
    rw [mem_coresOf] at he
    refine runKind_of_noneDue (hdue.trans (hd e (mem_coresOf.2 he) hne)) ?_ ?_
    · rw [waits_of_kept hk, he, hw]
    · rw [he, hfaults]

/-- Operations of a kind that never waits meet no unmet wait. -/
theorem stepsFree_of_noWait {want : Instr → Bool} {c : CoreId} (s : State) (h : ∀ u o, want o.instr = true → opWait u c o = none) :
    stepsFree want c s := by
  intro before o after e
  have ho : o ∈ dueOps want (coreAt s c) (nowAt s c) := by rw [e]; exact List.mem_append_right _ List.mem_cons_self
  simp only [dueOps, List.mem_filter, Bool.and_eq_true] at ho
  exact h _ _ ho.2.1.1

/-- The steps of row groups that follow the writes at the write port, where those meet no full queue (R197, R223). -/
theorem runKind_afterLate {c : CoreId} {s : State}
    (hw : (regionAt (runLate c (nowAt s c) s) (regionOf c)).waits = []) (want : Instr → Bool)
    (hf : unitsStep (settleFaults (regionOf c) (runLate c (nowAt s c) s)) c = true →
      stepsFree want c (settleFaults (regionOf c) (runLate c (nowAt s c) s))) :
    runKind want c (settleFaults (regionOf c) (runLate c (nowAt s c) s)) =
      if unitsStep (settleFaults (regionOf c) (runLate c (nowAt s c) s)) c = true
      then stepped want c (settleFaults (regionOf c) (runLate c (nowAt s c) s))
      else settleFaults (regionOf c) (runLate c (nowAt s c) s) := by
  generalize hs : settleFaults (regionOf c) (runLate c (nowAt s c) s) = s1 at hf ⊢
  have hw1 : (regionAt s1 (regionOf c)).waits = [] := by rw [← hs, waits_of_kept (kept_settleFaults ..), hw]
  by_cases h1 : unitsStep s1 c = true
  · rw [if_pos h1]
    exact runKind_eq_stepped h1 hw1 (hf h1)
  · rw [if_neg h1]
    exact if_neg h1

/-- The results of a unit that are due show in a core whose units may step (R45, R46). -/
theorem settleKind_lands (want : Eff → Bool) {c : CoreId} {s : State} (hu : unitsStep s c = true) :
    settleKind want c s = settleFaults (regionOf c) ((dueResults want s c).foldl (fun u p => applyPend c p u) (withoutDue want s c)) :=
  if_pos hu

/-- Settles O21: results land as their unit's command settles them, and operations that meet no unmet wait take their steps one after
the other; of a region's FXIN reads every core's but the one's are idle before its step and after it. -/
theorem unitResultsLand : Obligations.UnitResultsLand := by
  unfold Obligations.UnitResultsLand
  intro c m d s hu r lands
  refine ⟨congrArg Host.Outcome.next (settleKind_lands _ hu), congrArg Host.Outcome.next (settleKind_lands _ hu),
    congrArg Host.Outcome.next (settleKind_lands _ hu), congrArg Host.Outcome.next (settleKind_lands _ hu),
    congrArg Host.Outcome.next (settleKind_lands _ hu), congrArg Host.Outcome.next (if_pos hu), fun hclean => ?_⟩
  obtain ⟨-, hw, -⟩ := hclean
  refine ⟨fun hf => congrArg Host.Outcome.next (runKind_eq_stepped hu hw hf),
    fun hf => congrArg Host.Outcome.next (runKind_eq_stepped hu hw hf), ?_,
    fun hc hd hf => congrArg Host.Outcome.next (fxinRead_eq_stepped hc _ hd hf), fun hw0 hputs => ?_⟩
  · refine congrArg Host.Outcome.next (runKind_eq_stepped hu hw (stepsFree_of_noWait s fun u o ho => ?_))
    unfold opWait
    split
    case h_7 => rfl
    all_goals
      rename_i hi
      rw [hi] at ho
      exact absurd ho Bool.false_ne_true
  · exact congrArg Host.Outcome.next ((if_pos hu).trans ((if_pos (List.isEmpty_iff.2 hw0)).trans (runKind_afterLate hw0 _ hputs)))

/-! ### Idle steps -/

/-- Regions that do not hold stay as they are while no command waits (R33). -/
theorem idleHolds_none {s : State} (h : ∀ r, (regionAt s r).hold = none) : idleHolds s = s := by
  unfold idleHolds
  refine foldl_inv (fun u => u = s) _ (fun u r hu => ?_) _ s rfl
  rw [hu, h r]
  rfl

/-- Settles O2: where no region holds, the idle step moves the counts it names alone. -/
theorem emptyQueueIdles : Obligations.EmptyQueueIdles := by
  unfold Obligations.EmptyQueueIdles
  intro s hp hall
  have hstep : step s = .next (idle s) := by rw [step, hp]
  have hnone (r : RegionId) : (regionAt s r).hold = none := by
    have hm : regionAt s r ∈ s.regions.toList := by
      rw [Vector.mem_toList_iff]; exact Vector.getElem_mem r.isLt
    simpa using List.all_eq_true.1 hall _ hm
  refine ⟨fun h => ?_, fun haon hlow => ?_⟩
  · rw [hstep, idle, if_neg]
    rcases h with h | h <;> simp [h]
  · rw [hstep, idle, if_pos (by rw [haon, hlow]; rfl)]
    dsimp only
    have htail : s.power.avsTail - bitNat s.power.avsAcked =
        if s.power.avsAcked = true then s.power.avsTail - 1 else s.power.avsTail := by
      cases s.power.avsAcked <;> rfl
    rw [idleHolds_none]
    · by_cases hmgt : s.power.regs.get 26 = .running <;> by_cases hio : s.power.regs.get 27 = .running <;>
        simp only [powAt, modPower, modFabric, hmgt, hio, if_true, if_false, htail]
    · intro r
      rw [regionAt_modPower]
      split <;> split <;> exact hnone r

/-! ### Waits that are met, and what acts at once -/

/-- A slot instruction that meets neither an unmet wait nor a fault has its own effect. -/
theorem exec_slot_effect {i : Instr} {x : Issue} {s : State} (hx : issueOf i = some x) (hi : i.wf = true)
    (hc : canIssue s x.core = true) (hw : x.wait s = none) (hf : x.fault s = none) : exec i s = .next (x.effect s) := by
  rw [exec_slot s hx hi, runIssue_effect hc hw hf]

/-- Settles O7: a well-formed slot instruction runs its issue, whose branches these are. -/
theorem slotIssueOutcome : Obligations.SlotIssueOutcome := by
  unfold Obligations.SlotIssueOutcome
  intro i x s hx hi
  rw [exec_slot s hx hi]
  exact ⟨fun hc => congrArg _ (runIssue_idle hc), fun h hc hw => congrArg _ (runIssue_wait hc hw),
    fun f hc hw hf => congrArg _ (runIssue_fault hc hw hf), fun hc hw hf => congrArg _ (runIssue_effect hc hw hf)⟩

theorem modCore_id (s : State) (c : CoreId) : modCore s c id = s := setCore_coreAt s c

theorem entriesWait_none {s : State} {c : CoreId} {q : QId} {n : Nat} (h : n ≤ qReadable (qOf (coreAt s c) q) (periodAt s c)) :
    entriesWait c q n s = none := if_neg (Nat.not_lt.2 h)

theorem sarmWait_none {s : State} {c : CoreId} {q : QId} (hs : (qOf (coreAt s c) q).staged = true)
    (h : ∀ y ∈ (qOf (coreAt s c) q).rel, (qOf (coreAt s c) q).armMark ≤ y.seqNo) : sarmWait c q s = none := by
  have ha : ((qOf (coreAt s c) q).rel.any (fun r => decide (r.seqNo < (qOf (coreAt s c) q).armMark))) = false := by
    simpa using h
  simp only [sarmWait, ha, hs, Bool.false_eq_true, if_false, if_true]

/-- A queue's release that breaks no bound of R187. -/
theorem sdescBad_false {x : StreamQ} {n : Nat} (hl : x.limit ≠ 0) (hn : 0 < n) (h : n + x.rel.length ≤ x.llen.toNat) :
    sdescBad x n = false := by
  have h0 : x.llen ≠ 0 := by rintro e; rw [e] at h; simp at h; omega
  simp only [sdescBad, Bool.or_eq_false_iff, decide_eq_false_iff_not]
  exact ⟨⟨hl, h0⟩, by omega⟩

/-- An instruction whose target no open endpoint names waits as without the check of R215. -/
theorem withTargetCheck_wait {named : Core → Bool} {x : Issue} {s : State} (hn : named (coreAt s x.core) = false) :
    (withTargetCheck named x).wait s = x.wait s := if_neg (by rw [hn]; exact Bool.false_ne_true)

/-- An instruction that faults neither by itself nor by the check of R215. -/
theorem withTargetCheck_fault {named : Core → Bool} {x : Issue} {s : State} (hn : named (coreAt s x.core) = false)
    (hf : x.fault s = none) : (withTargetCheck named x).fault s = none := by
  simp only [withTargetCheck, hf, hn, Bool.false_eq_true, if_false]

theorem firstFault_single_none {c : CoreId} {b : Bool} {st : Status} (h : b = false) : firstFault c [(b, st)] = none := by
  rw [h]; rfl

/-- A CWAIT on a flag that has reached its limit, of an open endpoint that lands flags (R218). -/
theorem cwait_passes {s : State} {c : CoreId} {e : Fin 32} {r : SReg} (hr : isRecvEnd (epOf (coreAt s c) e) = true)
    (hl : chLand (epOf (coreAt s c) e).word = 4)
    (h : fieldOf (sreg (coreAt s c) r).toNat 0 32 ≤ (epOf (coreAt s c) e).flag.toNat) :
    (cwaitIssue c e r).wait s = none ∧ (cwaitIssue c e r).fault s = none := by
  have hu : decide ((epOf (coreAt s c) e).flag.toNat < fieldOf (sreg (coreAt s c) r).toNat 0 32) = false :=
    decide_eq_false (Nat.not_lt.2 h)
  constructor
  · simp only [cwaitIssue, hu, Bool.and_false, Bool.false_and, Bool.false_eq_true, if_false]
  · simp only [cwaitIssue, hr, hl, hu, Bool.not_true, ne_eq, not_true_eq_false, decide_false, Bool.or_self, Bool.false_eq_true, if_false]

/-- The value that a wait compares: the low 32 bits of a scalar register. -/
theorem fieldOf_low32 (n : Nat) : fieldOf n 0 32 = n % 2 ^ 32 := by rw [fieldOf, Nat.pow_zero, Nat.div_one]

/-- Settles O15: under its hypotheses each instruction meets neither an unmet wait nor a fault, so its own effect takes place. -/
theorem waitsAndReleases : Obligations.WaitsAndReleases := by
  unfold Obligations.WaitsAndReleases
  intro s c q n d e g f r hc k x limit
  have hlim : fieldOf (sreg k r).toNat 0 32 = limit := fieldOf_low32 _
  refine ⟨fun h => ⟨?_, ?_⟩, fun hl hd hq => ?_, fun hs ha => ?_, fun h => ?_, fun h1 h2 h3 => ?_, fun h => ?_, fun h => ?_,
    fun h => ?_, fun h1 h2 => ?_⟩
  · rw [exec_slot_effect (x := waitqIssue c q n) rfl rfl hc (entriesWait_none h) rfl]
    exact congrArg _ (modCore_id s c)
  · exact exec_slot_effect (x := sdropIssue c q n) rfl rfl hc (entriesWait_none h) rfl
  · have hb : sdescBad (qOf (coreAt s c) q) (d.val + 1) = false := sdescBad_false hl (by omega) hd
    refine exec_slot_effect (x := sdescFull c q d) rfl rfl hc ?_ ?_
    · rw [sdescFull, withTargetCheck_wait hq]
      refine if_neg ?_
      rw [hb, Bool.not_false, Bool.true_and, decide_eq_true_eq, Nat.not_lt, Nat.add_comm]
      exact hd
    · exact withTargetCheck_fault hq (firstFault_single_none hb)
  · exact exec_slot_effect (x := sarmIssue c q) rfl rfl hc (sarmWait_none hs ha) rfl
  · rw [exec_slot_effect (x := sfenceIssue c q) rfl rfl hc (if_neg (Nat.not_lt.2 h)) rfl]
    exact congrArg _ (modCore_id s c)
  · obtain ⟨hw, hf⟩ := cwait_passes h1 h2 (hlim ▸ h3)
    exact exec_slot_effect (x := cwaitIssue c e r) rfl rfl hc hw hf
  · refine exec_slot_effect (x := kwaitIssue c g r) rfl rfl hc (if_neg ?_) rfl
    rw [hlim]; exact Nat.not_lt.2 h
  · refine exec_slot_effect (x := xwaitIssue c f r) rfl rfl hc (if_neg ?_) rfl
    rw [hlim]; exact Nat.not_lt.2 h
  · refine exec_slot_effect (x := xsyncIssue c r) rfl rfl hc (if_neg ?_) rfl
    rw [hlim]; exact Nat.not_lt.2 h
  · refine exec_slot_effect (x := cackIssue c e n) rfl rfl hc rfl (firstFault_single_none ?_)
    rw [h1, Bool.not_true, Bool.false_or]
    exact decide_eq_false h2

end Sys2Proof.Machine

/-! SUPPORT. What an accumulator, a wide tile and a vector register hold after a unit's write, and that a wide tile's sum is free of
the order of its additions (R60, R69, R145). -/

namespace Sys2Proof.Machine

/-! ### Canonical maps are equal where they read alike -/

/-- A canonical map's first entry differs from the default, and the others rise above it in canonical form. -/
theorem cellWf_cons {β : Type} [DecidableEq β] {d v : β} {k : Nat} {r : List (Nat × β)} (h : cellWf d ((k, v) :: r) = true) :
    cellRising k r = true ∧ v ≠ d ∧ cellWf d r = true := by
  simp only [cellWf, List.all_cons, Bool.and_eq_true, decide_eq_true_eq] at h
  obtain ⟨hr, hv, ha⟩ := h
  refine ⟨hr, hv, ?_⟩
  cases r with
  | nil => rfl
  | cons e r =>
    rw [cellRising, Bool.and_eq_true] at hr
    exact Bool.and_eq_true_iff.2 ⟨hr.2, ha⟩

/-- An index below a canonical map's first one reads as the default. -/
theorem cellGet_below_head {β : Type} [DecidableEq β] {d v : β} {k a : Nat} {r : List (Nat × β)}
    (h : cellWf d ((k, v) :: r) = true) (hk : a < k) : cellGet d ((k, v) :: r) a = d :=
  cellGet_below d _ a a (by rw [cellRising, (cellWf_cons h).1, decide_eq_true hk, Bool.and_true]) (Nat.le_refl a)

@[simp] theorem cellGet_head {β : Type} (d v : β) (k : Nat) (r : List (Nat × β)) : cellGet d ((k, v) :: r) k = v := if_pos rfl

/-- Two canonical maps that read alike at every index are one map. -/
theorem cells_ext {β : Type} [DecidableEq β] (d : β) (m n : List (Nat × β)) (hm : cellWf d m = true) (hn : cellWf d n = true)
    (h : ∀ a, cellGet d m a = cellGet d n a) : m = n := by
  induction m generalizing n with
  | nil =>
    cases n with
    | nil => rfl
    | cons e n =>
      have hk := h e.1
      rw [cellGet_head] at hk
      exact absurd hk.symm (cellWf_cons hn).2.1
  | cons e m ih =>
    obtain ⟨k, v⟩ := e
    obtain ⟨hrm, hv, hwm⟩ := cellWf_cons hm
    cases n with
    | nil =>
      have hk := h k
      rw [cellGet_head] at hk
      exact absurd hk hv
    | cons e n =>
      obtain ⟨l, w⟩ := e
      obtain ⟨hrn, hw, hwn⟩ := cellWf_cons hn
      rcases Nat.lt_trichotomy k l with hlt | rfl | hlt
      · have hk := h k
        rw [cellGet_head, cellGet_below_head hn hlt] at hk
        exact absurd hk hv
      · have hk := h k
        rw [cellGet_head, cellGet_head] at hk
        refine List.cons_eq_cons.2 ⟨by rw [hk], ih n hwm hwn fun a => ?_⟩
        by_cases ha : a = k
        · rw [ha, cellGet_below d m k k hrm (Nat.le_refl k), cellGet_below d n k k hrn (Nat.le_refl k)]
        · simpa only [cellGet, if_neg ha] using h a
      · have hk := h l
        rw [cellGet_head, cellGet_below_head hm hlt] at hk
        exact absurd hk.symm hw

/-! ### Rows of a wide tile -/

/-- What a row's addition adds to the element at index `i` of a wide tile: its addend there, 0 outside the row (R69). -/
def rowAddend (row : Nat) (adds : List Int) (i : Nat) : BitVec 128 :=
  if row * 128 ≤ i then BitVec.ofInt 128 (adds.getD (i - row * 128) 0) else 0

theorem rowAddend_elem {row r c : Nat} {adds : List Int} (ha : adds.length = 128) (hc : c < 128) :
    rowAddend row adds (r * 128 + c) = if r = row then BitVec.ofInt 128 (adds.getD c 0) else 0 := by
  unfold rowAddend
  rcases Nat.lt_trichotomy r row with hr | rfl | hr
  · rw [if_neg (by omega), if_neg (by omega)]
  · rw [if_pos (by omega), if_pos rfl, Nat.add_sub_cancel_left]
  · rw [if_pos (by omega), if_neg (by omega), List.getD_eq_getElem?_getD, List.getElem?_eq_none (by omega)]
    rfl

/-- One element's part of a row's addition. -/
def wideElemStep (row : Nat) (adds : List Int) (m : List (Nat × BitVec 128)) (j : Nat) : List (Nat × BitVec 128) :=
  cellSet 0#128 m (row * 128 + j) (cellGet 0#128 m (row * 128 + j) + BitVec.ofInt 128 (adds.getD j 0))

theorem wideElems_eq_foldl (es : List (Nat × BitVec 128)) (row : Nat) (adds : List Int) :
    wideElems es row adds = (List.range adds.length).foldl (wideElemStep row adds) es := rfl

theorem cellWf_foldl_wideElemStep {es : List (Nat × BitVec 128)} (row : Nat) (adds : List Int) (js : List Nat)
    (h : cellWf 0#128 es = true) : cellWf 0#128 (js.foldl (wideElemStep row adds) es) = true :=
  foldl_inv (fun m => cellWf 0#128 m = true) _ (fun m _ hm => cellWf_cellSet _ m _ _ hm) js es h

/-- A row's addition keeps the canonical form of a wide tile. -/
theorem cellWf_wideElems {es : List (Nat × BitVec 128)} (row : Nat) (adds : List Int) (h : cellWf 0#128 es = true) :
    cellWf 0#128 (wideElems es row adds) = true := cellWf_foldl_wideElemStep row adds _ h

/-- After its first `n` elements, a row's addition has added its addends to those alone. -/
theorem cellGet_foldl_wideElemStep {es : List (Nat × BitVec 128)} (row : Nat) (adds : List Int) (n i : Nat)
    (h : cellWf 0#128 es = true) :
    cellGet 0#128 ((List.range n).foldl (wideElemStep row adds) es) i =
      cellGet 0#128 es i + if i < row * 128 + n then rowAddend row adds i else 0 := by
  induction n with
  | zero =>
    have h0 : (if i < row * 128 + 0 then rowAddend row adds i else 0) = 0 := by
      split
      · exact if_neg (by omega)
      · rfl
    rw [h0]
    exact (BitVec.add_zero _).symm
  | succ n ih =>
    rw [List.range_succ, List.foldl_append, List.foldl_cons, List.foldl_nil, wideElemStep,
      cellGet_cellSet _ _ _ _ _ (cellWf_foldl_wideElemStep row adds _ h)]
    by_cases hi : i = row * 128 + n
    · subst hi
      rw [if_pos rfl, ih, if_neg (by omega), if_pos (by omega), rowAddend, if_pos (by omega), Nat.add_sub_cancel_left]
      exact congrArg (· + _) (BitVec.add_zero _)
    · have hiff : i < row * 128 + n ↔ i < row * 128 + (n + 1) := by omega
      rw [if_neg hi, ih]
      simp only [hiff]

/-- A row's addition adds, modulo 2^128, each addend to its element and nothing to any other (R68, R69). -/
theorem cellGet_wideElems {es : List (Nat × BitVec 128)} (row : Nat) (adds : List Int) (i : Nat) (h : cellWf 0#128 es = true) :
    cellGet 0#128 (wideElems es row adds) i = cellGet 0#128 es i + rowAddend row adds i := by
  rw [wideElems_eq_foldl, cellGet_foldl_wideElemStep row adds _ i h]
  split
  · rfl
  · rw [rowAddend, List.getD_eq_getElem?_getD, List.getElem?_eq_none (by omega)]
    exact congrArg (_ + ·) (ite_self 0).symm

/-- Settles O23: every element holds the sum of what both rows add to it, whichever comes first. -/
theorem wideSumOrderFree : Obligations.WideSumOrderFree := by
  unfold Obligations.WideSumOrderFree
  intro es r1 r2 a b hes _ _
  refine cells_ext 0#128 _ _ (cellWf_wideElems _ _ (cellWf_wideElems _ _ hes)) (cellWf_wideElems _ _ (cellWf_wideElems _ _ hes))
    fun i => ?_
  rw [cellGet_wideElems _ _ _ (cellWf_wideElems _ _ hes), cellGet_wideElems _ _ _ hes,
    cellGet_wideElems _ _ _ (cellWf_wideElems _ _ hes), cellGet_wideElems _ _ _ hes]
  rw [BitVec.add_assoc, BitVec.add_comm (rowAddend r1 a i), ← BitVec.add_assoc]

/-! ### Arrays, wide tiles and vector registers of a core -/

@[simp] theorem arrOf_modArr (k : Core) (m : Fin 4) (f : Arr → Arr) : arrOf (modArr k m f) m = f (arrOf k m) := get_set_self ..

theorem arrOf_modArr_ne (k : Core) {m n : Fin 4} (f : Arr → Arr) (h : n ≠ m) : arrOf (modArr k m f) n = arrOf k n :=
  get_set_other _ _ _ _ h

@[simp] theorem bankOf_modBank (a : Arr) (b : Bool) (f : AccBank → AccBank) : bankOf (modBank a b f) b = f (bankOf a b) := by
  cases b <;> rfl

@[simp] theorem modBank_active (a : Arr) (b : Bool) (f : AccBank → AccBank) : (modBank a b f).active = a.active := by
  cases b <;> rfl

@[simp] theorem wideOf_modWide (k : Core) (w : Bool) (f : WideTile → WideTile) : wideOf (modWide k w f) w = f (wideOf k w) := by
  cases w
  · exact get_set_self k.wide 0 _
  · exact get_set_self k.wide 1 _

theorem wideOf_modWide_not (k : Core) (w : Bool) (f : WideTile → WideTile) : wideOf (modWide k w f) (!w) = wideOf k (!w) := by
  cases w
  · exact get_set_other k.wide 0 1 _ (by decide)
  · exact get_set_other k.wide 1 0 _ (by decide)

/-- A wide tile with a row added: its elements, flags and count of additions (R68, R71, R174). -/
def wideRowAdded (row : Nat) (adds : List Int) (ovf : Nat) (nan : Bool) (t : WideTile) : WideTile :=
  { t with
    nan := t.nan || nan, ovf := t.ovf || decide (0 < ovf)
    adds := BitVec.ofNat 32 (satAdd 32 t.adds.toNat 1)
    elems := wideElems t.elems row adds }

/-- Of the wide tiles, an addition changes the one it names, by `wideRowAdded`. -/
theorem wideOf_wideAdd (k : Core) (w u : Bool) (row : Nat) (adds : List Int) (ovf nans : Nat) (nan : Bool) :
    wideOf (wideAdd k w row adds ovf nans nan) u = wideOf (modWide k w (wideRowAdded row adds ovf nan)) u := rfl

theorem wideOf_wideAdd_same (k : Core) (w : Bool) (row : Nat) (adds : List Int) (ovf nans : Nat) (nan : Bool) :
    wideOf (wideAdd k w row adds ovf nans nan) w = wideRowAdded row adds ovf nan (wideOf k w) := by
  rw [wideOf_wideAdd, wideOf_modWide]

theorem wideOf_wideAdd_not (k : Core) (w : Bool) (row : Nat) (adds : List Int) (ovf nans : Nat) (nan : Bool) :
    wideOf (wideAdd k w row adds ovf nans nan) (!w) = wideOf k (!w) := by
  rw [wideOf_wideAdd, wideOf_modWide_not]

@[simp] theorem vecWrite_reg (k : Core) (x : VRegId) (es : List (Nat × BitVec 32)) :
    (vecWrite k x es).vec.regs.get x = es.foldl (fun m e => cellSet 0#32 m e.1 e.2) (k.vec.regs.get x) := get_set_self ..

theorem vecWrite_reg_ne (k : Core) {x z : VRegId} (es : List (Nat × BitVec 32)) (h : z ≠ x) :
    (vecWrite k x es).vec.regs.get z = k.vec.regs.get z := get_set_other _ _ _ _ h

/-! ### An accumulator's write -/

/-- A read after a write of a canonical store. -/
theorem storeGet_storeSet {β : Type} [DecidableEq β] {m : Store β} (h : storeWf m = true) (a b : Nat) (v : β) :
    storeGet (storeSet m a v) b = if b = a then v else storeGet m b := cellGet_cellSet _ _ _ _ _ h

/-- A bank's indices tell its rows and columns apart. -/
theorem elemIndex_inj {r c row col : Nat} (hc : c < 128) (hcol : col < 128) :
    r * 128 + c = row * 128 + col ↔ r = row ∧ c = col := by omega

/-- A bank with an element written, its row's checksum entry marked where sums saturated (R60, R117). -/
def accWritten (row col : Nat) (v : AccElem) (sat : Nat) (z : AccBank) : AccBank :=
  { z with
    elems := storeSet z.elems (row * 128 + col) v
    ck := if sat = 0 then z.ck else cellSet clearCk z.ck row { cellGet clearCk z.ck row with sat := true } }

/-- Of the arrays, an accumulator's write changes the bank it names, by `accWritten`. -/
theorem arrOf_effCore_acc (k : Core) (m n : Fin 4) (bank : Bool) (row col : Nat) (v : AccElem) (sat : Nat) :
    arrOf (effCore k (.acc m bank row col v sat)) n =
      arrOf (modArr k m (fun a => modBank a bank (accWritten row col v sat))) n := rfl

theorem bankOf_effCore_acc (k : Core) (m : Fin 4) (bank : Bool) (row col : Nat) (v : AccElem) (sat : Nat) :
    bankOf (arrOf (effCore k (.acc m bank row col v sat)) m) bank = accWritten row col v sat (bankOf (arrOf k m) bank) := by
  rw [arrOf_effCore_acc, arrOf_modArr, bankOf_modBank]

theorem effCore_acc_active (k : Core) (m : Fin 4) (bank : Bool) (row col : Nat) (v : AccElem) (sat : Nat) :
    (arrOf (effCore k (.acc m bank row col v sat)) m).active = (arrOf k m).active := by
  rw [arrOf_effCore_acc, arrOf_modArr, modBank_active]

theorem arrOf_effCore_acc_ne (k : Core) {m n : Fin 4} (bank : Bool) (row col : Nat) (v : AccElem) (sat : Nat) (h : n ≠ m) :
    arrOf (effCore k (.acc m bank row col v sat)) n = arrOf k n := by
  rw [arrOf_effCore_acc, arrOf_modArr_ne k _ h]

/-- The element that a read of a bank finds after an accumulator's write to it. -/
theorem storeGet_effCore_acc {k : Core} {m : Fin 4} {bank : Bool} (h : storeWf (bankOf (arrOf k m) bank).elems = true)
    (row : Nat) {col : Nat} (v : AccElem) (sat r : Nat) {c : Nat} (hcol : col < 128) (hc : c < 128) :
    storeGet (bankOf (arrOf (effCore k (.acc m bank row col v sat)) m) bank).elems (r * 128 + c) =
      if r = row ∧ c = col then v else storeGet (bankOf (arrOf k m) bank).elems (r * 128 + c) := by
  rw [bankOf_effCore_acc]
  rw [accWritten, storeGet_storeSet h]
  simp only [elemIndex_inj hc hcol]

/-- The element that a read of a wide tile finds after a row is added to it. -/
theorem cellGet_wideOf_wideAdd {k : Core} {w : Bool} (h : cellWf 0#128 (wideOf k w).elems = true) (row : Nat) {adds : List Int}
    (ovf nans : Nat) (nan : Bool) (r : Nat) {c : Nat} (ha : adds.length = 128) (hc : c < 128) :
    cellGet 0#128 (wideOf (wideAdd k w row adds ovf nans nan) w).elems (r * 128 + c) =
      cellGet 0#128 (wideOf k w).elems (r * 128 + c) + if r = row then BitVec.ofInt 128 (adds.getD c 0) else 0 := by
  rw [wideOf_wideAdd_same, ← rowAddend_elem ha hc]
  exact cellGet_wideElems row adds _ h

/-- Settles O22: each result is one write of its unit's map, read back by the map's laws. -/
theorem unitResultValues : Obligations.UnitResultValues := by
  unfold Obligations.UnitResultValues
  intro k m n bank w row col r2 c2 v sat adds ovf nans nan x i y
  have hwide := wideOf_wideAdd_same k w row adds ovf nans nan
  have hvec : (effCore k (.vec x [(i, y)])).vec.regs.get x = cellSet 0#32 (k.vec.regs.get x) i y := vecWrite_reg k x [(i, y)]
  exact ⟨fun hwf hcol hc2 => ⟨storeGet_effCore_acc hwf row v sat r2 hcol hc2, rfl⟩, effCore_acc_active ..,
    arrOf_effCore_acc_ne k bank row col v sat, rfl, rfl, fun hwf ha hc2 => cellGet_wideOf_wideAdd hwf row ovf nans nan r2 ha hc2,
    (congrArg WideTile.anchor hwide :), (congrArg WideTile.nan hwide :), wideOf_wideAdd_not .., rfl, rfl, rfl,
    fun hwf a => hvec ▸ cellGet_cellSet _ _ i a y hwf, fun z hz => vecWrite_reg_ne k _ hz, rfl, rfl⟩

end Sys2Proof.Machine

/-! SUPPORT. The outcome of every command, and from it the statements on the scalar instructions and the sequencer (R83 to R91). -/

namespace Sys2Proof.Machine

/-! ### Which commands are refused -/

/-- Every command that no slot holds has a next state. -/
theorem exec_command {i : Instr} (s : State) (h : issueOf i = none) : ∃ t, exec i s = .next t := by
  cases i <;> cases h <;> exact ⟨_, rfl⟩

theorem exec_of_wf {i : Instr} (s : State) (h : i.wf = true) : ∃ t, exec i s = .next t := by
  cases hx : issueOf i with
  | none => exact exec_command s hx
  | some x => exact ⟨_, exec_slot s hx h⟩

/-- The arm of a slot instruction with reserved codes, where its check fails. -/
theorem refused_of_check {b : Bool} (o : Host.Outcome State Fault Refusal) (m : String) (h : b = false) :
    ∃ n, (if b = true then o else refuseReserved m) = .refused (.reservedEncoding n) :=
  ⟨m, if_neg (Bool.eq_false_iff.1 h)⟩

theorem exec_of_not_wf {i : Instr} (s : State) (h : i.wf = false) : ∃ m, exec i s = .refused (.reservedEncoding m) := by
  cases i with
  | mma c x => exact refused_of_check _ "MMA" h
  | wld c x => exact refused_of_check _ "WLD" h
  | vdrn c x => exact refused_of_check _ "VDRN" h
  | vop c x => exact refused_of_check _ "VOP" h
  | vfn c x => exact refused_of_check _ "VFN" h
  | vred c x => exact refused_of_check _ "VRED" h
  | fsend c x => exact refused_of_check _ "FSEND" h
  | _ => cases h

/-- Settles O8: a well-formed command is a slot's issue or another unit's event, and both go on; the check of the instructions with
reserved codes refuses the rest. -/
theorem onlyReservedEncodingsAreRefused : Obligations.OnlyReservedEncodingsAreRefused := by
  unfold Obligations.OnlyReservedEncodingsAreRefused
  exact fun i s => ⟨exec_of_wf s, exec_of_not_wf s⟩

/-! ### Scalar results -/

/-- A scalar instruction puts the value it computes at its issue on its way (R45, R85). -/
theorem exec_scalar {i : Instr} {c : CoreId} {lat : Nat} {rd : SReg} {v : Core → Word} {w : Word} {s : State}
    (hx : issueOf i = some (scalarIssue c lat rd v)) (hi : i.wf = true) (hc : canIssue s c = true) (hv : v (coreAt s c) = w) :
    exec i s = .next (withResult s c lat 0 (.scalar rd w)) := by
  subst hv
  exact exec_slot_effect hx hi hc rfl rfl

theorem boolWord_decide (p : Prop) [Decidable p] : boolWord (decide p) = if p then 1 else 0 := by
  by_cases h : p <;> simp [boolWord, h]

theorem shiftLeft_eq_ofNat (x : Word) (n : Nat) : x <<< n = BitVec.ofNat 64 (x.toNat * 2 ^ n) := by
  apply BitVec.eq_of_toNat_eq
  rw [BitVec.toNat_shiftLeft, BitVec.toNat_ofNat, Nat.shiftLeft_eq]

theorem ushiftRight_eq_ofNat (x : Word) (n : Nat) : x >>> n = BitVec.ofNat 64 (x.toNat / 2 ^ n) := by
  have hlt : x.toNat / 2 ^ n < 2 ^ 64 := Nat.lt_of_le_of_lt (Nat.div_le_self ..) x.isLt
  apply BitVec.eq_of_toNat_eq
  rw [BitVec.toNat_ushiftRight, BitVec.toNat_ofNat, Nat.mod_eq_of_lt hlt, Nat.shiftRight_eq_div_pow]

theorem sshiftRight_eq_ofInt (x : Word) (n : Nat) : x.sshiftRight n = BitVec.ofInt 64 (x.toInt / 2 ^ n) := by
  rw [BitVec.sshiftRight, Int.shiftRight_eq_div_pow]
  norm_cast

theorem sub_eq_ofInt (x y : Word) : x - y = BitVec.ofInt 64 (x.toInt - y.toInt) := by
  apply BitVec.eq_of_toInt_eq
  rw [BitVec.toInt_sub, BitVec.toInt_ofInt]

/-- A sum with a sign-extended immediate is the sum of the integers. -/
theorem add_signExtend_eq_ofInt (x : Word) (i : BitVec 12) : x + immS i = BitVec.ofInt 64 (x.toInt + i.toInt) := by
  apply BitVec.eq_of_toInt_eq
  rw [BitVec.toInt_add, BitVec.toInt_ofInt, immS, BitVec.toInt_signExtend_of_le (by decide)]

/-- Settles O3: each instruction's value, as R85 words it. -/
theorem scalarResults : Obligations.ScalarResults := by
  unfold Obligations.ScalarResults
  intro s c rd a b i w lc hc x y res
  have run {j : Instr} {lat : Nat} {v : Core → Word} {u : Word} (hx : issueOf j = some (scalarIssue c lat rd v))
      (hj : j.wf = true) (hv : v (coreAt s c) = u) : exec j s = res lat u := exec_scalar hx hj hc hv
  refine ⟨?sadd, ?ssub, ?sand, ?sor, ?sxor, ?sshl, ?sshr, ?ssra, ?slt, ?sltu, ?sseq, ?smul, ?saddi, ?sandi, ?sori, ?sshli, ?sshri,
    ?sli, ?slc⟩
  case sadd => exact run rfl rfl (BitVec.add_def ..)
  case ssub => exact run rfl rfl (sub_eq_ofInt x y)
  case sand => exact run rfl rfl rfl
  case sor => exact run rfl rfl rfl
  case sxor => exact run rfl rfl rfl
  case sshl => exact run rfl rfl (shiftLeft_eq_ofNat x _)
  case sshr => exact run rfl rfl (ushiftRight_eq_ofNat x _)
  case ssra => exact run rfl rfl (sshiftRight_eq_ofInt x _)
  case slt => exact run rfl rfl (boolWord_decide _)
  case sltu => exact run rfl rfl (boolWord_decide _)
  case sseq => exact run rfl rfl (boolWord_decide _)
  case smul => exact run rfl rfl (BitVec.mul_def ..)
  case saddi => exact run rfl rfl (add_signExtend_eq_ofInt x i)
  case sandi => exact run rfl rfl rfl
  case sori => exact run rfl rfl (congrArg (x ||| ·) (BitVec.ofNat_toNat 64 i).symm)
  case sshli => exact run rfl rfl (shiftLeft_eq_ofNat x _)
  case sshri => exact run rfl rfl (ushiftRight_eq_ofNat x _)
  case sli => exact run rfl rfl rfl
  case slc => exact run rfl rfl (by rw [BitVec.ofNat_toNat]; rfl)

/-- A change of one core leaves every other part of the device. -/
theorem onlyCore_modCore (s : State) (c : CoreId) (f : Core → Core) : onlyCore c s (modCore s c f) := by
  rw [onlyCore, coreAt_modCore, modCore]

/-- A scalar register's write changes no field of the core but the scalar registers. -/
theorem setSreg_frame (k : Core) (n : SReg) (v : Word) :
    { setSreg k n v with seq := { (setSreg k n v).seq with scalars := k.seq.scalars } } = k := by
  unfold setSreg
  split <;> rfl

/-- Settles O4: the result is the register's write, which the laws of `setSreg` read back. -/
theorem scalarWriteback : Obligations.ScalarWriteback := by
  unfold Obligations.ScalarWriteback
  intro s c rd r v due issued t
  have ht : t = modCore s c (fun k => setSreg k rd v) := rfl
  rw [ht, coreAt_modCore]
  exact ⟨onlyCore_modCore .., setSreg_frame .., sreg_zero _, sreg_setSreg _ rd v, sreg_setSreg_ne _ rd r v⟩

/-! ### Control -/

theorem exec_seq {i : Instr} {c : CoreId} {f : Nat → Core → Seq} {q : Seq} {s : State} (hx : issueOf i = some (seqIssue c f))
    (hi : i.wf = true) (hc : canIssue s c = true) (hf : f (nowAt s c) (coreAt s c) = q) : exec i s = .next (withSeq s c q) := by
  subst hf
  exact exec_slot_effect hx hi hc rfl rfl

/-- A slot instruction whose wait is met and that faults fences its job. -/
theorem exec_slot_fault {i : Instr} {x : Issue} {s : State} {f : FaultInfo} (hx : issueOf i = some x) (hi : i.wf = true)
    (hc : canIssue s x.core = true) (hw : x.wait s = none) (hf : x.fault s = some f) : exec i s = .next (fenceCore x.core f s) := by
  rw [exec_slot s hx hi, runIssue_fault hc hw hf]

/-- A repeat run no times goes on behind its body (R86). -/
theorem openRepeat_zero (q : Seq) (b : BitVec 12) (lc : Fin 8) (len : Nat) {n : BitVec 24} (h : n = 0) :
    openRepeat q b lc len n = seqFall q (b + BitVec.ofNat 12 len) := if_pos h

/-- A repeat run at least once opens at its body's first bundle (R86). -/
theorem openRepeat_pos (q : Seq) (b : BitVec 12) (lc : Fin 8) (len : Nat) {n : BitVec 24} (h : n ≠ 0) :
    openRepeat q b lc len n =
      { q with
        repeats := { lc := lc, first := b + 1#12, last := b + BitVec.ofNat 12 len } :: q.repeats
        loops := q.loops.set lc.val { iter := 0, count := n, active := true } lc.isLt
        pc := b + 1#12 } := if_neg h

/-- A count of 11 bits is 0 as a loop's count of 24 bits only where it is 0. -/
theorem loopCount_eq_zero_iff (n : Fin 2048) : BitVec.ofNat 24 n.val = 0 ↔ n.val = 0 := by
  rw [← BitVec.toNat_inj, BitVec.toNat_ofNat, Nat.mod_eq_of_lt (by omega)]
  rfl

theorem exec_rep {c : CoreId} {s : State} (lc : Fin 8) (b : Fin 1024) (n : Fin 2048) (hc : canIssue s c = true) :
    exec (.rep c lc b n) s = .next (withSeq s c
      { openRepeat (coreAt s c).seq (coreAt s c).seq.lastBundle lc (b.val + 1) (BitVec.ofNat 24 n.val) with moved := true }) :=
  exec_seq rfl rfl hc rfl

theorem exec_reps {c : CoreId} {s : State} (lc : Fin 8) (b : Fin 1024) (rs : SReg) (hc : canIssue s c = true) :
    exec (.reps c lc b rs) s = .next (withSeq s c
      { openRepeat (coreAt s c).seq (coreAt s c).seq.lastBundle lc (b.val + 1)
          (BitVec.ofNat 24 (sreg (coreAt s c) rs).toNat) with moved := true }) :=
  exec_seq rfl rfl hc rfl

/-- Settles O5: REP and REPS open a repeat or, with a count of 0, go on behind it; JOIN and NEXT set the sequencer alone. -/
theorem sequencerControl : Obligations.SequencerControl := by
  unfold Obligations.SequencerControl
  intro s c lc j b n rs hc q p last opened
  refine ⟨fun h => ?_, fun h => ?_, ⟨fun h => ?_, fun h => ?_⟩, ?_, ?_⟩
  · rw [exec_rep lc b n hc, openRepeat_pos _ _ _ _ (mt (loopCount_eq_zero_iff n).1 (Nat.ne_of_gt h))]
  · rw [exec_rep lc b n hc, openRepeat_zero _ _ _ _ ((loopCount_eq_zero_iff n).2 h)]
  · rw [exec_reps lc b rs hc, openRepeat_pos _ _ _ _ h]
  · rw [exec_reps lc b rs hc, openRepeat_zero _ _ _ _ h]
  · exact exec_seq rfl rfl hc rfl
  · exact exec_seq rfl rfl hc rfl

/-- A core whose sequencer runs the seven shadow bundles of a junction, and then what `a` says (R88 to R90). -/
def afterShadow (k : Core) (a : AfterShadow) : Core :=
  { k with seq := { k.seq with shadow := some (7, a), pc := k.seq.lastBundle + 1#12, moved := true } }

theorem jselIssue_wait {s : State} {c : CoreId} {q : QId} (j : Fin 8) (h : 0 < qReadable (qOf (coreAt s c) q) (periodAt s c)) :
    (jselIssue c q j).wait s = none := if_neg (Nat.ne_of_gt h)

theorem jtripIssue_wait {s : State} {c : CoreId} {q : QId} {e : Nat} (lc : Fin 8) (b : Fin 1024) (h : Fin 32)
    (he : tripCount (coreAt s c) q (periodAt s c) = some e) : (jtripIssue c q lc b h).wait s = none := by
  simp only [jtripIssue, he, Option.isNone_some, Bool.false_eq_true, if_false]

/-- JTRIP faults where its trip count exceeds a loop's 24 bits (R89). -/
theorem jtripIssue_fault {s : State} {c : CoreId} {q : QId} {e : Nat} (lc : Fin 8) (b : Fin 1024) (h : Fin 32)
    (he : tripCount (coreAt s c) q (periodAt s c) = some e) :
    (jtripIssue c q lc b h).fault s = if tripOf e h.val ≤ 2 ^ 24 - 1 then none else some (flt .bounds c) := by
  simp only [jtripIssue, he]

/-- JTRIP counts the gather as taken and branches to its repeat after the shadow (R89, R193). -/
theorem jtripIssue_effect {s : State} {c : CoreId} {q : QId} {e : Nat} (lc : Fin 8) (b : Fin 1024) (h : Fin 32)
    (he : tripCount (coreAt s c) q (periodAt s c) = some e) :
    (jtripIssue c q lc b h).effect s = setCore s c
      (afterShadow (modQ (coreAt s c) q (fun x => { x with tripsTaken := x.tripsTaken + 1 }))
        (.trip lc (b.val + 1) (BitVec.ofNat 24 (tripOf e h.val)))) := by
  obtain rfl : (tripCount (coreAt s c) q (periodAt s c)).getD 0 = e := by rw [he]; rfl
  rfl

/-- Settles O6: with its wait met, each junction branches after its shadow, or faults where its selector or count is out of range. -/
theorem junctionControl : Obligations.JunctionControl := by
  unfold Obligations.JunctionControl
  intro s c q j lc b h hc k branch
  refine ⟨fun v hr hv => ?_, fun e he => ?_⟩
  · subst hv
    have hwait := jselIssue_wait j hr
    exact ⟨fun hlt => exec_slot_effect rfl rfl hc hwait (if_pos hlt),
      fun hle => exec_slot_fault rfl rfl hc hwait (if_neg (Nat.not_lt.2 hle))⟩
  · have hwait := jtripIssue_wait lc b h he
    have hfault := jtripIssue_fault lc b h he
    refine ⟨fun hlt => ?_, fun hle => ?_⟩
    · rw [exec_slot_effect (x := jtripIssue c q lc b h) rfl rfl hc hwait (hfault.trans (if_pos (Nat.le_pred_of_lt hlt))),
        jtripIssue_effect lc b h he]
      rfl
    · exact exec_slot_fault rfl rfl hc hwait (hfault.trans (if_neg (Nat.not_le.2 hle)))

end Sys2Proof.Machine

/-! SUPPORT. The instructions whose whole effect shows in the next tick, and what their results change: tile registers, weights, fill
bits and Boom queues (R98 to R101, R114, R116, R165, R173, R199, R216). -/

namespace Sys2Proof.Machine

/-! ### Instructions with one result -/

theorem firstFault_pair_none {c : CoreId} {b d : Bool} {st su : Status} (hb : b = false) (hd : d = false) :
    firstFault c [(b, st), (d, su)] = none := by
  rw [hb, hd]; rfl

/-- A valid configuration that is the tile's own, or meets no use of the tile, faults not (R98, R99). -/
theorem tcfgIssue_fault_none {s : State} {c : CoreId} {t : TReg} {cfg : TileCfg} (hv : cfgValid cfg = true)
    (h : cfg = (tileOf (coreAt s c) t).cfg ∨ stillUsed (coreAt s c).tileUse t.val (nowAt s c) = false) :
    (tcfgIssue c t cfg).fault s = none := by
  refine firstFault_pair_none (by rw [hv]; rfl) ?_
  rcases h with h | h
  · rw [decide_eq_false (not_not_intro h), Bool.false_and]
  · rw [h, Bool.and_false]

/-- A release whose tiles are each empty or out of use faults not (R99, R101). -/
theorem relIssue_fault_none {s : State} {c : CoreId} {mask : Core → BitVec 32}
    (h : ∀ n : TReg, (mask (coreAt s c)).getLsbD n.val = true →
      (tileOf (coreAt s c) n).empty = true ∨ stillUsed (coreAt s c).tileUse n.val (nowAt s c) = false) :
    (relIssue c mask).fault s = none := by
  refine firstFault_single_none (List.any_eq_false.2 fun n _ hn => ?_)
  simp only [Bool.and_eq_true, Bool.not_eq_true'] at hn
  obtain ⟨⟨hm, hne⟩, hu⟩ := hn
  rcases h n hm with h | h
  · rw [h] at hne; cases hne
  · rw [h] at hu; cases hu

/-- The mask that names one tile. -/
theorem getLsbD_oneTile {t n : TReg} (h : (1#32 <<< t.val).getLsbD n.val = true) : n = t := by
  rw [BitVec.getLsbD_shiftLeft, BitVec.getLsbD_one] at h
  simp only [Bool.and_eq_true, Bool.not_eq_true', decide_eq_true_eq, decide_eq_false_iff_not] at h
  exact Fin.ext (by omega)

/-- Settles O9: under its hypotheses each instruction meets no fault, and its effect is the one result. -/
theorem nextTickInstructions : Obligations.NextTickInstructions := by
  unfold Obligations.NextTickInstructions
  intro s c t rows rowb fmt axis r w m b e hc k cfg inUse mask
  refine ⟨fun hv h => ?tcfg, fun h => ?trel, fun h => ?treli, fun hm hb => ?wclr, ?wswap, ?absw, ?vscln, fun hl hb => ?bpush, ?chClose⟩
  case tcfg => exact exec_slot_effect (x := tcfgIssue c t cfg) rfl rfl hc rfl (tcfgIssue_fault_none hv h)
  case trel =>
    have hmask : mask = (sreg k r).setWidth 32 := BitVec.ofNat_toNat ..
    rw [hmask] at h ⊢
    exact exec_slot_effect (x := trelIssue c r) rfl rfl hc rfl (relIssue_fault_none h)
  case treli =>
    refine exec_slot_effect (x := treliIssue c t) rfl rfl hc rfl (relIssue_fault_none fun n hn => ?_)
    rw [getLsbD_oneTile hn]
    exact h
  case wclr =>
    exact exec_slot_effect (x := wclrIssue c w) rfl rfl hc rfl (firstFault_single_none (Bool.or_eq_false_iff.2 ⟨hm, hb⟩))
  case wswap => exact exec_slot_effect (x := wswapIssue c m) rfl rfl hc rfl rfl
  case absw => exact exec_slot_effect (x := abswIssue c m) rfl rfl hc rfl rfl
  case vscln => exact exec_slot_effect (x := vsclnIssue c) rfl rfl hc rfl rfl
  case bpush =>
    have hfault : (bpushIssue c b r).fault s = none := firstFault_single_none (decide_eq_false (Nat.not_le.2 hl))
    exact exec_slot_effect (x := bpushFull c b r) rfl rfl hc (withTargetCheck_wait hb) (withTargetCheck_fault hb hfault)
  case chClose => exact exec_slot_effect (x := closeIssue c e) rfl rfl hc rfl rfl

/-! ### Folds that change each place once -/

/-- A fold that changes at each listed place what stands there, and nothing elsewhere, changes each listed place once. -/
theorem foldl_update {σ ι α : Type} [DecidableEq ι] {get : σ → ι → α} {put : σ → ι → σ} {g : ι → α → α}
    (hsame : ∀ k i, get (put k i) i = g i (get k i)) (hother : ∀ k i j, j ≠ i → get (put k i) j = get k j)
    {l : List ι} (hn : l.Nodup) (k : σ) (j : ι) :
    get (l.foldl put k) j = if j ∈ l then g j (get k j) else get k j := by
  induction l generalizing k with
  | nil => rfl
  | cons i l ih =>
    obtain ⟨hi, hn⟩ := List.nodup_cons.1 hn
    rw [List.foldl_cons, ih hn]
    by_cases h : j = i
    · subst h
      rw [if_neg hi, if_pos List.mem_cons_self, hsame]
    · simp only [List.mem_cons, h, false_or, hother k i j h]

/-! ### Tile registers -/

@[simp] theorem tileOf_modTile (k : Core) (t : TReg) (f : Tile → Tile) : tileOf (modTile k t f) t = f (tileOf k t) := get_set_self ..

theorem tileOf_modTile_ne (k : Core) {t u : TReg} (f : Tile → Tile) (h : u ≠ t) : tileOf (modTile k t f) u = tileOf k u :=
  get_set_other _ _ _ _ h

theorem modTile_eq_self {k : Core} {t : TReg} {f : Tile → Tile} (h : f (tileOf k t) = tileOf k t) : modTile k t f = k := by
  rw [modTile, h, tileOf, set_get_self]

/-- A tile after its release: an empty one stays as it is (R101). -/
def tileReleased (u : Tile) : Tile := if u.empty then u else tileEmpty u

theorem tileReleased_empty (u : Tile) : (tileReleased u).empty = true := by
  unfold tileReleased
  split
  · assumption
  · rfl

theorem tileReleased_cfg (u : Tile) : (tileReleased u).cfg = u.cfg := by
  unfold tileReleased
  split <;> rfl

/-- A release's step at one tile. -/
def releaseStep (mask : BitVec 32) (k : Core) (t : TReg) : Core := if mask.getLsbD t.val then modTile k t tileReleased else k

theorem effCore_release (k : Core) (mask : BitVec 32) :
    effCore k (.release mask) = (List.finRange 32).foldl (releaseStep mask) k := rfl

/-- A release empties the tiles of its mask and leaves the others. -/
theorem tileOf_release (k : Core) (mask : BitVec 32) (u : TReg) :
    tileOf (effCore k (.release mask)) u = if mask.getLsbD u.val then tileReleased (tileOf k u) else tileOf k u := by
  have hsame (k : Core) (t : TReg) : tileOf (releaseStep mask k t) t =
      (if mask.getLsbD t.val then tileReleased else id) (tileOf k t) := by
    unfold releaseStep
    split
    · exact tileOf_modTile ..
    · rfl
  have hother (k : Core) (t u : TReg) (h : u ≠ t) : tileOf (releaseStep mask k t) u = tileOf k u := by
    unfold releaseStep
    split
    · exact tileOf_modTile_ne k _ h
    · rfl
  rw [effCore_release, foldl_update (g := fun t => if mask.getLsbD t.val then tileReleased else id) hsame hother
    (List.nodup_finRange 32), if_pos (List.mem_finRange u)]
  split <;> rfl

/-! ### The arrays of a mask -/

theorem mem_maskList {mask : Fin 16} {m : Fin 4} : m ∈ maskList mask ↔ mask.val.testBit m.val = true := by
  rw [maskList, List.mem_filter, bitOf, Nat.testBit_eq_decide_div_mod_eq]
  simp

/-- Of the arrays, exactly those of the mask change. -/
theorem arrOf_modArrs (k : Core) (mask : Fin 16) (f : Arr → Arr) (a : Fin 4) :
    arrOf (modArrs k mask f) a = if mask.val.testBit a.val then f (arrOf k a) else arrOf k a := by
  have hn : (maskList mask).Nodup := (List.nodup_finRange 4).filter _
  rw [modArrs, foldl_update (get := arrOf) (g := fun _ => f) (fun k i => arrOf_modArr k i f)
    (fun k _ _ h => arrOf_modArr_ne k f h) hn]
  simp only [mem_maskList]

@[simp] theorem boomOf_setBoom (k : Core) (b : Fin 8) (vs : List Word) : boomOf (setBoom k b vs) b = vs := get_set_self ..

/-- Settles O10: each of these results changes its core by `effCore`, which the laws of tiles, arrays and Boom queues read back. -/
theorem nextTickResults : Obligations.NextTickResults := by
  unfold Obligations.NextTickResults
  intro s c t u cfg mask m a b v due issued k after
  have hafter {e : Eff} (he : applyPend c { due := due, issued := issued, eff := e } s = modCore s c (fun k => effCore k e)) :
      after e = effCore k e := by
    change coreAt (applyPend c _ s) c = _
    rw [he, coreAt_modCore]
  have htcfg : after (.tcfg t cfg) = modTile k t (fun u => tileConfigure u cfg) := hafter rfl
  have hrel : after (.release mask) = effCore k (.release mask) := hafter rfl
  have hswap : after (.swap m) = modArrs k m swapWeights := hafter rfl
  have habsw : after (.absw m) = modArrs k m (fun a => { a with fill := !a.fill }) := hafter rfl
  have hpush : after (.bpush b v) = setBoom k b (boomOf k b ++ [v]) := hafter rfl
  rw [htcfg, hrel, hswap, habsw, hpush, tileOf_modTile, tileOf_release, arrOf_modArrs, arrOf_modArrs]
  refine ⟨?frame, fun h => modTile_eq_self (if_pos h), fun h => if_neg h, tileOf_modTile_ne k _, fun h => ?released,
    fun h => ?unreleased, fun h => ?swapped, fun h => ?switched, fun h => ?others, boomOf_setBoom ..⟩
  case frame =>
    rintro e (rfl | rfl | rfl | rfl | rfl) <;> exact onlyCore_modCore s c (fun k => effCore k _)
  case released =>
    rw [if_pos h]
    exact ⟨tileReleased_empty _, tileReleased_cfg _⟩
  case unreleased => exact if_neg (Bool.eq_false_iff.1 h)
  case swapped => rw [if_pos h]; rfl
  case switched => rw [if_pos h]
  case others => exact ⟨if_neg (Bool.eq_false_iff.1 h), if_neg (Bool.eq_false_iff.1 h)⟩

end Sys2Proof.Machine

/-! SUPPORT. The clearing of accumulator banks, the opening of an endpoint, and the A-slot operations that stream: MMA, WLD, MVM, WADD
and MVLD (R108 to R114, R117, R127, R174, R207 to R209). -/

namespace Sys2Proof.Machine

/-! ### Instructions that change their core alone -/

/-- A slot instruction without a wait or a fault, whose effect gives its core a next state, changes that core alone. -/
theorem exec_slot_setCore {i : Instr} {x : Issue} {s : State} {c : CoreId} {k : Core} (hx : issueOf i = some x)
    (hi : i.wf = true) (hcore : x.core = c) (hc : canIssue s c = true) (hw : x.wait s = none) (hf : x.fault s = none)
    (he : x.effect s = setCore s c k) :
    ∃ t, exec i s = .next t ∧ onlyCore c s t ∧ coreAt t c = k ∧ nowAt t c = nowAt s c := by
  subst hcore
  refine ⟨setCore s x.core k, ?_, ?_, coreAt_setCore .., nowAt_setCore ..⟩
  · rw [exec_slot_effect hx hi hc hw hf, he]
  · rw [onlyCore, coreAt_setCore]

/-- A core `k` that comes from `k0` by the issue of an operation, whatever the operation captures at issue, streams it. -/
theorem streams_of_strmOf {s t : State} {c : CoreId} {k k0 : Core} {i : Instr} {slot t0 step count : Nat} {l : List Strm}
    {banks : BitVec 4} {s0 s1 : Word} {rows : List (BitVec 32)} (hcore : coreAt t c = k) (hnow : nowAt t c = nowAt s c)
    (hops : k.ops = l ++ [{ strmOf k0 i (issueKey (nowAt s c) slot) t0 step count with
      banks := banks, s0 := s0, s1 := s1, rows := rows }])
    (hlive : k.live = k0.live) (hprof : k.seq.latprof = k0.seq.latprof) : streams t c i slot t0 step count := by
  unfold streams
  rw [hcore, hnow, hops, List.getLast?_concat]
  exact ⟨_, rfl, rfl, rfl, rfl, rfl, rfl, rfl, hlive.symm, hprof.symm⟩

/-! ### ACLR -/

/-- An array whose named bank has taken a class. -/
def withBankClass (bank int : Bool) (a : Arr) : Arr := modBank a (physBank a bank) (fun z => { z with int := int })

/-- ACLR's step at one array: the bank takes its class, and its clearing is on its way (R117). -/
def aclrStep (now : Nat) (bank int : Bool) (k : Core) (m : Fin 4) : Core :=
  pushPend (modArr k m (withBankClass bank int))
    { due := now + 1, issued := issueKey now 1, eff := .aclr m (physBank (arrOf k m) bank) int }

theorem aclrIssue_effect (s : State) (c : CoreId) (mask : Fin 16) (bank int : Bool) :
    (aclrIssue c mask bank int).effect s = modCore s c (fun k => (maskList mask).foldl (aclrStep (nowAt s c) bank int) k) := rfl

theorem withBankClass_fill (bank int : Bool) (a : Arr) : (withBankClass bank int a).fill = a.fill := by
  unfold withBankClass modBank
  split <;> rfl

theorem withBankClass_int (bank int : Bool) (a : Arr) : (bankOf (withBankClass bank int a) (physBank a bank)).int = int := by
  rw [withBankClass, bankOf_modBank]

theorem arrOf_aclrStep (now : Nat) (bank int : Bool) (k : Core) (m : Fin 4) :
    arrOf (aclrStep now bank int k m) m = withBankClass bank int (arrOf k m) :=
  arrOf_modArr k m (withBankClass bank int)

theorem arrOf_aclrStep_ne (now : Nat) (bank int : Bool) (k : Core) (m n : Fin 4) (h : n ≠ m) :
    arrOf (aclrStep now bank int k m) n = arrOf k n :=
  arrOf_modArr_ne k (withBankClass bank int) h

/-- No step of ACLR switches a fill bank, so that all name their banks as they stand at issue (R116). -/
theorem fill_aclrStep (now : Nat) (bank int : Bool) (k : Core) (m n : Fin 4) :
    (arrOf (aclrStep now bank int k m) n).fill = (arrOf k n).fill := by
  by_cases h : n = m
  · rw [h, arrOf_aclrStep, withBankClass_fill]
  · rw [arrOf_aclrStep_ne _ _ _ _ _ _ h]

theorem mem_pendInsert {p q : Pend} {l : List Pend} : q ∈ pendInsert p l ↔ q = p ∨ q ∈ l := by
  induction l with
  | nil => rw [pendInsert, List.mem_singleton]; simp
  | cons r l ih =>
    rw [pendInsert]
    split
    · exact List.mem_cons
    · rw [List.mem_cons, ih, List.mem_cons, or_left_comm]

/-- After ACLR the results on their way are those of before and one clearing for each of its banks. -/
theorem mem_pend_aclr {now : Nat} {bank int : Bool} {k : Core} {l : List (Fin 4)} {p : Pend} :
    p ∈ (l.foldl (aclrStep now bank int) k).pend ↔ p ∈ k.pend ∨ ∃ m ∈ l,
      p = { due := now + 1, issued := issueKey now 1, eff := .aclr m (physBank (arrOf k m) bank) int } := by
  induction l generalizing k with
  | nil => simp
  | cons i l ih =>
    have hpend : p ∈ (aclrStep now bank int k i).pend ↔
        p = { due := now + 1, issued := issueKey now 1, eff := .aclr i (physBank (arrOf k i) bank) int } ∨ p ∈ k.pend :=
      mem_pendInsert
    rw [List.foldl_cons, ih, hpend]
    simp only [physBank, fill_aclrStep, List.mem_cons, exists_eq_or_imp]
    rw [or_assoc, or_left_comm]

theorem maskList_nodup (mask : Fin 16) : (maskList mask).Nodup := (List.nodup_finRange 4).filter _

/-- Of the arrays, ACLR gives those of its mask the class. -/
theorem arrOf_aclr (now : Nat) (bank int : Bool) (k : Core) (mask : Fin 16) (a : Fin 4) :
    arrOf ((maskList mask).foldl (aclrStep now bank int) k) a =
      if mask.val.testBit a.val then withBankClass bank int (arrOf k a) else arrOf k a := by
  rw [foldl_update (get := arrOf) (g := fun _ => withBankClass bank int) (arrOf_aclrStep now bank int)
    (arrOf_aclrStep_ne now bank int) (maskList_nodup mask)]
  simp only [mem_maskList]

/-- ACLR leaves all of a core but its arrays and the results on their way. -/
theorem aclr_frame (now : Nat) (bank int : Bool) (k : Core) (l : List (Fin 4)) :
    { l.foldl (aclrStep now bank int) k with arrs := k.arrs, pend := k.pend } = k :=
  foldl_keeps (fun u : Core => { u with arrs := k.arrs, pend := k.pend }) (aclrStep now bank int) (fun _ _ => rfl) l k

/-- Settles O11: ACLR's steps at the arrays of its mask do not meet one another, and OPEN is its result and its credits. -/
theorem clearAndOpen : Obligations.ClearAndOpen := by
  unfold Obligations.ClearAndOpen
  intro s c m bank int e r hc k
  refine ⟨?aclr, fun hf => ?chOpen⟩
  case aclr =>
    obtain ⟨t, ht, honly, hcore, -⟩ :=
      exec_slot_setCore (c := c) (i := .aclr c m bank int) rfl rfl rfl hc rfl rfl (aclrIssue_effect s c m bank int)
    refine ⟨t, ht, honly, ?_⟩
    rw [hcore]
    refine ⟨fun a ha => ⟨?_, ?_⟩, fun a ha => ?_, fun p hp => mem_pend_aclr.2 (.inl hp), aclr_frame ..⟩
    · rw [arrOf_aclr, if_pos ha]
      exact withBankClass_int bank int (arrOf k a)
    · exact mem_pend_aclr.2 (.inr ⟨a, mem_maskList.2 ha, rfl⟩)
    · rw [arrOf_aclr, if_neg (Bool.eq_false_iff.1 ha)]
  case chOpen =>
    have hfault : (openIssue c e r).fault s = none := congrArg (Option.map fun st => flt st c) hf
    rw [BitVec.ofNat_toNat]
    exact exec_slot_effect (x := openIssue c e r) rfl rfl hc rfl hfault

/-! ### MMA -/

/-- A pass's start at one array leaves every array's active weights. -/
theorem active_mmaStart (k : Core) (x : MmaFields) (now : Nat) (m n : Fin 4) :
    (arrOf (mmaStart k x now m) n).active = (arrOf k n).active := by
  by_cases h : n = m
  · subst h
    rw [mmaStart, arrOf_modArr]
    split
    · exact modBank_active ..
    · rfl
  · rw [mmaStart, arrOf_modArr_ne k _ h]

/-- A pass's start at one array changes no array's interval, which its weights' and the tiles' formats set (R109). -/
theorem mmaInterval_mmaStart (k : Core) (x : MmaFields) (now : Nat) (m n : Fin 4) :
    mmaInterval (mmaStart k x now m) x n = mmaInterval k x n := by
  rw [mmaInterval, active_mmaStart]
  rfl

theorem feedUntil_mmaStart (k : Core) (x : MmaFields) (now : Nat) (m : Fin 4) :
    (arrOf (mmaStart k x now m) m).feedUntil = now + (x.nM1.val + 1) * mmaInterval k x m := by
  rw [mmaStart, arrOf_modArr]

theorem arrOf_mmaStart_ne (k : Core) (x : MmaFields) (now : Nat) {m n : Fin 4} (h : n ≠ m) :
    arrOf (mmaStart k x now m) n = arrOf k n := arrOf_modArr_ne k _ h

/-- The pass of an MMA starts at the arrays of its mask. -/
def mmaStarts (x : MmaFields) (now : Nat) (k : Core) : Core := (maskList x.mask).foldl (fun k m => mmaStart k x now m) k

/-- Each array of the mask holds its operand feed for its rows at its own interval (R112). -/
theorem feedUntil_mmaStarts (k : Core) (x : MmaFields) (now : Nat) {m : Fin 4} (h : x.mask.val.testBit m.val = true) :
    (arrOf (mmaStarts x now k) m).feedUntil = now + (x.nM1.val + 1) * mmaInterval k x m := by
  have hfold := foldl_update (get := fun k i => ((arrOf k i).feedUntil, mmaInterval k x i))
    (g := fun _ p => (now + (x.nM1.val + 1) * p.2, p.2)) (put := fun k m => mmaStart k x now m)
    (fun k i => by rw [feedUntil_mmaStart, mmaInterval_mmaStart])
    (fun k i j hj => by rw [arrOf_mmaStart_ne k x now hj, mmaInterval_mmaStart]) (maskList_nodup x.mask) k m
  rw [if_pos (mem_maskList.2 h)] at hfold
  exact congrArg Prod.fst hfold

/-- An array outside the mask stays as it is. -/
theorem arrOf_mmaStarts_ne (k : Core) (x : MmaFields) (now : Nat) {m : Fin 4} (h : x.mask.val.testBit m.val = false) :
    arrOf (mmaStarts x now k) m = arrOf k m := by
  refine List.foldlRecOn (motive := fun u => arrOf u m = arrOf k m) _ _ rfl fun u hu i hi => ?_
  have hne : m ≠ i := by
    rintro rfl
    exact Bool.eq_false_iff.1 h (mem_maskList.1 hi)
  rw [arrOf_mmaStart_ne u x now hne, hu]

theorem mmaStarts_frame (k : Core) (x : MmaFields) (now : Nat) : { mmaStarts x now k with arrs := k.arrs } = k :=
  foldl_keeps (fun u : Core => { u with arrs := k.arrs }) (fun k m => mmaStart k x now m) (fun _ _ => rfl) _ k

/-- The row stream of an MMA at one array of its mask. -/
def mmaStrm (c : CoreId) (x : MmaFields) (now : Nat) (k : Core) (m : Fin 4) : Strm :=
  { strmOf k (.mma c { x with mask := oneMask m }) (issueKey now 1) now (mmaInterval k x m) (x.nM1.val + 1) with
    banks := banksOf k x.bank }

/-- A core after the issue of an MMA: the ports of its tiles and the feeds are taken, and a stream for each array has begun. -/
def mmaTaken (c : CoreId) (x : MmaFields) (now : Nat) (k : Core) : Core :=
  let k1 := mmaStarts x now (takeTiles k (mmaUses k x now))
  { k1 with ops := k1.ops ++ (maskList x.mask).map (mmaStrm c x now k) }

theorem mmaIssue_effect (s : State) (c : CoreId) (x : MmaFields) :
    (mmaIssue c x).effect s = modCore s c (mmaTaken c x (nowAt s c)) := rfl

theorem mem_ops_mmaTaken (c : CoreId) (x : MmaFields) (now : Nat) (k : Core) {m : Fin 4} (h : x.mask.val.testBit m.val = true) :
    mmaStrm c x now k m ∈ (mmaTaken c x now k).ops :=
  List.mem_append_right _ (List.mem_map_of_mem (mem_maskList.2 h))

theorem mmaTaken_frame (c : CoreId) (x : MmaFields) (now : Nat) (k : Core) :
    { mmaTaken c x now k with arrs := k.arrs, ops := k.ops, tileUse := k.tileUse } = k := by
  have h := mmaStarts_frame (takeTiles k (mmaUses k x now)) x now
  exact congrArg (fun u : Core => { u with ops := k.ops, tileUse := k.tileUse }) h

/-- Settles O12: each operation is a change of its core alone, that begins its stream and takes its feed. -/
theorem matrixStreams : Obligations.MatrixStreams := by
  unfold Obligations.MatrixStreams
  intro s c x y z u tr e0 hc k now
  refine ⟨fun hwf hf => ?mma, fun hwf hf => ?wld, fun hf => ?mvm, fun hf => ?wadd, fun hf => ?mvld⟩
  case mma =>
    obtain ⟨t, ht, honly, hcore, -⟩ :=
      exec_slot_setCore (c := c) (i := .mma c x) rfl hwf rfl hc rfl hf (mmaIssue_effect s c x)
    refine ⟨t, ht, honly, ?_⟩
    rw [hcore]
    exact ⟨fun m hm => ⟨feedUntil_mmaStarts _ x now hm, _, mem_ops_mmaTaken c x now k hm, rfl, rfl, rfl, rfl, rfl⟩,
      fun m hm => arrOf_mmaStarts_ne _ x now hm, mmaTaken_frame c x now k⟩
  case wld =>
    obtain ⟨t, ht, honly, hcore, hnow⟩ := exec_slot_setCore (c := c) (i := .wld c y) rfl hwf rfl hc rfl hf rfl
    refine ⟨t, ht, honly, streams_of_strmOf hcore hnow rfl rfl rfl, ?_⟩
    rw [hcore]
    exact ⟨rfl, rfl⟩
  case mvm =>
    obtain ⟨t, ht, honly, hcore, hnow⟩ := exec_slot_setCore (c := c) (i := .mvm c z) rfl rfl rfl hc rfl hf rfl
    refine ⟨t, ht, honly, streams_of_strmOf hcore hnow rfl rfl rfl, ?_⟩
    rw [hcore]
    exact ⟨rfl, rfl⟩
  case wadd =>
    obtain ⟨t, ht, honly, hcore, hnow⟩ := exec_slot_setCore (c := c) (i := .wadd c u) rfl rfl rfl hc rfl hf rfl
    refine ⟨t, ht, ⟨honly, ?_⟩, streams_of_strmOf hcore hnow rfl rfl rfl⟩
    rw [hcore]
    exact ⟨rfl, _, rfl⟩
  case mvld =>
    obtain ⟨t, ht, honly, hcore, -⟩ := exec_slot_setCore (c := c) (i := .mvld c tr e0) rfl rfl rfl hc rfl hf rfl
    refine ⟨t, ht, honly, ?_⟩
    rw [hcore]
    exact ⟨rfl, rfl, rfl⟩

end Sys2Proof.Machine

/-! SUPPORT. The streams of slots S, C and K that move data, and the movement of flits between ring registers and crossings
(R131 to R142, R195, R197, R209, R223, R309). -/

namespace Sys2Proof.Machine

/-! ### Streams that move data -/

/-- A slot instruction that takes ports and appends a stream of one step per tick from its issue tick changes nothing else. -/
theorem exec_dataStream {i : Instr} {x : Issue} {s : State} {c : CoreId} {k : Core} {slot count : Nat} {banks : BitVec 4}
    (hx : issueOf i = some x) (hi : i.wf = true) (hcore : x.core = c) (hc : canIssue s c = true) (hw : x.wait s = none)
    (hf : x.fault s = none) (he : x.effect s = setCore s c k)
    (hframe : { k with
      ops := (coreAt s c).ops, tileUse := (coreAt s c).tileUse, vecUse := (coreAt s c).vecUse
      bankUse := (coreAt s c).bankUse, wideUse := (coreAt s c).wideUse } = coreAt s c)
    (hops : k.ops = (coreAt s c).ops ++
      [{ strmOf (coreAt s c) i (issueKey (nowAt s c) slot) (nowAt s c) 1 count with banks := banks }]) :
    ∃ t, exec i s = .next t ∧ onlyOps c s t ∧ streams t c i slot (nowAt s c) 1 count := by
  obtain ⟨t, ht, honly, hk, hnow⟩ := exec_slot_setCore hx hi hcore hc hw hf he
  have hseq := congrArg Core.seq hframe
  have hlive := congrArg Core.live hframe
  refine ⟨t, ht, ⟨honly, ?_, ?_⟩, streams_of_strmOf hk hnow hops hlive (congrArg Seq.latprof hseq)⟩
  · rw [hk]; exact hframe
  · rw [hk, hops]; exact List.prefix_append ..

/-- Settles O14: each operation takes its ports, if it has any, and appends its stream; FSEND's fields are its own check. -/
theorem dataStreams : Obligations.DataStreams := by
  unfold Obligations.DataStreams
  intro s c hc k now runs
  exact ⟨
    fun q t f m hf => exec_dataStream (x := sldIssue c q t f m) rfl rfl rfl hc rfl hf rfl rfl rfl,
    fun x hf => exec_dataStream (x := sputIssue c x) rfl rfl rfl hc rfl hf rfl rfl rfl,
    fun x hwf hf => exec_dataStream (x := fsendIssue c x) rfl hwf rfl hc rfl hf rfl rfl rfl,
    fun d t hf => exec_dataStream (x := frcvIssue c d t) rfl rfl rfl hc rfl hf rfl rfl rfl,
    fun d n hf => exec_dataStream (x := fxinIssue c d n) rfl rfl rfl hc rfl hf rfl rfl rfl,
    fun e n hf => exec_dataStream (x := csendIssue c e n) rfl rfl rfl hc rfl hf rfl rfl rfl,
    fun x hf => exec_dataStream (x := koutIssue c x) rfl rfl rfl hc rfl hf rfl rfl rfl,
    fun n hf => exec_dataStream (x := xsendIssue c n) rfl rfl rfl hc rfl hf rfl rfl rfl⟩

/-! ### Ring registers and crossings -/

@[simp] theorem ringOf_setRing (k : Core) (d : Dir) (x : Option Flit) : ringOf (setRing k d x) d = x := by cases d <;> rfl
@[simp] theorem ops_setRing (k : Core) (d : Dir) (x : Option Flit) : (setRing k d x).ops = k.ops := by cases d <;> rfl
@[simp] theorem flmSent_setRing (k : Core) (d : Dir) (x : Option Flit) : (setRing k d x).flmSent = k.flmSent := by cases d <;> rfl
@[simp] theorem inboundOf_setInbound (g : Region) (d : Dir) (q : List Flit) : inboundOf (setInbound g d q) d = q := by
  cases d <;> rfl

/-! ### Injection -/

/-- A core whose flit has entered its free ring register, counted as sent (R138). -/
def injected (d : Dir) (f : Flit) (k : Core) : Core :=
  setRing { k with flmSent := BitVec.ofNat 32 (satAdd 32 k.flmSent.toNat 1) } d (some f)

@[simp] theorem ringOf_injected (d : Dir) (f : Flit) (k : Core) : ringOf (injected d f k) d = some f := ringOf_setRing ..
@[simp] theorem ops_injected (d : Dir) (f : Flit) (k : Core) : (injected d f k).ops = k.ops := ops_setRing ..
theorem flmSent_injected (d : Dir) (f : Flit) (k : Core) :
    (injected d f k).flmSent = BitVec.ofNat 32 (satAdd 32 k.flmSent.toNat 1) := flmSent_setRing ..

/-- A flit put into a free ring register meets no collision (R141). -/
theorem ringPut_free {c : CoreId} {d : Dir} (f : Flit) (issued : Nat) {s : State} (h : ringOf (coreAt s c) d = none) :
    ringPut c d f issued s = modCore s c (fun k => setRing k d (some f)) := by
  rw [ringPut, h]

/-- An injection into a free ring register is one update of its core (R138). -/
theorem injectFlit_free {c : CoreId} {d : Dir} (f : Flit) (issued : Nat) {s : State} (h : ringOf (coreAt s c) d = none) :
    injectFlit c d f issued s = modCore s c (injected d f) := by
  rw [injectFlit, ringPut_free]
  · rw [modCore, modCore, coreAt_setCore, setCore_setCore]
    rfl
  · rw [coreAt_modCore]
    cases d <;> exact h

/-- A flit on its way to a free ring register becomes visible in it. -/
theorem applyPend_inject {c : CoreId} {p : Pend} {d : Dir} {f : Flit} {s : State} (hp : p.eff = .inject d f)
    (h : ringOf (coreAt s c) d = none) : applyPend c p s = modCore s c (injected d f) := by
  simp only [applyPend, hp, effFault]
  exact injectFlit_free f p.issued h

/-- The results that FSEND_FLIT_INJECT lets show: injections in its direction. -/
def injectsTo (d : Dir) (e : Eff) : Bool := match e with | .inject x _ => decide (x = d) | _ => false

/-- The operations whose steps FSEND_FLIT_INJECT takes: FSENDs in its direction. -/
def sendsTo (d : Dir) (i : Instr) : Bool := match i with | .fsend _ x => decide (x.dir = d) | _ => false

theorem fsendFlitInject_eq (c : CoreId) (d : Dir) (s : State) :
    fsendFlitInject c d s = runKind (sendsTo d) c (settleKind (injectsTo d) c s) := rfl

/-- The core after the injection of the one flit that is due. -/
def afterInject (d : Dir) (f : Flit) (s : State) (c : CoreId) : Core := injected d f (coreAt (withoutDue (injectsTo d) s c) c)

theorem ops_afterInject (d : Dir) (f : Flit) (s : State) (c : CoreId) : (afterInject d f s c).ops = (coreAt s c).ops := by
  rw [afterInject, ops_injected, withoutDue, coreAt_setCore]

/-- The one result that is due, an injection into a free ring register, changes its core alone. -/
theorem settleKind_inject {c : CoreId} {p : Pend} {d : Dir} {f : Flit} {s : State} (hs : stepsClean s c)
    (hd : dueResults (injectsTo d) s c = [p]) (hp : p.eff = .inject d f) (hr : ringOf (coreAt s c) d = none) :
    settleKind (injectsTo d) c s = setCore s c (afterInject d f s c) := by
  obtain ⟨hu, -, hfaults⟩ := hs
  have hfree : ringOf (coreAt (withoutDue (injectsTo d) s c) c) d = none := by
    rw [withoutDue, coreAt_setCore]
    cases d <;> exact hr
  have happly : applyPend c p (withoutDue (injectsTo d) s c) = setCore s c (afterInject d f s c) := by
    rw [applyPend_inject hp hfree, modCore, ← afterInject]
    exact setCore_setCore ..
  rw [settleKind_lands _ hu, hd, List.foldl_cons, List.foldl_nil, happly]
  exact settleFaults_none _ _ hfaults

/-- With no step of an FSEND due, the injection of the one flit that is due is the whole command (R138). -/
theorem fsendFlitInject_single {c : CoreId} {p : Pend} {d : Dir} {f : Flit} {s : State} (hs : stepsClean s c)
    (hd : dueResults (injectsTo d) s c = [p]) (hp : p.eff = .inject d f)
    (ho : dueOps (sendsTo d) (coreAt s c) (nowAt s c) = []) (hr : ringOf (coreAt s c) d = none) :
    fsendFlitInject c d s = setCore s c (afterInject d f s c) := by
  rw [fsendFlitInject_eq, settleKind_inject hs hd hp hr]
  obtain ⟨-, hwaits, hfaults⟩ := hs
  refine runKind_of_noneDue ?_ hwaits hfaults
  rw [coreAt_setCore, nowAt_setCore, dueOps, ops_afterInject]
  exact ho

/-! ### Exit and forwarding -/

/-- An exit write appends the flit to the next region's crossing and marks the one at the exit (R134). -/
theorem exitWrite_of_ring {r : RegionId} {d : Dir} {f : Flit} {s : State} (h : ringOf (coreAt s (exitPos r d)) d = some f) :
    exitWrite r d s =
      modCore (modRegion s (nextRegion r d) (fun g => setInbound g d (inboundOf g d ++ [{ f with exited := false }])))
        (exitPos r d) (fun k => setRing k d (some { f with exited := true })) := by
  rw [exitWrite, h]

/-- A flit already written at the exit is not due again (R134). -/
theorem exitDue_of_exited {r : RegionId} {d : Dir} {f : Flit} {s : State} (h : ringOf (coreAt s (exitPos r d)) d = some f)
    (he : f.exited = true) : exitDue s r d = false := by
  simp only [exitDue, h, he, Bool.not_true, Bool.and_false, Bool.false_and]

/-- The flit due at an exit whose crossing has room is written (R134). -/
theorem flitExitWrite_of_due {r : RegionId} {d : Dir} {s : State} (ht : regionTicks s r = true) (hh : (regionAt s r).hold = none)
    (hfull : exitFull s r d = false) (hdue : exitDue s r d = true) : flitExitWrite r d s = exitWrite r d s := by
  simp only [flitExitWrite, ht, hh, hfull, hdue, Option.isNone_none, Bool.and_self, if_true, Bool.false_eq_true, if_false]

/-- A region of bypass positions that is ready takes a flit whose CRC checks from its inbound crossing, with one hop less (R136). -/
theorem autoForward_of_ready {r : RegionId} {d : Dir} {f : Flit} {rest : List Flit} {s : State} (ha : autoReady s r d = true)
    (hi : inboundOf (regionAt s r) d = f :: rest) (hf : flitOk f = true) :
    autoForward r d s = modCore (modRegion s r (fun g => setInbound g d rest)) (entryPos r d)
      (fun k => setRing k d (some { f with ttl := f.ttl - 1, exited := false })) := by
  simp only [autoForward, ha, hi, hf, if_true]
  rfl

/-- Settles O25: each movement is one update of a ring register, beside that of the crossing it reads or writes. -/
theorem flitMovement : Obligations.FlitMovement := by
  unfold Obligations.FlitMovement
  intro s r c d f rest p
  refine ⟨fun hs hd hp ho hr => ?inject, fun ht hh hfull hdue hring => ?leave, fun ha hi hf => ?forward⟩
  case inject =>
    refine ⟨_, congrArg Host.Outcome.next (fsendFlitInject_single hs hd hp ho hr), ?_, ?_, ?_⟩
    · rw [onlyCore, coreAt_setCore]
    · rw [coreAt_setCore, afterInject, ringOf_injected]
    · rw [coreAt_setCore, afterInject, flmSent_injected, withoutDue, coreAt_setCore]
      rfl
  case leave =>
    refine ⟨_, congrArg Host.Outcome.next ((flitExitWrite_of_due ht hh hfull hdue).trans (exitWrite_of_ring hring)), ?_, ?_,
      exitDue_of_exited (f := { f with exited := true }) ?_ rfl⟩
    · rw [regionAt_modCore, regionAt_modRegion, inboundOf_setInbound]
    all_goals rw [coreAt_modCore, ringOf_setRing]
  case forward =>
    refine ⟨_, congrArg Host.Outcome.next (autoForward_of_ready ha hi hf), ?_, ?_, fun e he => ?_⟩
    · rw [regionAt_modCore, regionAt_modRegion, inboundOf_setInbound]
    · rw [coreAt_modCore, ringOf_setRing]
    · rw [coreAt_modCore_ne _ _ _ _ he, coreAt_modRegion]

end Sys2Proof.Machine

/-! SUPPORT. The streams of slot V, and their hold of the vector pipe (R146, R150, R154 to R163). -/

namespace Sys2Proof.Machine

/-- A slot instruction without a wait or a fault, whose effect is that of `vStart`, holds the pipe and streams, whatever the operation
captures at issue and whatever use of a wide tile it takes beside the ports. -/
theorem exec_vectorStream {i : Instr} {x : Issue} {s : State} {c : CoreId} {op : Byte} {busy first count : Nat}
    {vs ts bs ws : List PortUse} {banks : BitVec 4} {s0 s1 : Word} {rows : List (BitVec 32)} (hx : issueOf i = some x)
    (hi : i.wf = true) (hcore : x.core = c) (hc : canIssue s c = true) (hw : x.wait s = none) (hf : x.fault s = none)
    (he : x.effect s = setCore s c { vStart (coreAt s c) op (nowAt s c + busy) vs ts bs
      { strmOf (coreAt s c) i (vKey (nowAt s c)) (nowAt s c + first) 1 count with
        banks := banks, s0 := s0, s1 := s1, rows := rows } with wideUse := ws }) :
    ∃ t, exec i s = .next t ∧ vectorIssued c i op busy first count s t := by
  obtain ⟨t, ht, honly, hk, hnow⟩ := exec_slot_setCore hx hi hcore hc hw hf he
  refine ⟨t, ht, honly, streams_of_strmOf hk hnow rfl rfl rfl, ?_⟩
  rw [hk]
  exact ⟨rfl, List.prefix_append .., rfl⟩

/-- Settles O13: each operation is a `vStart` on its core; VDRN and VRESC step by rows from the next tick, the others by groups of
rows from their own, and VWCV takes its wide tile beside. -/
theorem vectorStreams : Obligations.VectorStreams := by
  unfold Obligations.VectorStreams
  intro s c hc rows runs
  exact ⟨
    fun x hwf hf => exec_vectorStream (x := vdrnIssue c x) rfl hwf rfl hc rfl hf rfl,
    fun x hf => exec_vectorStream (x := vldIssue c x) rfl rfl rfl hc rfl hf rfl,
    fun x hf => exec_vectorStream (x := vstIssue c x) rfl rfl rfl hc rfl hf rfl,
    fun x hwf hf => exec_vectorStream (x := vopIssue c x) rfl hwf rfl hc rfl hf rfl,
    fun x hwf hf => exec_vectorStream (x := vfnIssue c x) rfl hwf rfl hc rfl hf rfl,
    fun x hwf hf => exec_vectorStream (x := vredIssue c x) rfl hwf rfl hc rfl hf rfl,
    fun x hf => exec_vectorStream (x := vsmxIssue c x) rfl rfl rfl hc rfl hf rfl,
    fun x hf => exec_vectorStream (x := vrescIssue c x) rfl rfl rfl hc rfl hf rfl,
    fun x hf => exec_vectorStream (x := vsmxfIssue c x) rfl rfl rfl hc rfl hf rfl,
    fun x hf => exec_vectorStream (x := vwcvIssue c x) rfl rfl rfl hc rfl hf rfl,
    fun x hf => exec_vectorStream (x := vrngIssue c x) rfl rfl rfl hc rfl hf rfl⟩

end Sys2Proof.Machine

/-! SUPPORT. The Skidder of a core: what its updates of a queue and of a Boom queue leave and write, and each of its steps as one
update of its core (R188, R189, R192, R200). -/

namespace Sys2Proof.Machine

/-! ### Queues and Boom queues -/

@[simp] theorem qOf_modQ (k : Core) (q : QId) (f : StreamQ → StreamQ) : qOf (modQ k q f) q = f (qOf k q) := get_set_self ..

theorem qOf_modQ_ne (k : Core) {q x : QId} (f : StreamQ → StreamQ) (h : x ≠ q) : qOf (modQ k q f) x = qOf k x := get_set_other _ _ _ _ h

@[simp] theorem boomOf_modQ (k : Core) (q : QId) (f : StreamQ → StreamQ) (b : Fin 8) : boomOf (modQ k q f) b = boomOf k b := rfl
@[simp] theorem qOf_setBoom (k : Core) (b : Fin 8) (hs : List Word) (q : QId) : qOf (setBoom k b hs) q = qOf k q := rfl

/-- An update that keeps the started descriptors of the queue it changes keeps those of every queue. -/
theorem act_modQ {f : StreamQ → StreamQ} (hf : ∀ q, (f q).act = q.act) (k : Core) (x q : QId) :
    (qOf (modQ k x f) q).act = (qOf k q).act := by
  by_cases h : q = x
  · rw [h, qOf_modQ, hf]
  · rw [qOf_modQ_ne k f h]

theorem mem_act_modAct {q : StreamQ} {a : ActDesc} (f : ActDesc → ActDesc) (h : a ∈ q.act) : f a ∈ (modAct q a.seqNo f).act :=
  List.mem_map.mpr ⟨a, h, if_pos rfl⟩

theorem onlyCore_setCore (s : State) (c : CoreId) (k : Core) : onlyCore c s (setCore s c k) := by rw [onlyCore, coreAt_setCore]

/-! ### Descriptor start -/

/-- A released descriptor with words `d` as it starts in `period` (R188). -/
def startedDesc (r : RelDesc) (d : Desc) (period : Nat) : ActDesc :=
  { index := r.index, desc := d, base := r.base, seqNo := r.seqNo, startPeriod := BitVec.ofNat 64 period, handle := none
    handleTaken := false, issued := 0, landed := 0, count := none, item := none, itemsTaken := 0, firstEntry := 0
    boutDone := false, donePeriod := none }

/-- The lists of a queue as a started descriptor leaves them: the count of a list without COUNTED follows from its length (R193). -/
def listsStarted (r : RelDesc) (d : Desc) (period : Nat) (ls : List ListCount) : List ListCount :=
  if dKind d = 4 ∧ dCounted d = false then
    ls.map (fun l => if l.list = r.seqNo then
      { l with count := some (BitVec.ofNat 32 (dLength d * 8)), knownPeriod := BitVec.ofNat 64 period } else l)
  else ls

/-- A queue whose oldest released descriptor has started. -/
def withStarted (r : RelDesc) (d : Desc) (period : Nat) (q : StreamQ) : StreamQ :=
  { q with
    rel := q.rel.drop 1, act := q.act ++ [startedDesc r d period], started := q.started + 1#24
    lastStart := some (BitVec.ofNat 64 period), lists := listsStarted r d period q.lists }

/-- A descriptor that passes R186's checks starts. -/
theorem startDesc_of_ready {s : State} {c : CoreId} {qi : QId} {r : RelDesc} (hr : startReady s c qi = some r)
    (hd : descCheck s (coreAt s c) (qOf (coreAt s c) qi) (relWords (coreAt s c) qi r) r.base = none) :
    startDesc c qi s =
      setCore s c (modQ (coreAt s c) qi (withStarted r (relWords (coreAt s c) qi r) (periodAt s c))) := by
  simp only [startDesc, hr, hd]
  rfl

/-! ### Handle take -/

/-- A descriptor with a handle that left BIN (R200). -/
def withHandle (h : Word) (a : ActDesc) : ActDesc := { a with handle := some h, handleTaken := true }

/-- The extent of a descriptor lies within the buffer of the handle and within what it may touch; that of a gather grows with its
items and is not looked at here (R185, R186, R200). -/
def handleFits (s : State) (k : Core) (a : ActDesc) (h : Word) : Prop :=
  dKind a.desc = 3 ∨ (dBytes a.desc ≤ handleSize h ∧
    (landsInBuffer a.desc = true → handleAddr h + dBytes a.desc ≤ storeSize) ∧
    ((dBuf a.desc ≠ 2 ∧ dKind a.desc ≠ 2) ∨ rowsAllowed s k a.desc a.base (some h) = true))

/-- A handle whose buffer the extent fits raises no fault. -/
theorem handleFault_of_fits {s : State} {k : Core} {a : ActDesc} {h : Word} (hf : handleFits s k a h) :
    (decide (dKind a.desc ≠ 3) && (decide (handleSize h < dBytes a.desc) ||
      ((landsInBuffer a.desc && decide (storeSize < handleAddr h + dBytes a.desc)) ||
        ((dBuf a.desc == 2 || dKind a.desc == 2) && !rowsAllowed s k a.desc a.base (some h))))) = false := by
  obtain hgather | ⟨hsize, hstore, hrows⟩ := hf
  · simp [hgather]
  · have hbig : decide (handleSize h < dBytes a.desc) = false := decide_eq_false (Nat.not_lt.mpr hsize)
    have hpast : (landsInBuffer a.desc && decide (storeSize < handleAddr h + dBytes a.desc)) = false := by
      rw [Bool.and_eq_false_imp]
      exact fun hl => decide_eq_false (Nat.not_lt.mpr (hstore hl))
    have hout : ((dBuf a.desc == 2 || dKind a.desc == 2) && !rowsAllowed s k a.desc a.base (some h)) = false := by
      obtain ⟨hbuf, hkind⟩ | hrows := hrows
      · simp [hbuf, hkind]
      · simp [hrows]
    rw [hbig, hpast, hout, Bool.or_self, Bool.or_self, Bool.and_false]

/-- The first descriptor without its handle takes one that fits from BIN. -/
theorem takeHandle_of_fits {s : State} {c : CoreId} {qi : QId} {a : ActDesc} {h : Word} {rest : List Word}
    (ha : handleNext (qOf (coreAt s c) qi) = some a) (hb : boomOf (coreAt s c) (dBin a.desc) = h :: rest)
    (hr : skdRuns (coreAt s c) (qOf (coreAt s c) qi) = true) (hf : handleFits s (coreAt s c) a h) :
    takeHandle c qi s =
      setCore s c (modQ (setBoom (coreAt s c) (dBin a.desc) rest) qi (fun q => modAct q a.seqNo (withHandle h))) := by
  simp only [takeHandle, ha, hb, hr, handleFault_of_fits hf, if_true, Bool.false_eq_true, if_false]
  rfl

/-! ### Transfer issue -/

/-- The core with the entries of a transfer reserved, where it lands in entries (R189). -/
def withReserved (k : Core) (qi : QId) (a : ActDesc) (p : XferPlan) : Core :=
  if decide (dKind a.desc = 2) = true ∨ landsInBuffer a.desc = true then k else reserveEntries k qi a (planNeeds (qOf k qi) a p)

/-- A reservation changes the local store and the entries of one queue; its transfers, like the rest of the core, stay. -/
theorem withReserved_frame (k : Core) (qi : QId) (a : ActDesc) (p : XferPlan) :
    (qOf (withReserved k qi a p) qi).xfers = (qOf k qi).xfers ∧ (withReserved k qi a p).seq = k.seq ∧
      (withReserved k qi a p).tiles = k.tiles ∧ (withReserved k qi a p).skd.requests = k.skd.requests := by
  unfold withReserved
  split
  · exact ⟨rfl, rfl, rfl, rfl⟩
  · refine ⟨?_, rfl, rfl, rfl⟩
    rw [reserveEntries, qOf_modQ]
    rfl

/-- A queue after transfer `x` of a descriptor has issued: the descriptor moves on, the transfer is outstanding, and the bytes of a
write leave the queue (R189, R192, R197). -/
def withIssued (a : ActDesc) (p : XferPlan) (x : Xfer) (n : Nat) (q : StreamQ) : StreamQ :=
  let q1 := modAct q a.seqNo (fun b =>
    { b with
      issued := b.issued + p.len
      item := if dKind b.desc = 3 ∧ (b.issued + p.len) % dBytes b.desc = 0 then none else b.item })
  { q1 with xfers := q1.xfers ++ [x], xferId := n + 1, wHead := if decide (dKind a.desc = 2) then q1.wHead + p.len else q1.wHead }

/-- A core whose Skidder has issued in `period`: the pieces of the transfer, if it has any, wait in the memory request crossing (R189). -/
def withRequest (period : Nat) (pieces : List (Fin 8 × Piece)) (k : Core) : Core :=
  { k with skd := { k.skd with
      lastIssue := some (BitVec.ofNat 64 period)
      requests := if pieces.isEmpty then k.skd.requests else k.skd.requests ++ [pieces] } }

/-- An issue is one update of its core; a transfer in the local store has no pieces. -/
theorem issueTransfer_of_ready {s : State} {c : CoreId} {qi : QId} {a : ActDesc} {p : XferPlan}
    (h : issueReady s c = some (qi, a, p)) :
    ∃ x pieces, (memLocal a.desc = true → pieces = []) ∧
      issueTransfer c s = setCore s c (withRequest (periodAt s c) pieces
        (modQ (withReserved (coreAt s c) qi a p) qi (withIssued a p x (qOf (coreAt s c) qi).xferId))) := by
  unfold issueTransfer
  rw [h]
  refine ⟨_, _, fun hl => ?_, rfl⟩
  rw [if_pos hl, List.foldl_nil]

/-! ### Gather index -/

/-- An index queue after a gather took its next value, with the last one the rest of that entry (R192). -/
def withIndexTaken (last : Bool) (q : StreamQ) : StreamQ :=
  if last && decide ((qTake q 4).taken ≠ 0) then qDropEntries (qTake q 4) 1 else qTake q 4

theorem act_withIndexTaken (last : Bool) (q : StreamQ) : (withIndexTaken last q).act = q.act := by
  unfold withIndexTaken
  split <;> rfl

/-- A gather with its next index value (R192). -/
def withItem (v : Nat) (a : ActDesc) : ActDesc := { a with item := some (BitVec.ofNat 32 v), itemsTaken := a.itemsTaken + 1 }

/-- A gather without a handle takes its next value, where the item that the value addresses is allowed. -/
theorem takeIndex_of_allowed {s : State} {c : CoreId} {qi : QId} {a : ActDesc} {e : Nat}
    (ha : issuing (coreAt s c) (qOf (coreAt s c) qi) = some a)
    (he : gatherKnown (coreAt s c) (qOf (coreAt s c) qi) a.seqNo = some e) (hk : dKind a.desc = 3) (hi : a.item = none)
    (hlt : a.itemsTaken < e) (hav : 4 ≤ qAvail (qOf (coreAt s c) (dIdxq a.desc)) (periodAt s c))
    (hr : skdRuns (coreAt s c) (qOf (coreAt s c) qi) = true) (hb : dBuf a.desc = 0)
    (hok : runAllowed s (coreAt s c) a.desc
      (baseAddr a.desc a.base (memHandle a.desc a.handle) (leNat (qPeek (coreAt s c) (dIdxq a.desc) 4))) (dBytes a.desc) = true) :
    takeIndex c qi s = setCore s c
      (modQ (modQ (coreAt s c) (dIdxq a.desc) (withIndexTaken (decide (a.itemsTaken + 1 = e)))) qi
        (fun q => modAct q a.seqNo (withItem (leNat (qPeek (coreAt s c) (dIdxq a.desc) 4))))) := by
  have hguard : dKind a.desc = 3 ∧ a.item.isNone = true ∧ a.itemsTaken < e ∧
      4 ≤ qAvail (qOf (coreAt s c) (dIdxq a.desc)) (periodAt s c) ∧ skdRuns (coreAt s c) (qOf (coreAt s c) qi) = true ∧
      (dBuf a.desc = 0 ∨ a.handleTaken = true) :=
    ⟨hk, Option.isNone_iff_eq_none.mpr hi, hlt, hav, hr, .inl hb⟩
  have hqueue : landsInBuffer a.desc = false := by simp [landsInBuffer, hb]
  simp only [takeIndex, ha, he, if_pos hguard]
  rw [hok, hb, hqueue]
  rfl

/-! ### Handle push -/

/-- The handle of a complete descriptor passes on to a BOUT with room, from the period after its completion (R200). -/
theorem pushBout_of_room {s : State} {c : CoreId} {qi : QId} {a : ActDesc}
    (ha : (qOf (coreAt s c) qi).act.find? (fun a => a.donePeriod.isSome && dBoutEn a.desc && a.handleTaken) = some a)
    (hp : (a.donePeriod.getD 0).toNat < periodAt s c) (hroom : (boomOf (coreAt s c) (dBout a.desc)).length < 16) :
    pushBout c qi s = setCore s c (setBoom
      (modQ (coreAt s c) qi (fun q => { q with act := q.act.filter (fun x => x.seqNo != a.seqNo) })) (dBout a.desc)
      (boomOf (coreAt s c) (dBout a.desc) ++ [a.handle.getD 0])) := by
  simp only [pushBout, ha]
  exact if_pos ⟨hp, hroom⟩

/-- Settles O26: each step is one update of its core, and the rules of queues and Boom queues read off what it changes. -/
theorem skidderProgress : Obligations.SkidderProgress := by
  unfold Obligations.SkidderProgress
  intro s c qi k q
  refine ⟨fun r hr hd => ?start, fun a h rest ha hb hr hf => ?take, fun a p hp => ?issue,
    fun a e ha he hk hi hlt hav hr hb hok => ?index, fun a ha hp hroom => ?push⟩
  case start =>
    refine ⟨_, congrArg Host.Outcome.next (startDesc_of_ready hr hd), onlyCore_setCore .., ?_⟩
    rw [coreAt_setCore, qOf_modQ]
    exact ⟨rfl, rfl, ⟨_, rfl, rfl, rfl, rfl, rfl⟩, fun x hx => qOf_modQ_ne k _ hx⟩
  case take =>
    refine ⟨_, congrArg Host.Outcome.next (takeHandle_of_fits ha hb hr hf), onlyCore_setCore .., ?_⟩
    rw [coreAt_setCore, qOf_modQ, boomOf_modQ, boomOf_setBoom]
    exact ⟨rfl, rfl, withHandle h a, mem_act_modAct _ (List.mem_of_find?_eq_some ha), rfl, rfl, rfl⟩
  case issue =>
    obtain ⟨x, pieces, hlocal, hissue⟩ := issueTransfer_of_ready hp
    obtain ⟨hxfers, hseq, htiles, hrequests⟩ := withReserved_frame k qi a p
    refine ⟨_, congrArg Host.Outcome.next hissue, onlyCore_setCore .., ?_⟩
    rw [coreAt_setCore]
    have hq : qOf (withRequest (periodAt s c) pieces (modQ (withReserved k qi a p) qi (withIssued a p x q.xferId))) qi =
        withIssued a p x q.xferId (qOf (withReserved k qi a p) qi) := qOf_modQ ..
    refine ⟨?_, congrArg StreamQ.xferId hq, rfl, hseq, htiles, fun hl => ?_⟩
    · rw [hq, ← hxfers]
      exact List.length_append
    · rw [hlocal hl]
      exact hrequests
  case index =>
    refine ⟨_, congrArg Host.Outcome.next (takeIndex_of_allowed ha he hk hi hlt hav hr hb hok), onlyCore_setCore .., ?_⟩
    rw [coreAt_setCore, qOf_modQ]
    refine ⟨withItem _ a, mem_act_modAct _ ?_, rfl, rfl, rfl⟩
    rw [act_modQ (act_withIndexTaken _)]
    exact List.mem_of_find?_eq_some ha
  case push =>
    refine ⟨_, congrArg Host.Outcome.next (pushBout_of_room ha hp hroom), onlyCore_setCore .., ?_⟩
    rw [coreAt_setCore, boomOf_setBoom, qOf_setBoom, qOf_modQ]
    exact ⟨rfl, fun b hb => bne_iff_ne.mp (List.mem_filter.mp hb).2⟩

end Sys2Proof.Machine

/-! SUPPORT. What the updates of an endpoint leave and write, what an item does when it reaches its endpoint, and from it the statement
on what reaches a channel endpoint (R208, R214, R216, R217, R224). -/

namespace Sys2Proof.Machine

/-! ### Endpoints -/

@[simp] theorem epOf_modEp (k : Core) (e : Fin 32) (f : Endpoint → Endpoint) : epOf (modEp k e f) e = f (epOf k e) := get_set_self ..

theorem epOf_modEp_ne (k : Core) {e x : Fin 32} (f : Endpoint → Endpoint) (h : x ≠ e) : epOf (modEp k e f) x = epOf k x :=
  get_set_other _ _ _ _ h

@[simp] theorem coreAt_setEp (c : CoreId) (e : Fin 32) (f : Endpoint → Endpoint) (s : State) :
    coreAt (setEp c e f s) c = modEp (coreAt s c) e f := coreAt_modCore ..

theorem epOf_setEp (c : CoreId) (e : Fin 32) (f : Endpoint → Endpoint) (s : State) :
    epOf (coreAt (setEp c e f s) c) e = f (epOf (coreAt s c) e) := by rw [coreAt_setEp, epOf_modEp]

@[simp] theorem setEp_setEp (c : CoreId) (e : Fin 32) (f g : Endpoint → Endpoint) (s : State) :
    setEp c e g (setEp c e f s) = setEp c e (fun y => g (f y)) s := by
  simp [setEp, modCore, modEp, epOf]

theorem setEp_id (c : CoreId) (e : Fin 32) (s : State) : setEp c e (fun y => y) s = s := by
  have hcore : modEp (coreAt s c) e (fun y => y) = coreAt s c :=
    congrArg (fun v => { coreAt s c with eps := v }) (set_get_self ..)
  rw [setEp, modCore, hcore, setCore_coreAt]

/-! ### Settling of messages at their sender -/

/-- An endpoint with one message fewer unsettled (R217). -/
def oneSettled (y : Endpoint) : Endpoint := { y with unsettled := y.unsettled - 1 }

/-- The state in which the peer that the channel word `w` names, where the part has it, has one message fewer unsettled (R217). -/
def peerSettled (w : BitVec 29) (s : State) : State :=
  match physicalOf s (chPeer w) with
  | some p => setEp p (chPeerEp w) oneSettled s
  | none => s

/-- From `s` to `t` nothing of a core changes but how many messages its endpoints have unsettled. -/
structure OnlySettles (s t : State) : Prop where
  core : ∀ d, { coreAt t d with eps := (coreAt s d).eps } = coreAt s d
  endpoint : ∀ d x, { epOf (coreAt t d) x with unsettled := (epOf (coreAt s d) x).unsettled } = epOf (coreAt s d) x

theorem onlySettles_refl (s : State) : OnlySettles s s := ⟨fun _ => rfl, fun _ _ => rfl⟩

theorem onlySettles_setEp (p : CoreId) (e : Fin 32) (s : State) : OnlySettles s (setEp p e oneSettled s) where
  core d := modCore_keeps (fun k => { k with eps := (coreAt s d).eps }) s p d (fun k => modEp k e oneSettled) fun _ => rfl
  endpoint d x := modCore_keeps (fun k => { epOf k x with unsettled := (epOf (coreAt s d) x).unsettled }) s p d _ fun k => by
    by_cases h : x = e
    · rw [h, epOf_modEp]; rfl
    · rw [epOf_modEp_ne k _ h]

theorem onlySettles_settle (m : ChMsg) (s : State) : OnlySettles s (settle m s) := onlySettles_setEp ..

theorem onlySettles_peerSettled (w : BitVec 29) (s : State) : OnlySettles s (peerSettled w s) := by
  unfold peerSettled
  split
  · exact onlySettles_setEp ..
  · exact onlySettles_refl s

/-- The endpoint after its own update and then the settling of messages. -/
theorem OnlySettles.endpoint_setEp {c : CoreId} {e : Fin 32} {f : Endpoint → Endpoint} {s t : State} (h : OnlySettles (setEp c e f s) t) :
    { epOf (coreAt t c) e with unsettled := (f (epOf (coreAt s c) e)).unsettled } = f (epOf (coreAt s c) e) := by
  have he := h.endpoint c e
  rwa [epOf_setEp] at he

/-- The core after an update of an endpoint of its own and then the settling of messages. -/
theorem OnlySettles.core_setEp {c : CoreId} {e : Fin 32} {f : Endpoint → Endpoint} {s t : State} (h : OnlySettles (setEp c e f s) t) :
    { coreAt t c with eps := (coreAt s c).eps } = coreAt s c := by
  have hk := congrArg (fun k : Core => { k with eps := (coreAt s c).eps }) (h.core c)
  rwa [coreAt_setEp] at hk

/-! ### Messages that wait at their endpoint -/

theorem drainHeld_of_empty {c : CoreId} {e : Fin 32} {s : State} (n : Nat) (h : (epOf (coreAt s c) e).held = []) :
    drainHeld c e n s = s := by
  cases n with
  | zero => rfl
  | succ n => simp only [drainHeld, h]

/-- In register mode messages wait for software: none lands (R208). -/
theorem drainHeld_of_register {c : CoreId} {e : Fin 32} {s : State} (n : Nat) (h : chLand (epOf (coreAt s c) e).word = 0) :
    drainHeld c e n s = s := by
  have hland : canLand (coreAt s c) (epOf (coreAt s c) e) = false := by simp [canLand, h]
  cases n with
  | zero => rfl
  | succ n =>
    cases hheld : (epOf (coreAt s c) e).held with
    | nil => exact drainHeld_of_empty _ hheld
    | cons d rest => simp only [drainHeld, hheld, hland, Bool.false_eq_true, if_false]

/-- An endpoint in flag mode whose only message lands and counts (R214). -/
def flagCounted (y : Endpoint) : Endpoint := { y with held := [], flag := y.flag + 1#32 }

/-- The only message that waits at an endpoint in flag mode without AUTOACK lands, counts, and is settled at its sender (R214, R217). -/
theorem drainHeld_of_flag {c : CoreId} {e : Fin 32} {s : State} {d : Desc} (n : Nat) (hheld : (epOf (coreAt s c) e).held = [d])
    (hland : chLand (epOf (coreAt s c) e).word = 4) (hack : chAutoAck (epOf (coreAt s c) e).word = false) :
    drainHeld c e (n + 1) s = peerSettled (epOf (coreAt s c) e).word (setEp c e flagCounted s) := by
  have hcan : canLand (coreAt s c) (epOf (coreAt s c) e) = true := by simp [canLand, hland]
  have hauto : autoAcks (epOf (coreAt s c) e).word = false := by simp [autoAcks, hack]
  have hcount : landEffect (modEp (coreAt s c) e (fun y => { y with held := [] })) e d (nowAt s c) (periodAt s c) =
      modEp (coreAt s c) e flagCounted := by
    simp only [landEffect, epOf_modEp, hland]
    simp [modEp, epOf, flagCounted]
  simp only [drainHeld, hheld, hcan, hauto, if_true, Bool.false_eq_true, if_false, hcount]
  exact drainHeld_of_empty n (congrArg Endpoint.held (onlySettles_peerSettled ..).endpoint_setEp)

/-! ### Items that reach their endpoint -/

/-- An endpoint without the item `m` in transit. -/
def itemTaken (m : ChMsg) (y : Endpoint) : Endpoint := { y with transit := dropItem m y.transit }

/-- An endpoint that has taken a message with the words `d`, which waits (R208). -/
def messageHeld (d : Desc) (y : Endpoint) : Endpoint := { y with held := y.held ++ [d], occ := y.occ + 1#7 }

/-- A send end that receives `n` credits of generation `gen` for a channel of depth `depth` (R208). -/
def creditsRaised (n depth : Nat) (gen : BitVec 4) (y : Endpoint) : Endpoint :=
  { y with credits := BitVec.ofNat 7 (Nat.max y.credits.toNat (Nat.min (y.credits.toNat + n) depth)), creditGen := gen }

/-- A send end that receives a discard notice: a message that had landed in register mode was settled as it landed (R217). -/
def noticeSettled (landed : Bool) (y : Endpoint) : Endpoint :=
  { y with unsettled := if landed = true then y.unsettled else y.unsettled - 1 }

/-- A core that has counted one discarded message more (R217, R224). -/
def discardCounted (k : Core) : Core :=
  { k with chDiscards := BitVec.ofNat 32 (Nat.min (k.chDiscards.toNat + 1) (2 ^ 32 - 1)) }

@[simp] theorem epOf_discardCounted (k : Core) (e : Fin 32) : epOf (discardCounted k) e = epOf k e := rfl

section
variable {s : State} {c : CoreId} {e : Fin 32} {m : ChMsg} {kind : ChMsgKind → Bool}
  (hnext : nextItem (mayArrive kind (nowAt s c)) [] (epOf (coreAt s c) e).transit = some m)
  (hpeer : peerIs s (epOf (coreAt s c) e).word m = true)
include hnext

/-- The next item of a kind leaves the transit and takes effect. -/
theorem arriveKind_of_next : arriveKind kind c e s = arrive c e m (setEp c e (itemTaken m) s) := by
  simp only [arriveKind, hnext]
  rfl

include hpeer

/-- A message to an open receive end of its peer and generation waits there: in register mode it is settled at once, else it lands as
soon as it can (R208, R214). -/
theorem arriveKind_of_message {d : Desc} (hkind : m.kind = .message d) (hopen : (epOf (coreAt s c) e).isOpen = true)
    (hrecv : chRecv (epOf (coreAt s c) e).word = true) (hgen : m.gen = (epOf (coreAt s c) e).gen) :
    arriveKind kind c e s =
      if chLand (epOf (coreAt s c) e).word = 0 then settle m (setEp c e (fun y => messageHeld d (itemTaken m y)) s)
      else drainHeld c e 65 (setEp c e (fun y => messageHeld d (itemTaken m y)) s) := by
  rw [arriveKind_of_next hnext, ← setEp_setEp c e (itemTaken m) (messageHeld d)]
  simp only [arrive, hkind, arriveMessage, epOf_setEp]
  exact if_pos ⟨hopen, hrecv, hpeer, hgen⟩

variable (hsend : isSendEnd (epOf (coreAt s c) e) = true)
include hsend

/-- Credits raise those of an open send end of their peer, up to the depth (R208). -/
theorem arriveKind_of_credit {n depth : Nat} (hkind : m.kind = .credit n depth) :
    arriveKind kind c e s = setEp c e (fun y => creditsRaised n depth m.gen (itemTaken m y)) s := by
  rw [arriveKind_of_next hnext, ← setEp_setEp c e (itemTaken m)]
  simp only [arrive, hkind, epOf_setEp]
  exact if_pos (Bool.and_eq_true_iff.mpr ⟨hsend, hpeer⟩)

/-- A close notice marks its peer closed (R216). -/
theorem arriveKind_of_close (hkind : m.kind = .close) :
    arriveKind kind c e s = setEp c e (fun y => { itemTaken m y with peerClosed := true }) s := by
  rw [arriveKind_of_next hnext, ← setEp_setEp c e (itemTaken m) (fun y => { y with peerClosed := true })]
  simp only [arrive, hkind, epOf_setEp]
  exact if_pos (Bool.and_eq_true_iff.mpr ⟨hsend, hpeer⟩)

/-- A discard notice settles its message and, where closing is tolerated, is counted (R217). -/
theorem arriveKind_of_discard {landed : Bool} (hkind : m.kind = .discard landed)
    (htol : chTolerate (epOf (coreAt s c) e).word = true) :
    arriveKind kind c e s =
      modCore (setEp c e (fun y => noticeSettled landed (itemTaken m y)) s) c discardCounted := by
  have hsettle (u : State) : (if landed = true then u else setEp c e (fun y => { y with unsettled := y.unsettled - 1 }) u) =
      setEp c e (noticeSettled landed) u := by
    cases landed with
    | true => exact (setEp_id c e u).symm
    | false => rfl
  rw [arriveKind_of_next hnext, ← setEp_setEp c e (itemTaken m)]
  simp only [arrive, hkind, hsettle, discardAt, epOf_setEp]
  exact (if_pos (Bool.and_eq_true_iff.mpr ⟨hsend, hpeer⟩)).trans (if_pos htol)

end

/-- Credits up to a depth within the counter's range are the sum, capped at the depth (R208). -/
theorem creditsRaised_credits {n depth : Nat} {y : Endpoint} (gen : BitVec 4) (hle : y.credits.toNat ≤ depth) (hdepth : depth ≤ 64) :
    (creditsRaised n depth gen y).credits.toNat = Nat.min (y.credits.toNat + n) depth := by
  have hmax : Nat.max y.credits.toNat (Nat.min (y.credits.toNat + n) depth) = Nat.min (y.credits.toNat + n) depth :=
    Nat.max_eq_right (Nat.le_min.mpr ⟨Nat.le_add_right .., hle⟩)
  have hrange : Nat.min (y.credits.toNat + n) depth < 2 ^ 7 := Nat.lt_of_le_of_lt (Nat.min_le_right ..) (by omega)
  rw [creditsRaised, hmax, BitVec.toNat_ofNat, Nat.mod_eq_of_lt hrange]

/-- Settles O28: each arrival is an update of its endpoint, of its sender's count of unsettled messages, or of the count of discards. -/
theorem channelArrivals : Obligations.ChannelArrivals := by
  unfold Obligations.ChannelArrivals
  intro s c e m k x arrives fromPeer
  have sends : x.isOpen = true → chRecv x.word = false → isSendEnd x = true := fun ho hr => by simp [isSendEnd, ho, hr]
  refine ⟨fun d hn hk ⟨ho, hp⟩ hr hg hl => ?register, fun d hn hk ⟨ho, hp⟩ hr hg hl hheld hack => ?flag,
    fun n depth hn hk ⟨ho, hp⟩ hr hle hdepth => ?credit, fun hn hk ⟨ho, hp⟩ hr => ?close,
    fun landed hn hk ⟨ho, hp⟩ hr htol hfaults => ?discard⟩
  case register =>
    have hland := (arriveKind_of_message hn hp hk ho hr hg).trans (if_pos hl)
    have hset := onlySettles_settle m (setEp c e (fun y => messageHeld d (itemTaken m y)) s)
    have hep := hset.endpoint_setEp
    have hword := congrArg (fun y : Endpoint => chLand y.word) hep
    refine ⟨_, congrArg Host.Outcome.next ((congrArg (drainHeld c e 65) hland).trans (drainHeld_of_register 65 (hword.trans hl))), ?_⟩
    exact ⟨congrArg Endpoint.held hep, congrArg Endpoint.occ hep, congrArg Endpoint.transit hep,
      (congrArg Core.store hset.core_setEp :), (congrArg Core.seq hset.core_setEp :)⟩
  case flag =>
    have hland := (arriveKind_of_message hn hp hk ho hr hg).trans (if_neg fun h0 => absurd (hl.symm.trans h0) (by decide))
    have hep := epOf_setEp c e (fun y => messageHeld d (itemTaken m y)) s
    have hone : (messageHeld d (itemTaken m x)).held = [d] := congrArg (· ++ [d]) hheld
    have hdrain := drainHeld_of_flag 64 ((congrArg Endpoint.held hep).trans hone) ((congrArg (fun y => chLand y.word) hep).trans hl)
      ((congrArg (fun y => chAutoAck y.word) hep).trans hack)
    rw [hep, setEp_setEp] at hdrain
    have hset := onlySettles_peerSettled x.word (setEp c e (fun y => flagCounted (messageHeld d (itemTaken m y))) s)
    have hend := hset.endpoint_setEp
    refine ⟨_, congrArg Host.Outcome.next ((congrArg (drainHeld c e 65) (hland.trans hdrain)).trans
      (drainHeld_of_empty 65 (congrArg Endpoint.held hend))), ?_⟩
    exact ⟨congrArg Endpoint.flag hend, congrArg Endpoint.occ hend, congrArg Endpoint.held hend,
      (congrArg Core.store hset.core_setEp :)⟩
  case credit =>
    refine ⟨_, congrArg Host.Outcome.next (arriveKind_of_credit hn hp (sends ho hr) hk), onlyCore_modCore .., ?_⟩
    rw [epOf_setEp, coreAt_setEp]
    exact ⟨creditsRaised_credits (y := itemTaken m x) m.gen hle hdepth, rfl, rfl⟩
  case close =>
    refine ⟨_, congrArg Host.Outcome.next (arriveKind_of_close hn hp (sends ho hr) hk), onlyCore_modCore .., ?_⟩
    rw [epOf_setEp, coreAt_setEp]
    exact ⟨rfl, rfl⟩
  case discard =>
    have hnotice := arriveKind_of_discard hn hp (sends ho hr) hk htol
    refine ⟨_, congrArg Host.Outcome.next ((congrArg (settleFaults (regionOf c)) hnotice).trans
      (settleFaults_none _ _ hfaults)), ?_, ?_⟩
    · rw [onlyCore, coreAt_modCore, modCore, setEp, modCore, setCore_setCore]
    · rw [coreAt_modCore, coreAt_setEp, epOf_discardCounted, epOf_modEp]
      exact ⟨rfl, rfl, rfl⟩

end Sys2Proof.Machine

/-! SUPPORT. The taking of packets: what a packet's command is, and when it is read and answered (R251 to R253). -/

namespace Sys2Proof.Machine

/-- SET_CLOCK settles its clock request only where its packet is taken as valid (R43). -/
theorem exec_setClock_invalid {h : PktHdr} (mask : BitVec 17) (idx : Byte) {s : State} (hn : (canTake h s && !h.rsv) = false) :
    exec (.setClock h mask idx) s = .next (onPacket 0x22 h 0 (setClock mask idx) s) :=
  congrArg Host.Outcome.next (if_neg (by rw [hn]; exact Bool.false_ne_true))

/-- The command of a packet that is not taken as valid is the taking of a packet alone. -/
theorem exec_packet {i : Instr} {h : PktHdr} {op : Nat} {res : BitVec 192} (hp : packetOf i = some (h, op, res)) {s : State}
    (hn : (canTake h s && !h.rsv) = false) : ∃ body, exec i s = .next (onPacket op h res body s) := by
  cases i
  case setClock h' mask idx =>
    obtain ⟨rfl, rfl, rfl⟩ : h' = h ∧ 0x22 = op ∧ 0 = res := by simpa only [packetOf, Option.some.injEq, Prod.mk.injEq] using hp
    exact ⟨_, exec_setClock_invalid mask idx hn⟩
  all_goals
    simp only [packetOf, Option.some.injEq, Prod.mk.injEq, reduceCtorEq] at hp
  all_goals
    obtain ⟨rfl, rfl, rfl⟩ := hp
    exact ⟨_, rfl⟩

/-- A packet that is taken and replies at once, with `t` as the state that its meaning leaves. -/
theorem onPacket_replies {op : Nat} {h : PktHdr} {none_ res : BitVec 192} {body : State → PktResult} {s t : State} {st : Status}
    (ht : takes h s) (hb : body (takeHead s) = .done st res t) :
    onPacket op h none_ body s = putReply op h.tag h.irq st res t := onPacket_done ht.1 ht.2 hb

/-- A packet of opcode `op` with header `h` as it waits. -/
def openCmd (op : Nat) (h : PktHdr) (a : Awaits) : OpenCmd := { opcode := BitVec.ofNat 8 op, tag := h.tag, irq := h.irq, awaits := a }

/-- A packet that is taken and waits for `a`, with `t` as the state that its meaning leaves. -/
theorem onPacket_awaits {op : Nat} {h : PktHdr} {none_ : BitVec 192} {body : State → PktResult} {s t : State} {a : Awaits}
    (ht : takes h s) (hb : body (takeHead s) = .waits a t) :
    onPacket op h none_ body s = modRings t (fun r => { r with waiting := r.waiting ++ [openCmd op h a] }) := onPacket_waits ht.1 ht.2 hb

/-- The rings after a reply to a packet whose meaning changed nothing of them. -/
theorem rings_replied {t s : State} (ht : t.rings = (takeHead s).rings) (op : Nat) (h : PktHdr) (st : Status) (res : BitVec 192) :
    (putReply op h.tag h.irq st res t).rings = (repliedTo op h st res s).rings :=
  congrArg (fun r : Rings => { r with store := r.store ++ [replyOf op h st res] }) ht

/-- The rings as a packet begins to wait whose meaning changed nothing of them. -/
theorem rings_awaits {t s : State} (ht : t.rings = (takeHead s).rings) (op : Nat) (h : PktHdr) (a : Awaits) :
    (modRings t (fun r => { r with waiting := r.waiting ++ [openCmd op h a] })).rings = waitsFor op h a s.rings :=
  congrArg (fun r : Rings => { r with waiting := r.waiting ++ [openCmd op h a] }) ht

theorem canTake_iff (h : PktHdr) (s : State) : canTake h s = true ↔ mayRead h s = true ∧ h.readOk = true := Bool.and_eq_true_iff

theorem mgtRuns_iff (s : State) : mgtRuns s = true ↔ powAt s 26 = .running ∧ powAt s 27 = .running := by
  simp only [mgtRuns, powAt, Bool.and_eq_true, beq_iff_eq]

theorem ringsKeyed_iff (s : State) : ringsKeyed s = true ↔ (s.ident.ideOnly = true → ∃ k, s.spdm.ide.get 0 = some k) := by
  rw [ringsKeyed, ← Option.isSome_iff_exists]
  cases s.ident.ideOnly <;> simp

/-- Every condition of R251, R253 and R366 on the reading of a packet. -/
theorem mayRead_iff (h : PktHdr) (s : State) : mayRead h s = true ↔
    powAt s 26 = .running ∧ powAt s 27 = .running ∧ s.rings.enable = true ∧ s.rings.stopped = false ∧ s.host.linkUp = true ∧
      (s.ident.ideOnly = true → ∃ k, s.spdm.ide.get 0 = some k) ∧ s.rings.head ≠ s.rings.tail ∧ s.rings.store.length < 256 ∧
      (h.ordered = true → s.rings.waiting = []) := by
  have hord : (!h.ordered || s.rings.waiting.isEmpty) = true ↔ (h.ordered = true → s.rings.waiting = []) := by
    rw [← List.isEmpty_iff]
    cases h.ordered <;> simp
  simp only [mayRead, Bool.and_eq_true, mgtRuns_iff, ringsKeyed_iff, hord, decide_eq_true_eq, Bool.not_eq_true', and_assoc]

/-- Settles O35: every packet's command is one taking of a packet, which has three outcomes beside its own meaning. -/
theorem packetTaking : Obligations.PacketTaking := by
  unfold Obligations.PacketTaking
  intro i h op none_ o s
  refine ⟨canTake_iff h s, mayRead_iff h s, fun hp => ?packet, fun hu hc => ?undefined⟩
  case packet =>
    refine ⟨fun hr => ?idle, fun hr hk => ?unread, fun hc hv => ?reserved⟩
    case idle =>
      obtain ⟨body, hx⟩ := exec_packet hp (s := s) (by rw [canTake, hr]; rfl)
      exact hx.trans (congrArg _ (onPacket_idle hr))
    case unread =>
      obtain ⟨body, hx⟩ := exec_packet hp (s := s) (by rw [canTake, hk, Bool.and_false]; rfl)
      exact hx.trans (congrArg _ (onPacket_unread hr hk))
    case reserved =>
      obtain ⟨body, hx⟩ := exec_packet hp (s := s) (by rw [hv, Bool.not_true, Bool.and_false])
      exact hx.trans (congrArg _ (onPacket_reserved hc hv))
  case undefined =>
    have hun : undefinedOpcode h o s = onPacket o.toNat { h with rsv := false } 0 (refuse .badOpcode) s :=
      if_neg (by rw [hu]; decide)
    exact congrArg _ (hun.trans (onPacket_done (h := { h with rsv := false }) hc rfl rfl))

end Sys2Proof.Machine

/-! SUPPORT. What happens to jobs: fences, retirements and successors in the job table, starts and stops on the cores
(R260, R261, R263 to R265, R267, R285). -/

namespace Sys2Proof.Machine

/-! ### Folds -/

/-- A fold does what one of its elements does, where every other step keeps it: `inv` holds until then, and `done` from then on. -/
theorem foldl_reaches {α β : Type} {f : β → α → β} {inv done : β → Prop} {l : List α} {a : α} {b : β} (ha : a ∈ l) (hb : inv b)
    (hinv : ∀ b, ∀ x ∈ l, inv b → inv (f b x)) (hdone : ∀ b, inv b → done (f b a)) (hkeep : ∀ b, ∀ x ∈ l, done b → done (f b x)) :
    done (l.foldl f b) := by
  induction l generalizing b with
  | nil => cases ha
  | cons x l ih =>
    have hkeep' : ∀ b, ∀ y ∈ l, done b → done (f b y) := fun b y hy => hkeep b y (List.mem_cons_of_mem _ hy)
    rw [List.foldl_cons]
    rcases List.mem_cons.1 ha with rfl | ha
    · exact List.foldlRecOn (motive := done) l f (hdone b hb) fun b hb y hy => hkeep' b y hy hb
    · exact ih ha (hinv b x List.mem_cons_self hb) (fun b y hy => hinv b y (List.mem_cons_of_mem _ hy)) hkeep'

/-! ### The job table -/

/-- An index that does not read as the default is listed. -/
theorem mem_of_cellGet_ne {β : Type} {d : β} {m : List (Nat × β)} {a : Nat} (h : cellGet d m a ≠ d) : (a, cellGet d m a) ∈ m := by
  induction m with
  | nil => exact absurd rfl h
  | cons e r ih =>
    obtain ⟨k, v⟩ := e
    by_cases ha : a = k
    · rw [cellGet, if_pos ha, ha]
      exact List.mem_cons_self
    · rw [cellGet, if_neg ha] at h ⊢
      exact List.mem_cons_of_mem _ (ih h)

/-- A job that has been entered and satisfies `p` is found. -/
theorem mem_jobsWhere {s : State} {p : Job → Bool} {k : JobId} (hp : p (jobAt s k) = true) (hk : jobAt s k ≠ freeJob) :
    k ∈ jobsWhere s p := by
  refine List.mem_filterMap.2 ⟨_, mem_of_cellGet_ne hk, ?_⟩
  exact (dif_pos k.isLt).trans (if_pos hp)

/-- A change that keeps jobs from FREE, made to several jobs, changes each of them as often as it is named; `f` once is `f` twice. -/
theorem jobAt_foldl_modJob {f : Job → Job} (hfree : ∀ b, b.state ≠ .free → (f b).state ≠ .free) (htwice : ∀ b, f (f b) = f b)
    (l : List JobId) {s : State} {k : JobId} (hk : (jobAt s k).state ≠ .free) :
    jobAt (l.foldl (fun u i => modJob u i f) s) k = if k ∈ l then f (jobAt s k) else jobAt s k := by
  induction l generalizing s with
  | nil => rfl
  | cons i l ih =>
    rw [List.foldl_cons]
    by_cases hi : k = i
    · subst hi
      have hself := jobAt_modJob s k f (hfree _ hk)
      rw [ih (by rw [hself]; exact hfree _ hk), hself, htwice, ite_self, if_pos List.mem_cons_self]
    · have hother := jobAt_modJob_ne s i k f hi
      simp only [ih (hother.symm ▸ hk), hother, List.mem_cons, hi, false_or]

@[simp] theorem jobAt_answer (a : Awaits) (st : Status) (res : BitVec 192) (s : State) (j : JobId) :
    jobAt (answer a st res s) j = jobAt s j := by rw [jobAt, jobAt, answer_jobs]

/-! ### Faults -/

theorem fenceRecOf_region (s : State) (i : FaultInfo) : (fenceRecOf s i).region = i.region := by unfold fenceRecOf; split <;> rfl
theorem fenceRecOf_detail0 (s : State) (i : FaultInfo) : (fenceRecOf s i).detail0 = i.detail0 := by unfold fenceRecOf; split <;> rfl
theorem fenceRecOf_detail1 (s : State) (i : FaultInfo) : (fenceRecOf s i).detail1 = i.detail1 := by unfold fenceRecOf; split <;> rfl

/-- Settles O33: fencing a job that runs or is stopped changes its entry and the cores that run it, and nothing else. -/
theorem faultFencesItsJob : Obligations.FaultFencesItsJob := by
  unfold Obligations.FaultFencesItsJob
  intro s c i j hj hc t
  have ht : t = fenceJob j i s := by simp only [t, fenceCore, hj]
  rcases fenceJob_cases j i s with ⟨h, -⟩ | ⟨-, hentry, hothers, hcores, hrest⟩
  · exact absurd (h.symm.trans hc) Bool.false_ne_true
  rw [ht, hentry]
  exact ⟨rfl, rfl, fenceRecOf_detail0 s i, fenceRecOf_detail1 s i, fenceRecOf_region s i, hothers,
    fun d hd => (hcores d).trans (if_pos hd), fun d hd => (hcores d).trans (if_neg hd), hrest⟩

/-! ### Retirement and successors -/

/-- A job without predecessor `j`: one that waited for nothing else is READY (R260). -/
def released (j : JobId) (b : Job) : Job :=
  let left := b.pred.toNat - (b.preds.filter (fun p => decide (p = j))).length
  { b with
    preds := b.preds.filter (fun p => decide (p ≠ j)), pred := BitVec.ofNat 16 left
    state := if b.state = .waiting ∧ left = 0 then .ready else b.state }

theorem satisfySuccessors_eq (j : JobId) (s : State) :
    satisfySuccessors j s = (successorsOf s [j]).foldl (fun u k => modJob u k (released j)) s := rfl

theorem released_state_ne_free (j : JobId) (b : Job) (h : b.state ≠ .free) : (released j b).state ≠ .free := by
  simp only [released]
  split
  · exact nofun
  · exact h

theorem released_twice (j : JobId) (b : Job) : released j (released j b) = released j b := by
  have hnone : (b.preds.filter (fun p => decide (p ≠ j))).filter (fun p => decide (p = j)) = [] := by
    simp [List.filter_filter]
  have hleft (n : Nat) : (BitVec.ofNat 16 (b.pred.toNat - n)).toNat = b.pred.toNat - n :=
    (BitVec.toNat_ofNat ..).trans (Nat.mod_eq_of_lt (by omega))
  simp only [released, hnone, List.length_nil, Nat.sub_zero, hleft, List.filter_filter, Bool.and_self]
  split <;> simp_all

/-- A successor's outstanding predecessors no longer name the job. -/
theorem not_mem_released (j : JobId) (b : Job) : j ∉ (released j b).preds := by simp [released]

/-- A job that waited for `j` alone becomes READY. -/
theorem released_ready {j : JobId} {b : Job} (hw : b.state = .waiting) (hn : b.preds.length = b.pred.toNat) (h : ∀ p ∈ b.preds, p = j) :
    (released j b).state = .ready := by
  have hall : b.preds.filter (fun p => decide (p = j)) = b.preds := List.filter_eq_self.2 fun p hp => decide_eq_true (h p hp)
  exact if_pos ⟨hw, by rw [hall, hn, Nat.sub_self]⟩

/-- A job that waits for another one too goes on waiting. -/
theorem released_waiting {j : JobId} {b : Job} (hw : b.state = .waiting) (hn : b.preds.length = b.pred.toNat) (h : ∃ p ∈ b.preds, p ≠ j) :
    (released j b).state = .waiting := by
  obtain ⟨p, hp, hne⟩ := h
  have hfewer : (b.preds.filter (fun p => decide (p = j))).length < b.preds.length :=
    List.length_filter_lt_length_iff_exists.2 ⟨p, hp, by simpa using hne⟩
  exact (if_neg fun hz => by omega).trans hw

/-- A job as it retires DONE, with its status (R71, R264). -/
def doneJob (s : State) (j : JobId) (b : Job) : Job :=
  { retired s .done b with status := if jobOverflow s j then .windowOverflow else .ok }

/-- A job of which every core has reported retires, and its successors are released (R260, R264). -/
theorem jobDone_of_reported {s : State} {j : JobId} (h : jobAllDone s j = true) :
    exec (.jobDone j) s = .next (answer (.fence j) .ok 0 (satisfySuccessors j (takeReports j (modJob s j (doneJob s j))))) :=
  congrArg Host.Outcome.next (if_pos h)

/-- A job's entry after the release of the successors of `j`. -/
theorem jobAt_satisfySuccessors {j k : JobId} {s : State} (hk : (jobAt s k).state ≠ .free) :
    jobAt (satisfySuccessors j s) k = if k ∈ successorsOf s [j] then released j (jobAt s k) else jobAt s k := by
  rw [satisfySuccessors_eq]
  exact jobAt_foldl_modJob (released_state_ne_free j) (released_twice j) _ hk

/-- A job that waits for `j` is one of its successors. -/
theorem mem_successorsOf {j k : JobId} {s : State} (hw : (jobAt s k).state = .waiting) (hj : j ∈ (jobAt s k).preds) :
    k ∈ successorsOf s [j] := by
  have hnames : (jobAt s k).preds.any (fun p => [j].contains p) = true := List.any_eq_true.2 ⟨j, hj, by simp⟩
  refine mem_jobsWhere ?_ (fun e => absurd (hw.symm.trans (congrArg Job.state e)) nofun)
  rw [hw, hnames]
  rfl

/-- Settles O34: the entry of a successor that waits is released from the job that retires. -/
theorem doneReleasesSuccessors : Obligations.DoneReleasesSuccessors := by
  unfold Obligations.DoneReleasesSuccessors
  intro s j k hdone hne hw hj hn _
  have hkept : jobAt (takeReports j (modJob s j (doneJob s j))) k = jobAt s k := jobAt_modJob_ne s j k _ hne
  have hsucc := mem_successorsOf (hkept.symm ▸ hw) (hkept.symm ▸ hj)
  refine ⟨_, jobDone_of_reported hdone, ?_⟩
  rw [jobAt_answer, jobAt_satisfySuccessors (by rw [hkept, hw]; exact nofun), if_pos hsucc, hkept]
  exact ⟨not_mem_released j _, released_ready hw hn, released_waiting hw hn⟩

end Sys2Proof.Machine

/-! SUPPORT. What START, FENCE, image and graph packets do to jobs and their cores (R258, R260, R267, R285). -/

namespace Sys2Proof.Machine

/-! ### Cancellation -/

/-- A job as it is cancelled because of `cause` (R260, R267). -/
def cancelledJob (s : State) (cause : Nat) (b : Job) : Job :=
  { retired s .cancelled b with
    status := .cancelled
    fence := { pcore := 0xFF#8, region := 0xFF#8, ltag := 0, bundle := 0, ltick := 0, detail0 := BitVec.ofNat 32 cause, detail1 := 0 } }

theorem jobAt_cancelJob (j : JobId) (cause : Nat) (s : State) : jobAt (cancelJob j cause s) j = cancelledJob s cause (jobAt s j) :=
  jobAt_modJob s j (cancelledJob s cause) nofun

theorem jobAt_cancelJob_ne {j i : JobId} (cause : Nat) (s : State) (h : i ≠ j) : jobAt (cancelJob j cause s) i = jobAt s i :=
  jobAt_modJob_ne s j i _ h

/-- What every cancellation keeps, the cancellation of successors keeps. -/
theorem cancelAfter_keeps {γ : Type} (p : State → γ) (h : ∀ k cause u, (jobAt u k).state ≠ .cancelled → p (cancelJob k cause u) = p u)
    (fuel : Nat) (j : JobId) (s : State) : p (cancelAfter fuel j s) = p s := by
  induction fuel generalizing j s with
  | zero => rfl
  | succ n ih =>
    refine foldl_keeps p _ (fun u k => ?_) _ s
    split
    · rfl
    · next hk => rw [ih, h k j.val u hk]

/-- The cancellation of successors changes the job table alone. -/
theorem withJobs_cancelSuccessors (j : JobId) (s : State) (js : List (Nat × Job)) :
    withJobs (cancelSuccessors j s) js = withJobs s js := cancelAfter_keeps (withJobs · js) (fun _ _ _ _ => rfl) _ j s

theorem cancelSuccessors_cores (j : JobId) (s : State) : (cancelSuccessors j s).cores = s.cores :=
  (congrArg State.cores (withJobs_cancelSuccessors j s []) :)
theorem cancelSuccessors_rings (j : JobId) (s : State) : (cancelSuccessors j s).rings = s.rings :=
  (congrArg State.rings (withJobs_cancelSuccessors j s []) :)

/-- A CANCELLED job keeps its entry while successors are cancelled. -/
theorem jobAt_cancelSuccessors {i j : JobId} {s : State} (hi : (jobAt s i).state = .cancelled) :
    jobAt (cancelSuccessors j s) i = jobAt s i := by
  have hkept : ∀ fuel j (u : State), (jobAt u i).state = .cancelled → jobAt (cancelAfter fuel j u) i = jobAt u i := by
    intro fuel
    induction fuel with
    | zero => exact fun _ _ _ => rfl
    | succ n ih =>
      intro j u hu
      refine List.foldlRecOn (motive := fun v => jobAt v i = jobAt u i) _ _ rfl fun v hv k _ => ?_
      split
      · exact hv
      · next hk =>
        have hne : i ≠ k := fun e => hk (by rw [← e, hv, hu])
        have hother := jobAt_cancelJob_ne j.val v hne
        rw [ih k _ (by rw [hother, hv, hu]), hother, hv]
  exact hkept _ j s hi

/-! ### Stopped and resumed cores -/

theorem mem_membersOf {s : State} {j : JobId} {c : CoreId} : c ∈ membersOf s j ↔ (coreAt s c).seq.job = some j := by
  simp [membersOf, allCores]

theorem coreAt_stopCore_ne {c d : CoreId} (s : State) (h : d ≠ c) : coreAt (stopCore c s) d = coreAt s d := by
  simp only [stopCore, coreAt_modRegion, coreAt_modCore_ne _ _ _ _ h]

theorem run_stopCore (c : CoreId) (s : State) : (coreAt (stopCore c s) c).seq.run = .stopped := by
  rw [stopCore, coreAt_modRegion, coreAt_modCore]

/-- One member's turn as the members of a job stop. -/
def stopTurn (p : CoreId → Bool) (u : State) (c : CoreId) : State :=
  if p c && decide ((coreAt u c).seq.run = .running) && !partOver (coreAt u c).seq then stopCore c u else u

theorem stopMembers_eq (j : JobId) (p : CoreId → Bool) (s : State) : stopMembers j p s = (membersOf s j).foldl (stopTurn p) s := rfl

theorem coreAt_stopTurn_ne (p : CoreId → Bool) {c d : CoreId} (s : State) (h : d ≠ c) : coreAt (stopTurn p s c) d = coreAt s d := by
  unfold stopTurn
  split
  · exact coreAt_stopCore_ne s h
  · rfl

/-- A core whose part is over stays as it is. -/
theorem stopTurn_of_over (p : CoreId → Bool) {c : CoreId} {s : State} (h : partOver (coreAt s c).seq = true) : stopTurn p s c = s :=
  if_neg (by rw [h]; simp)

/-- A running core whose part is not over stops; a stopped one stays so. -/
theorem run_stopTurn {c : CoreId} {s : State}
    (h : (coreAt s c).seq.run = .running ∧ partOver (coreAt s c).seq = false ∨ (coreAt s c).seq.run = .stopped) :
    (coreAt (stopTurn (fun _ => true) s c) c).seq.run = .stopped := by
  rcases h with ⟨hrun, hpart⟩ | hstop
  · rw [stopTurn, hrun, hpart]
    exact run_stopCore c s
  · rw [stopTurn, hstop]
    exact hstop

theorem stopMembers_keeps {γ : Type} (q : State → γ) (h : ∀ c u, q (stopCore c u) = q u) (j : JobId) (p : CoreId → Bool) (s : State) :
    q (stopMembers j p s) = q s := by
  refine foldl_keeps q _ (fun u c => ?_) _ s
  split
  · exact h c u
  · rfl

/-- Every member core that runs and whose part is not over stops (R267). -/
theorem run_stopMembers {j : JobId} {c : CoreId} {s : State} (hc : c ∈ membersOf s j) (hrun : (coreAt s c).seq.run = .running)
    (hpart : partOver (coreAt s c).seq = false) : (coreAt (stopMembers j (fun _ => true) s) c).seq.run = .stopped := by
  rw [stopMembers_eq]
  refine foldl_reaches (done := fun u => (coreAt u c).seq.run = .stopped)
    (inv := fun u => (coreAt u c).seq.run = .running ∧ partOver (coreAt u c).seq = false ∨ (coreAt u c).seq.run = .stopped)
    hc (.inl ⟨hrun, hpart⟩) (fun u d _ hu => ?_) (fun u hu => run_stopTurn hu) (fun u d _ hu => ?_)
  · by_cases hd : c = d
    · exact .inr (hd ▸ run_stopTurn (hd ▸ hu))
    · rw [coreAt_stopTurn_ne _ u hd]; exact hu
  · by_cases hd : c = d
    · exact hd ▸ run_stopTurn (.inr (hd ▸ hu))
    · rw [coreAt_stopTurn_ne _ u hd]; exact hu

/-- A core whose part is over, or that is no member, stays as it is. -/
theorem coreAt_stopMembers {j : JobId} (p : CoreId → Bool) {c : CoreId} {s : State} (h : c ∉ membersOf s j ∨ partOver (coreAt s c).seq = true) :
    coreAt (stopMembers j p s) c = coreAt s c := by
  refine List.foldlRecOn (motive := fun u => coreAt u c = coreAt s c) _ (stopTurn p) rfl fun u hu d hd => ?_
  by_cases hcd : c = d
  · subst hcd
    rw [stopTurn_of_over p (by rw [hu]; exact h.resolve_left fun hn => hn hd), hu]
  · rw [coreAt_stopTurn_ne p u hcd, hu]

/-- A resumption changes its core alone, where that is stopped: it runs. -/
theorem resumeCore_cases (c : CoreId) (s : State) :
    (coreAt s c).seq.run ≠ .stopped ∧ resumeCore c s = s ∨ ∃ f, (∀ k, (f k).seq.run = .running) ∧ resumeCore c s = modCore s c f := by
  by_cases h : (coreAt s c).seq.run = .stopped
  · exact .inr ⟨_, fun _ => rfl, if_pos h⟩
  · exact .inl ⟨h, if_neg h⟩

theorem coreAt_resumeCore_ne {c d : CoreId} (s : State) (h : d ≠ c) : coreAt (resumeCore c s) d = coreAt s d := by
  rcases resumeCore_cases c s with ⟨-, e⟩ | ⟨f, -, e⟩
  · rw [e]
  · rw [e, coreAt_modCore_ne s c d f h]

/-- A stopped core runs again, and one that runs goes on. -/
theorem run_resumeCore {c : CoreId} {s : State} (h : (coreAt s c).seq.run = .stopped ∨ (coreAt s c).seq.run = .running) :
    (coreAt (resumeCore c s) c).seq.run = .running := by
  rcases resumeCore_cases c s with ⟨hn, e⟩ | ⟨f, hf, e⟩
  · rw [e]; exact h.resolve_left hn
  · rw [e, coreAt_modCore, hf]

theorem resumeCores_keep {γ : Type} (p : State → γ) (h : ∀ c f u, p (modCore u c f) = p u) (l : List CoreId) (s : State) :
    p (l.foldl (fun u c => resumeCore c u) s) = p s :=
  foldl_keeps p _ (fun u c => by rcases resumeCore_cases c u with ⟨-, e⟩ | ⟨f, -, e⟩ <;> simp only [e, h]) l s

/-- Every stopped core among those named runs again (R285). -/
theorem run_resumeCores {l : List CoreId} {c : CoreId} {s : State} (hc : c ∈ l) (hs : (coreAt s c).seq.run = .stopped) :
    (coreAt (l.foldl (fun u c => resumeCore c u) s) c).seq.run = .running := by
  refine foldl_reaches (done := fun u => (coreAt u c).seq.run = .running)
    (inv := fun u => (coreAt u c).seq.run = .stopped ∨ (coreAt u c).seq.run = .running)
    hc (.inl hs) (fun u d _ hu => ?_) (fun u hu => run_resumeCore hu) (fun u d _ hu => ?_)
  · by_cases hd : c = d
    · exact .inr (hd ▸ run_resumeCore (hd ▸ hu))
    · rw [coreAt_resumeCore_ne u hd]; exact hu
  · by_cases hd : c = d
    · exact hd ▸ run_resumeCore (.inr (hd ▸ hu))
    · rw [coreAt_resumeCore_ne u hd]; exact hu

/-- A core that is not named stays as it is. -/
theorem coreAt_resumeCores {l : List CoreId} {c : CoreId} (s : State) (hc : c ∉ l) :
    coreAt (l.foldl (fun u c => resumeCore c u) s) c = coreAt s c :=
  List.foldlRecOn (motive := fun u => coreAt u c = coreAt s c) l _ rfl fun u hu d hd =>
    (coreAt_resumeCore_ne u fun e => hc (by rw [e]; exact hd)).trans hu

/-! ### START and FENCE -/

theorem startRelease_of_held {j : JobId} {s : State} (h : (jobAt s j).state = .held) :
    startRelease j s = .done .ok 0 (setJob s j { jobAt s j with state := if (jobAt s j).pred.toNat = 0 then .ready else .waiting }) :=
  if_pos h

theorem startResume_of_stopped {j : JobId} {s : State} (h : (jobAt s j).state = .stopped) : startResume j s =
    .done .ok 0 ((membersOf s j).foldl (fun u c => resumeCore c u) (modJob s j (fun b => { b with state := .running }))) := if_pos h

theorem fenceCancel_of_waiting {j : JobId} {s : State}
    (h : (jobAt s j).state = .held ∨ (jobAt s j).state = .waiting ∨ (jobAt s j).state = .ready) :
    fenceCancel j s = .done .ok 0 (cancelSuccessors j (cancelJob j 0xFFFF s)) := by
  rcases h with h | h | h <;> rw [fenceCancel, h]

theorem fenceCancel_of_started {j : JobId} {s : State} (h : (jobAt s j).state = .running ∨ (jobAt s j).state = .stopped) :
    fenceCancel j s = .waits (.fence j) (fenceJob j (unitFault .cancelled 0xFF 0xFFFF 0) s) := by
  rcases h with h | h <;> rw [fenceCancel, h]

theorem fenceStop_of_running {j : JobId} {s : State} (h : (jobAt s j).state = .running) :
    fenceStop j s = .waits (.fence j) (stopMembers j (fun _ => true) s) := if_pos h

theorem canFence_of_started {b : Job} (h : b.state = .running ∨ b.state = .stopped) : canFence b = true := by
  rcases h with h | h <;> rw [canFence, h]

/-- Settles O37: each packet's reply or wait is put after its change of the job's entry and of its member cores. -/
theorem startAndFencePackets : Obligations.StartAndFencePackets := by
  unfold Obligations.StartAndFencePackets
  intro h j s ht b
  refine ⟨fun hb => ?release, fun hb => ?resume, fun hb => ?cancelWaiting, fun hb => ?cancelStarted, fun hb => ?stop⟩
  case release =>
    refine congrArg Host.Outcome.next ((onPacket_replies ht (startRelease_of_held hb)).trans ?_)
    have hzero : (jobAt s j).pred.toNat = 0 ↔ (jobAt s j).pred = 0 := (BitVec.toNat_eq (y := 0#16)).symm
    have hstate : (if (jobAt s j).pred.toNat = 0 then JobState.ready else .waiting) = if (jobAt s j).pred = 0 then .ready else .waiting :=
      ite_congr (propext hzero) (fun _ => rfl) (fun _ => rfl)
    exact congrArg (fun st => setJob (repliedTo 0x03 h .ok 0 s) j { jobAt s j with state := st }) hstate
  case resume =>
    have hj : jobAt (modJob (takeHead s) j (fun b => { b with state := .running })) j = { b with state := .running } :=
      jobAt_modJob (takeHead s) j _ nofun
    refine ⟨_, congrArg Host.Outcome.next (onPacket_replies ht (startResume_of_stopped hb)),
      (resumeCores_keep (fun u => jobAt u j) (fun _ _ _ => rfl) _ _).trans hj, fun c hc hs => ?_, fun c hc => ?_, ?_, ?_⟩
    · exact run_resumeCores hc hs
    · exact coreAt_resumeCores _ hc
    · exact resumeCores_keep State.regions (fun _ _ _ => rfl) _ _
    · exact rings_replied (by rw [resumeCores_keep State.rings fun _ _ _ => rfl]; rfl) 0x03 h .ok 0
  case cancelWaiting =>
    have hj := jobAt_cancelJob j 0xFFFF (takeHead s)
    have hkept : jobAt (cancelSuccessors j (cancelJob j 0xFFFF (takeHead s))) j = cancelledJob (takeHead s) 0xFFFF b :=
      (jobAt_cancelSuccessors (congrArg Job.state hj)).trans hj
    exact ⟨_, congrArg Host.Outcome.next (onPacket_replies ht (fenceCancel_of_waiting hb)), congrArg Job.state hkept,
      congrArg Job.status hkept, congrArg (fun b => b.fence.detail0) hkept, congrArg Job.evt hkept, cancelSuccessors_cores ..,
      rings_replied (by rw [cancelSuccessors_rings]; rfl) 0x20 h .ok 0⟩
  case cancelStarted =>
    rcases fenceJob_cases j (unitFault .cancelled 0xFF 0xFFFF 0) (takeHead s) with ⟨hn, -⟩ | ⟨-, hentry, -, hcores, hrest⟩
    · exact absurd (hn.symm.trans (canFence_of_started hb)) Bool.false_ne_true
    refine ⟨_, congrArg Host.Outcome.next (onPacket_awaits ht (fenceCancel_of_started hb)), congrArg Job.state hentry,
      congrArg Job.status hentry, congrArg (fun b => b.fence.detail0) hentry, fun c hc => ?_, fun c hc => ?_,
      rings_awaits (congrArg State.rings hrest) 0x20 h (.fence j)⟩
    · exact congrArg (fun k => k.seq.run) ((hcores c).trans (if_pos (mem_membersOf.1 hc)))
    · exact (hcores c).trans (if_neg fun hm => hc (mem_membersOf.2 hm))
  case stop =>
    exact ⟨_, congrArg Host.Outcome.next (onPacket_awaits ht (fenceStop_of_running hb)),
      stopMembers_keeps State.jobs (fun _ _ => rfl) .., fun c hc hrun hpart => run_stopMembers hc hrun hpart,
      fun c _ hpart => coreAt_stopMembers _ (.inr hpart), fun c hc => coreAt_stopMembers _ (.inl hc),
      rings_awaits (stopMembers_keeps State.rings (fun _ _ => rfl) ..) 0x20 h (.fence j)⟩

end Sys2Proof.Machine

/-! SUPPORT. What image and graph packets do to image slots and to the job table (R258, R260). -/

namespace Sys2Proof.Machine

/-! ### Images -/

theorem loadConfig_of_checked {addr len slot wset : Nat} {i : Image} {s : State} (hu : slotUsed s slot = false) (hs : slot < 1024)
    (hi : parseImage s addr len wset = some i) (hc : imageCheck s slot i = none) :
    loadConfig addr len slot wset false s = .done .ok (resultOf [(8, slot), (10, i.profile)])
      { s with images := s.images.filter (fun e => decide (e.1 ≠ slot)) ++ [(slot, i)] } := by
  simp only [loadConfig, hu, Nat.not_le.2 hs, hi, hc, if_false, Bool.false_eq_true]

theorem unloadConfig_of_unused {slot : Nat} {s : State} (hu : slotUsed s slot = false) (hs : slot < 1024) :
    unloadConfig slot s = .done .ok (resultOf [(8, slot)]) { s with images := s.images.filter (fun e => decide (e.1 ≠ slot)) } := by
  simp only [unloadConfig, hu, Nat.not_le.2 hs, if_false, Bool.false_eq_true]

/-! ### Graphs -/

/-- The predecessors of a node that are not DONE. -/
def openPreds (s : State) (x : GraphNode) : List JobId := x.preds.filter (fun p => decide ((jobAt s p).state ≠ .done))

/-- Has job `p` been fenced or cancelled. -/
def isDead (s : State) (p : JobId) : Bool := decide ((jobAt s p).state = .fenced) || decide ((jobAt s p).state = .cancelled)

theorem isDead_iff {s : State} {p : JobId} : isDead s p = true ↔ (jobAt s p).state = .fenced ∨ (jobAt s p).state = .cancelled := by
  simp only [isDead, Bool.or_eq_true, decide_eq_true_eq]

/-- The entry of a node as it is entered (R260). -/
def nodeJob (s : State) (x : GraphNode) : Job :=
  { freeJob with
    pred := BitVec.ofNat 16 (openPreds s x).length, preds := openPreds s x, tag := x.tag, cores := x.cores
    slot := BitVec.ofNat 10 x.slot, notify := x.notify
    state := if x.hold then .held else if (openPreds s x).isEmpty then .ready else .waiting }

theorem nodeJob_state_ne_free (s : State) (x : GraphNode) : (nodeJob s x).state ≠ .free := by
  simp only [nodeJob]
  split
  · exact nofun
  · split <;> exact nofun

/-- The state with a node's entry in the job table. -/
def entered (s : State) (x : GraphNode) : State := setJob s x.index (nodeJob s x)

theorem jobAt_entered (s : State) (x : GraphNode) : jobAt (entered s x) x.index = nodeJob s x :=
  jobAt_setJob s x.index _ (nodeJob_state_ne_free s x)

/-- A node is entered, and cancelled because of its first predecessor that is fenced or cancelled. -/
theorem enterNode_eq (s : State) (x : GraphNode) : enterNode s x =
    ((openPreds s x).find? (fun p => isDead s p)).elim (entered s x) (fun p => cancelJob x.index p.val (entered s x)) := by
  unfold enterNode entered nodeJob openPreds isDead
  simp only
  generalize List.find? _ _ = first
  cases first <;> rfl

/-- A node without a fenced or cancelled predecessor is entered. -/
theorem enterNode_of_alive {s : State} {x : GraphNode} (h : ∀ p ∈ x.preds, isDead s p = false) : enterNode s x = entered s x := by
  have hnone : (openPreds s x).find? (fun p => isDead s p) = none :=
    List.find?_eq_none.2 fun p hp => by rw [h p (List.mem_filter.1 hp).1]; exact Bool.false_ne_true
  rw [enterNode_eq, hnone, Option.elim_none]

/-- A node with a fenced or cancelled predecessor is entered and cancelled because of one of these. -/
theorem enterNode_of_dead {s : State} {x : GraphNode} (h : ∃ p ∈ x.preds, isDead s p = true) :
    ∃ p ∈ x.preds, isDead s p = true ∧ enterNode s x = cancelJob x.index p.val (entered s x) := by
  obtain ⟨q, hq, hdead⟩ := h
  have hopen : q ∈ openPreds s x := by
    refine List.mem_filter.2 ⟨hq, decide_eq_true fun hdone => ?_⟩
    rcases isDead_iff.1 hdead with e | e <;> exact absurd (hdone.symm.trans e) nofun
  obtain ⟨p, hp⟩ := Option.isSome_iff_exists.1 (List.find?_isSome.2 ⟨q, hopen, hdead⟩)
  refine ⟨p, (List.mem_filter.1 (List.mem_of_find?_eq_some hp)).1, (List.find?_some hp :), ?_⟩
  rw [enterNode_eq, hp, Option.elim_some]

/-- Entering a node changes its own entry alone. -/
theorem jobAt_enterNode_ne {s : State} {x : GraphNode} {j : JobId} (h : j ≠ x.index) : jobAt (enterNode s x) j = jobAt s j := by
  have hset : jobAt (entered s x) j = jobAt s j := jobAt_setJob_ne s x.index j (nodeJob s x) h
  by_cases hd : ∃ p ∈ x.preds, isDead s p = true
  · obtain ⟨p, -, -, e⟩ := enterNode_of_dead hd
    rw [e, jobAt_cancelJob_ne p.val _ h, hset]
  · rw [enterNode_of_alive fun p hp => Bool.eq_false_iff.2 fun ht => hd ⟨p, hp, ht⟩, hset]

theorem withJobs_enterNode (s : State) (x : GraphNode) (js : List (Nat × Job)) : withJobs (enterNode s x) js = withJobs s js := by
  rw [enterNode_eq]
  cases (openPreds s x).find? (fun p => isDead s p) <;> rfl

theorem withJobs_enterNodes (xs : List GraphNode) (s : State) (js : List (Nat × Job)) :
    withJobs (xs.foldl enterNode s) js = withJobs s js := foldl_keeps (withJobs · js) enterNode (fun u x => withJobs_enterNode u x js) xs s

theorem submitGraph_of_checked {addr count : Nat} {s : State} (ha : addr % 64 = 0) (h0 : 0 < count) (hn : count ≤ 4096)
    (hd : isDram s addr (64 * count) = true)
    (hc : graphCheck s 0 [] ((List.range count).map (fun i => parseNode (dramRead s (addr + 64 * i) 64))) = none) :
    submitGraph addr count s = .done .ok (resultOf [(8, count), (10, 0xFFFF)])
      (((List.range count).map (fun i => parseNode (dramRead s (addr + 64 * i) 64))).foldl enterNode s) := by
  have hok : ¬ (addr % 64 ≠ 0 ∨ count = 0 ∨ 4096 < count ∨ isDram s addr (64 * count) = false) := by
    rintro (h | h | h | h)
    · exact h ha
    · omega
    · omega
    · exact Bool.false_ne_true (h.symm.trans hd)
  simp only [submitGraph, if_neg hok, hc]

/-- Settles O36: checked images and graphs take effect as their packets are answered, and a node's entry is that of its predecessors. -/
theorem imagesAndGraphs : Obligations.ImagesAndGraphs := by
  unfold Obligations.ImagesAndGraphs
  intro h addr len wset slot count i s ht u
  refine ⟨fun hu hs hi hc => ?load, fun hu hs => ?unload, ?graph, fun x => ⟨fun j hj => jobAt_enterNode_ne hj, fun ha => ?alive, fun hd => ?dead⟩⟩
  case load => exact congrArg Host.Outcome.next (onPacket_replies ht (loadConfig_of_checked hu hs hi hc))
  case unload => exact congrArg Host.Outcome.next (onPacket_replies ht (unloadConfig_of_unused hu hs))
  case graph =>
    intro nodes ha h0 hn hd hc
    have hkeep := withJobs_enterNodes nodes u s.jobs
    refine ⟨_, congrArg Host.Outcome.next (onPacket_replies ht (submitGraph_of_checked ha h0 hn hd hc)), rfl,
      rings_replied (congrArg State.rings hkeep :) 0x02 h .ok _, ?_⟩
    exact congrArg (fun t : State => { t with rings := s.rings }) hkeep
  case alive =>
    have he := enterNode_of_alive (s := s) fun p hp => Bool.eq_false_iff.2 fun hd => ha p hp (isDead_iff.1 hd)
    rw [he, jobAt_entered]
    refine ⟨?_, rfl, rfl, rfl, rfl, rfl, rfl⟩
    simp only [nodeJob, List.isEmpty_iff]
    rfl
  case dead =>
    obtain ⟨p, hp, hdead, he⟩ := enterNode_of_dead (hd.imp fun p hp => ⟨hp.1, isDead_iff.2 hp.2⟩)
    rw [he, jobAt_cancelJob, jobAt_entered]
    exact ⟨rfl, rfl, rfl, p, hp, isDead_iff.1 hdead, rfl⟩

end Sys2Proof.Machine

/-! SUPPORT. Prepare, decision, abort, apply and completion of a commit group (R270 to R272, R340). -/

namespace Sys2Proof.Machine

/-! ### Answers -/

/-- What a change of the rings keeps, an answer keeps. -/
theorem answer_keeps {γ : Type} (p : State → γ) (h : ∀ f u, p (modRings u f) = p u) (a : Awaits) (st : Status) (res : BitVec 192)
    (s : State) : p (answer a st res s) = p s := by
  unfold answer
  exact (foldl_keeps p _ (fun _ _ => h _ _) _ _).trans (h _ s)

/-- The reply to a packet that waited. -/
def replyTo (st : Status) (res : BitVec 192) (c : OpenCmd) : Reply :=
  { status := st, opcode := BitVec.ofNat 8 c.opcode.toNat, kind := 0, tag := c.tag, merged := 0, result := res, irq := c.irq }

/-- Every packet that waited for `a` is answered. -/
theorem answer_store (a : Awaits) (st : Status) (res : BitVec 192) (s : State) : (answer a st res s).rings.store =
    s.rings.store ++ (s.rings.waiting.filter (fun c => decide (c.awaits = a))).map (replyTo st res) := by
  have hfold (l : List OpenCmd) (u : State) :
      (l.foldl (fun u c => putReply c.opcode.toNat c.tag c.irq st res u) u).rings.store = u.rings.store ++ l.map (replyTo st res) := by
    induction l generalizing u with
    | nil => rw [List.map_nil, List.append_nil]; rfl
    | cons c l ih => rw [List.foldl_cons, ih, putReply_store, List.append_assoc]; rfl
  exact hfold _ _

/-- Nothing that waited for `a` waits on. -/
theorem not_waiting_answer {a : Awaits} {st : Status} {res : BitVec 192} {s : State} {w : OpenCmd}
    (hw : w ∈ (answer a st res s).rings.waiting) : w.awaits ≠ a := by
  rw [answer_waiting] at hw
  exact of_decide_eq_true (List.mem_filter.1 hw).2

/-! ### The abort of a group -/

/-- A state with all that the abort of a group changes beside its group and the rings taken from `z`: what fences change, and ports. -/
def offPorts (z s : State) : State := { unfenced z s with ports := z.ports }

theorem fenceCore_unfenced (z : State) (c : CoreId) (i : FaultInfo) (s : State) : unfenced z (fenceCore c i s) = unfenced z s := by
  unfold fenceCore
  split
  · exact fenceJob_unfenced ..
  · rfl

theorem sendUp_offPorts (z : State) (pk params : Nat) (data : List Byte) (s : State) : offPorts z (sendUp pk params data s) = offPorts z s := by
  unfold sendUp
  split <;> rfl

theorem sendDown_offPorts (z : State) (pk params : Nat) (data : List Byte) (s : State) :
    offPorts z (sendDown pk params data s) = offPorts z s := by
  unfold sendDown
  exact foldl_keeps (offPorts z) (fun u p => queuePkt p none (ctlPkt s pk 0 params data) none true u) (fun _ _ => rfl) _ s

/-- A group aborted because of `l` (R270). -/
def abortedGroup (l : Nat) (x : Group) : Group :=
  { x with state := .aborted, status := .commitAborted, detail := BitVec.ofNat 16 l, regs := [], mems := [], journalUsed := 0
           prepared := [], applied := [], kids := [], busy := false, reported := false, applyAt := none }

/-- An abort drops the group's staged writes, fences jobs, sends messages, and then answers the packets that wait for the group. -/
theorem abortGroup_answers (g : Fin 16) (l : Nat) (s : State) : ∃ u, (∀ z, offPorts z u = offPorts z (modGroup s g (abortedGroup l))) ∧
    abortGroup g l s = answer (.commit g) .commitAborted (resultOf [(8, l)]) u := by
  refine ⟨_, fun z => ?_, rfl⟩
  have hfences (cs : List CoreId) (i : CoreId → FaultInfo) (u : State) :
      offPorts z (cs.foldl (fun u c => fenceCore c (i c) u) u) = offPorts z u :=
    foldl_keeps (offPorts z) _ (fun u c => congrArg (fun t : State => { t with ports := z.ports }) (fenceCore_unfenced z c (i c) u)) cs u
  split
  · rw [sendDown_offPorts, sendUp_offPorts, hfences]; rfl
  · rw [hfences]; rfl

/-! ### Prepare and decision -/

theorem bitOf_toNat {w : Nat} (x : BitVec w) (i : Nat) : bitOf x.toNat i = x.getLsbD i := by
  rw [← BitVec.testBit_toNat, Nat.testBit_eq_decide_div_mod_eq]
  rfl

theorem memberPrepare_of_fit {g : Fin 16} {l : Nat} {s : State} (hs : (groupAt s g).state = .preparing)
    (hm : isMember (groupAt s g) l = true) (hp : (groupAt s g).prepared.contains l = false) (hf : groupFenced s (groupAt s g) = none)
    (hc : prepareFails s (groupAt s g) l = false) :
    memberPrepare g l s = modGroup s g (fun x => { x with prepared := x.prepared ++ [l] }) := by
  simp only [memberPrepare, hs, hm, hp, hf, hc, and_self, if_true, if_false, Bool.false_eq_true]

/-- A group of which every member is prepared, and none is being fenced, decides (R270). -/
theorem commitDecision_of_prepared {g : Fin 16} {s : State} (hs : (groupAt s g).state = .preparing) (hp : allPrepared (groupAt s g) = true)
    (hw : fabricWide s g = false) (hf : groupFenced s (groupAt s g) = none) : commitDecision g s = decideGroup g none none s := by
  simp only [commitDecision, hs, hp, hw, hf, and_self, if_true]

/-- A group as it begins to apply. -/
def applyingGroup (x : Group) : Group := { x with state := .applying, applied := [], applyAt := none }

/-- A decision without a staged write of the epoch. -/
theorem decideGroup_of_cores {g : Fin 16} {s : State} (h : (groupAt s g).regs.find? (fun r => decide (r.core = none)) = none) :
    decideGroup g none none s = modGroup s g applyingGroup := by
  have hregs : (groupAt (modGroup s g applyingGroup) g).regs.find? (fun r => decide (r.core = none)) = none := by
    rw [groupAt_modGroup]; exact h
  show applyEpoch g none (modGroup s g applyingGroup) = _
  rw [applyEpoch, hregs]

/-- A decision with a staged write of the epoch moves it; where snapshots are off, the take is counted as skipped (R332). -/
theorem decideGroup_of_epoch {g : Fin 16} {s : State} {r : StagedReg} (h : (groupAt s g).regs.find? (fun r => decide (r.core = none)) = some r)
    (hen : s.snap.en = false) :
    decideGroup g none none s = modSnap (modGroup s g applyingGroup) (fun z =>
      { z with epoch := BitVec.ofNat 32 (fieldOf r.value.toNat 0 32), take := bitOf r.value.toNat 32
               skips := BitVec.ofNat 32 (satAdd 32 z.skips.toNat 1) }) := by
  have hregs : (groupAt (modGroup s g applyingGroup) g).regs.find? (fun r => decide (r.core = none)) = some r := by
    rw [groupAt_modGroup]; exact h
  have hskip (u : State) (hu : u.snap.en = false) (take : Bool) : takeDue u take = false := by simp only [takeDue, hu, Bool.false_and]
  show applyEpoch g none (modGroup s g applyingGroup) = _
  rw [applyEpoch, hregs]
  exact if_neg fun hd => Bool.false_ne_true ((hskip _ hen _).symm.trans hd)

/-- A member that has not answered in time aborts its group, where no member is being fenced (R270). -/
theorem prepTimeout_of_missing {g : Fin 16} {s : State} {l : Nat} (hs : (groupAt s g).state = .preparing)
    (hf : groupFenced s (groupAt s g) = none)
    (hl : (bitList 64 (groupAt s g).mask.toNat).find? (fun l => !(groupAt s g).prepared.contains l) = some l) :
    prepTimeout g s = abortGroup g l s := by
  simp only [prepTimeout, hs, hf, hl, if_true, Option.none_or]

/-- Settles O39: each command is one update of its group, and an abort answers the packet that waits for the group. -/
theorem commitPrepareAndDecide : Obligations.CommitPrepareAndDecide := by
  unfold Obligations.CommitPrepareAndDecide
  intro g l s x
  refine ⟨fun hs hm hp hf hc => ?prepare, fun hs hp hw hf hr => ?decision, fun r hs hp hw hf hr hen => ?epoch, fun m hs hf hm => ?timeout⟩
  case prepare => exact congrArg Host.Outcome.next (memberPrepare_of_fit hs hm hp hf hc)
  case decision =>
    have hnone : x.regs.find? (fun r => decide (r.core = none)) = none :=
      List.find?_eq_none.2 fun r h => by rw [decide_eq_false (hr r h)]; exact Bool.false_ne_true
    exact congrArg Host.Outcome.next ((commitDecision_of_prepared hs hp hw hf).trans (decideGroup_of_cores hnone))
  case epoch =>
    have hd := (commitDecision_of_prepared hs hp hw hf).trans (decideGroup_of_epoch hr hen)
    rw [bitOf_toNat, fieldOf_low32] at hd
    exact congrArg Host.Outcome.next hd
  case timeout =>
    obtain ⟨u, hu, ha⟩ := abortGroup_answers g m s
    have hrings : u.rings = s.rings := (congrArg State.rings (hu s) :)
    have hgroup (n : Fin 16) : groupAt (abortGroup g m s) n = groupAt (modGroup s g (abortedGroup m)) n := by
      rw [ha, answer_keeps (fun u => groupAt u n) fun _ _ => rfl]
      exact (congrArg (fun t : State => t.groups.get n) (hu s) :)
    have hself : groupAt (abortGroup g m s) g = abortedGroup m x := (hgroup g).trans (groupAt_modGroup ..)
    refine ⟨_, congrArg Host.Outcome.next (prepTimeout_of_missing hs hf hm), by rw [hself]; rfl, by rw [hself]; rfl, by rw [hself]; rfl,
      by rw [hself]; rfl, by rw [hself]; rfl, fun n hn => (hgroup n).trans (groupAt_modGroup_ne _ _ _ _ hn), ?_, fun w hw => ?_,
      fun w hw hg => ?_⟩
    · rw [ha, answer_dram]; exact (congrArg State.dram (hu s) :)
    · rw [ha] at hw; exact not_waiting_answer hw
    · rw [ha, answer_store, hrings]
      exact ⟨_, List.mem_append_right _ (List.mem_map_of_mem (List.mem_filter.2 ⟨hw, decide_eq_true hg⟩)), rfl, rfl, rfl⟩

end Sys2Proof.Machine

/-! SUPPORT. DRAM as accesses outside the cores read and write it, and the apply and completion of a commit group (R18, R271, R272, R340). -/

namespace Sys2Proof.Machine

/-! ### DRAM: a read after a write -/

/-- Two addresses of DRAM have two places (R18). -/
theorem dramKey_inj {s : State} {a b : Nat} (ha : a < dramBytes) (hb : b < dramBytes) (h : dramKey s a = dramKey s b) : a = b := by
  have hoff (x : Nat) (hx : x < dramBytes) : offsetOf s x < stackBytes := by
    simp only [dramBytes] at hx
    unfold offsetOf
    split
    · exact Nat.mod_lt _ (by decide)
    · simp only [stackBytes]; omega
  have hoffset : offsetOf s a = offsetOf s b := by
    have := hoff a ha
    have := hoff b hb
    simp only [dramKey, stackBytes] at *
    omega
  have hstack : (stackOf s a).val = (stackOf s b).val := by
    simp only [dramKey, stackBytes, hoffset] at h
    omega
  simp only [dramBytes] at ha hb
  simp only [stackOf, offsetOf, fieldOf, stackBytes] at hoffset hstack
  cases hl : s.stackLocal <;> simp only [hl, if_true, if_false, Bool.false_eq_true, Fin.val_ofNat] at hoffset hstack <;> omega

/-- What a byte reads whose index alone is written with value `v`. -/
theorem memGet_foldl_memSet {key : Nat → Nat} {val : Nat → Byte} {l : List Nat} {m : ByteMem} (hm : memWf m = true) {j : Nat} (hj : j ∈ l)
    (hinj : ∀ i ∈ l, key i = key j → i = j) : memGet (l.foldl (fun m i => memSet m (key i) (val i)) m) (key j) = val j := by
  refine (foldl_reaches (inv := fun m => memWf m = true) (done := fun m => memWf m = true ∧ memGet m (key j) = val j) hj hm
    (fun m i _ hm => memWf_memSet m _ _ hm) (fun m hm => ?_) (fun m i hi hm => ?_)).2
  · exact ⟨memWf_memSet m _ _ hm, by rw [memGet_memSet m _ _ _ hm, if_pos rfl]⟩
  · refine ⟨memWf_memSet m _ _ hm.1, ?_⟩
    rw [memGet_memSet m _ _ _ hm.1]
    by_cases hk : key j = key i
    · rw [if_pos hk, hinj i hi hk.symm]
    · rw [if_neg hk, hm.2]

/-- What is written to a range of DRAM is read back. -/
theorem dramRead_dramWrite {s : State} {a : Nat} {bs : List Byte} (hm : memWf s.dram = true) (hd : isDram s a bs.length = true) :
    dramRead (dramWrite s a bs) a bs.length = bs := by
  have hrange : a + bs.length ≤ dramBytes := of_decide_eq_true (Bool.and_eq_true_iff.1 hd).1
  refine List.ext_getElem (by rw [dramRead, List.length_map, List.length_range]) fun j hj hjb => ?_
  have hbyte : memGet (dramWrite s a bs).dram (dramKey s (a + j)) = bs.getD j 0 :=
    memGet_foldl_memSet (key := fun i => dramKey s (a + i)) hm (List.mem_range.2 hjb) fun i hi hk => by
      have hi := List.mem_range.1 hi
      exact Nat.add_left_cancel (dramKey_inj (by omega) (by omega) hk)
  have hread : (dramRead (dramWrite s a bs) a bs.length)[j] = memGet (dramWrite s a bs).dram (dramKey s (a + j)) := by
    simp only [dramRead, List.getElem_map, List.getElem_range]
    rfl
  rw [hread, hbyte, List.getD_eq_getElem?_getD, List.getElem?_eq_getElem hjb, Option.getD_some]

theorem length_dramRead (s : State) (a n : Nat) : (dramRead s a n).length = n := by rw [dramRead, List.length_map, List.length_range]

/-- Where no piece is found uncorrected and no check says otherwise, an access finds nothing. -/
theorem accessRange_clean {s : State} (h : badAddrs s = []) (write : Bool) (a n : Nat) (skip : List Nat) :
    accessRange write a n skip [] s = ([], s) := by
  simp only [accessRange, h, List.filter_nil, List.map_nil, List.append_nil, List.foldl_nil]

/-! ### Apply -/

/-- Outside a capture, a member that may apply is one update of its core and one of its group (R271). -/
theorem commitApply_of_ready {g : Fin 16} {l : Nat} {c : CoreId} {s : State} (hs : (groupAt s g).state = .applying)
    (hm : isMember (groupAt s g) l = true) (ha : (groupAt s g).applied.contains l = false) (hc : physicalOf s l = some c)
    (hr : applyReady s (groupAt s g) c = true) (hn : s.snap.state ≠ .capturing) :
    commitApply g l s = 
    modGroup (modCore s c (fun k => ((groupAt s g).regs.filter (fun r => decide (r.core = some l))).foldl applyReg k)) g
      (fun x => { x with applied := x.applied ++ [l] }) := by
  have hquiet : ¬ (s.snap.state = .capturing ∧ s.snap.takeGroup = some g) := fun h => hn h.1
  simp only [commitApply, hc, hs, hm, ha, hr, and_self, if_true, if_neg hquiet]

/-! ### Completion -/

/-- A staged memory write copies its bytes from the journal. -/
def memCopied (s : State) (m : StagedMem) : State := dramWrite s m.dst (dramRead s m.src m.len)

/-- A staged memory write that meets no error. -/
theorem commitMem_clean {s : State} (h : badAddrs s = []) (m : StagedMem) : commitMem [] s m = (false, memCopied s m) := by
  have hlost : lostPieces m [] = [] := by
    have hnone : (List.range m.len).filterMap (fun i =>
        if ([] : List Nat).contains ((m.src + i) / 128 * 128) then some ((m.dst + i) / 128 * 128) else none) = [] :=
      List.filterMap_eq_nil_iff.2 fun i _ => rfl
    rw [lostPieces, hnone, List.eraseDups_nil]
  simp only [commitMem, accessRange_clean h, List.map_nil, hlost, List.append_nil, dramWriteBut, List.isEmpty_nil, if_true, Bool.not_true]
  rfl

/-- Staged memory writes that meet no error are made in their order (R272). -/
theorem commitMems_clean {s : State} (h : badAddrs s = []) (ms : List StagedMem) : commitMems [] ms s = (none, ms.foldl memCopied s) := by
  unfold commitMems
  induction ms generalizing s with
  | nil => rfl
  | cons m ms ih =>
    rw [List.foldl_cons, List.foldl_cons]
    simp only [commitMem_clean h]
    exact ih (s := memCopied s m) h

/-- What a write of DRAM keeps, staged memory writes keep. -/
theorem memCopied_keeps {γ : Type} (p : State → γ) (h : ∀ u a bs, p (dramWrite u a bs) = p u) (ms : List StagedMem) (s : State) :
    p (ms.foldl memCopied s) = p s := foldl_keeps p _ (fun _ _ => h ..) ms s

/-- Staged memory writes leave every byte that none of them covers. -/
theorem memGet_memCopied_ne {ms : List StagedMem} {s : State} {a : Nat} (h : ∀ m ∈ ms, ∀ i, i < m.len → dramKey s (m.dst + i) ≠ a) :
    memGet (ms.foldl memCopied s).dram a = memGet s.dram a := by
  refine (List.foldlRecOn (motive := fun u => dramKey u = dramKey s ∧ memGet u.dram a = memGet s.dram a) ms memCopied ⟨rfl, rfl⟩
    fun u ⟨hkey, hu⟩ m hm => ⟨hkey, ?_⟩).2
  rw [memCopied, memGet_dramWrite_ne u m.dst a _ fun i hi => ?_, hu]
  rw [length_dramRead] at hi
  rw [hkey]
  exact h m hm i hi

/-- A group whose members have all applied, and whose memory writes wait for a stack, wakes the stacks (R340). -/
theorem commitComplete_of_unserved {g : Fin 16} {s : State} (hs : (groupAt s g).state = .applying)
    (ha : (bitList 64 (groupAt s g).mask.toNat).all (fun l => (groupAt s g).applied.contains l) = true)
    (hm : memsServed s (groupAt s g).mems = false) (chks : List (Nat × PieceCheck)) :
    commitComplete g chks s = memsWake (groupAt s g).mems s := by
  simp only [commitComplete, hs, ha, hm, and_self, if_true, if_false, Bool.false_eq_true]

/-- A group whose members have all applied, and whose memory writes are made without an error, is committed (R272). -/
theorem commitComplete_of_clean {g : Fin 16} {s : State} (hs : (groupAt s g).state = .applying)
    (ha : (bitList 64 (groupAt s g).mask.toNat).all (fun l => (groupAt s g).applied.contains l) = true)
    (hm : memsServed s (groupAt s g).mems = true) (hb : badAddrs s = []) :
    commitComplete g [] s = answer (.commit g) .ok noCore
      (modGroup ((groupAt s g).mems.foldl memCopied s) g (fun x => { x with state := .committed, status := .ok })) := by
  simp only [commitComplete, hs, ha, hm, and_self, if_true, commitMems_clean hb]

/-- Settles O40: a member's apply is an update of its core, and completion is a copy of every staged write in DRAM. -/
theorem commitApplyAndComplete : Obligations.CommitApplyAndComplete := by
  unfold Obligations.CommitApplyAndComplete
  intro g l c s x
  refine ⟨fun hs hm ha hc hr hn => ?apply, fun hs ha hm chks => ?wake, fun hs ha hm hb => ?complete⟩
  case apply => exact congrArg Host.Outcome.next (commitApply_of_ready hs hm ha hc hr hn)
  case wake => exact congrArg Host.Outcome.next (commitComplete_of_unserved hs (List.all_eq_true.2 ha) hm chks)
  case complete =>
    have hdone := commitComplete_of_clean hs (List.all_eq_true.2 ha) hm hb
    have hdram : (commitComplete g [] s).dram = (x.mems.foldl memCopied s).dram := by rw [hdone, answer_dram]; rfl
    refine ⟨_, congrArg Host.Outcome.next rfl, ?_, fun a hk => ?_, fun m hone hwf hd => ?_, ?_, ?_, fun w hw => ?_⟩
    · rw [hdone, answer_keeps (fun u => groupAt u g) fun _ _ => rfl, groupAt_modGroup]
      rw [memCopied_keeps (fun u => groupAt u g) fun _ _ _ => rfl]
    · rw [hdram, memGet_memCopied_ne hk]
    · have hcopy := dramRead_dramWrite (s := s) (a := m.dst) (bs := dramRead s m.src m.len) hwf (by rw [length_dramRead]; exact hd)
      rw [length_dramRead] at hcopy
      have hread : dramRead (commitComplete g [] s) m.dst m.len = dramRead (x.mems.foldl memCopied s) m.dst m.len := by
        rw [hdone]
        exact answer_keeps (fun u => dramRead u m.dst m.len) (fun _ _ => rfl) ..
      rw [hread, hone]
      exact hcopy
    · rw [hdone, answer_cores]
      exact memCopied_keeps State.cores (fun _ _ _ => rfl) ..
    · rw [hdone, answer_jobs]
      exact memCopied_keeps State.jobs (fun _ _ _ => rfl) ..
    · rw [hdone] at hw
      exact not_waiting_answer hw

end Sys2Proof.Machine

/-! SUPPORT. Writes of the ring registers, and the order of replies, alerts and job events (R251, R253, R254). -/

namespace Sys2Proof.Machine

/-- A request that is served came as IDE_ONLY asks. -/
theorem ideAllows_of_served {b : BarAcc} {s : State} (h : served b s) : ideAllows b.keyed s = true := by
  rcases h.2.1 with hk | hk <;> simp [ideAllows, hk]

/-- A write that is served takes effect on the state with the host's request answered. -/
theorem barWrite_of_served {b : BarAcc} {s : State} (h : served b s) (f : State → State) : barWrite b f s = f (written s) :=
  barWrite_served h.1 (by rw [barServes, ideAllows_of_served h, h.2.2]; rfl)

/-! ### The ring registers -/

/-- The rings with the vectors that the value `x` of CR_CTL names. -/
def withVectors (x : Nat) (r : Rings) : Rings :=
  { r with rvec := BitVec.ofNat 4 (fieldOf x 8 4), avec := BitVec.ofNat 4 (fieldOf x 12 4) }

/-- Rings that are enabled with a size that they may have start afresh. -/
theorem crCtlSet_of_enabling {x : Nat} {r : Rings} (hx : bitOf x 0 = true) (hr : r.enable = false) (h4 : 4 ≤ fieldOf x 4 4)
    (h12 : fieldOf x 4 4 ≤ 12) : crCtlSet x r = { withVectors x r with
      size := BitVec.ofNat 4 (fieldOf x 4 4), enable := true, stopped := false, tail := 0, head := 0, rrHead := 0, rrTail := 0 } := by
  have hsize : (BitVec.ofNat 4 (fieldOf x 4 4)).toNat = fieldOf x 4 4 := (BitVec.toNat_ofNat ..).trans (Nat.mod_eq_of_lt (by omega))
  have hok : 4 ≤ (BitVec.ofNat 4 (fieldOf x 4 4)).toNat ∧ (BitVec.ofNat 4 (fieldOf x 4 4)).toNat ≤ 12 := by rw [hsize]; exact ⟨h4, h12⟩
  simp only [crCtlSet, hx, hr, if_true, if_false, Bool.false_eq_true, if_pos hok]
  rfl

/-- Rings that are disabled keep all but the vectors. -/
theorem crCtlSet_of_disabling {x : Nat} {r : Rings} (hx : bitOf x 0 = false) (hr : r.enable = true) :
    crCtlSet x r = { withVectors x r with enable := false } := by
  simp only [crCtlSet, hx, hr, if_true, if_false, Bool.false_eq_true]
  rfl

/-- A write of CR_CTL that sets ENABLE before READY does nothing. -/
theorem crCtlWrite_of_early {b : BarAcc} {v : Word} {s : State} (hx : bitOf (merged b (crCtlValue s.rings) v) 0 = true)
    (hp : s.power.ready = false) : crCtlWrite b v s = s := if_pos (by rw [hx, hp]; rfl)

/-- Any other write of CR_CTL sets the rings. -/
theorem crCtlWrite_of_heard {b : BarAcc} {v : Word} {s : State}
    (h : bitOf (merged b (crCtlValue s.rings) v) 0 = false ∨ s.power.ready = true) :
    crCtlWrite b v s = modRings s (crCtlSet (merged b (crCtlValue s.rings) v)) := by
  refine if_neg ?_
  rcases h with h | h <;> simp [h]

/-- A tail within the rings' length moves alone. -/
theorem crTailWrite_of_fitting {b : BarAcc} {v : Word} {s : State} (hr : s.rings.enable = true)
    (h : (BitVec.ofNat 16 (merged b s.rings.tail.toNat v) - s.rings.head).toNat ≤ ringEntries s.rings) :
    crTailWrite b v true s = modRings s (fun r => { r with tail := BitVec.ofNat 16 (merged b r.tail.toNat v) }) := by
  have hfew : decide (ringEntries s.rings < (BitVec.ofNat 16 (merged b s.rings.tail.toNat v) - s.rings.head).toNat) = false :=
    decide_eq_false (Nat.not_lt.2 h)
  simp only [crTailWrite, modRings, hr, hfew, Bool.true_and, Bool.not_true, Bool.false_and, Bool.or_false]

/-- A tail beyond the rings' length stops the taking of packets. -/
theorem crTailWrite_of_overflow {b : BarAcc} {v : Word} {s : State} (hr : s.rings.enable = true)
    (h : ringEntries s.rings < (BitVec.ofNat 16 (merged b s.rings.tail.toNat v) - s.rings.head).toNat) :
    crTailWrite b v true s = modRings s (fun r =>
      { r with tail := BitVec.ofNat 16 (merged b r.tail.toNat v), overflow := true, stopped := true }) := by
  simp only [crTailWrite, modRings, hr, decide_eq_true h, Bool.true_and, Bool.not_true, Bool.false_and, Bool.or_false, Bool.or_true]

/-! ### Replies, alerts and job events -/

/-- No reply may be written while the reply ring is full or the link is down. -/
theorem mayReply_false {s : State} (h : 2 ^ s.rings.size.toNat ≤ (s.rings.rrTail - s.rings.rrHead).toNat ∨ s.host.linkUp = false) :
    mayReply s = false := by
  rcases h with h | h
  · have hfull : decide ((s.rings.rrTail - s.rings.rrHead).toNat < ringEntries s.rings) = false := decide_eq_false (Nat.not_lt.2 h)
    simp only [mayReply, hfull, Bool.and_false]
  · simp only [mayReply, h, Bool.and_false, Bool.false_and]

theorem replyWrite_of_next {s : State} {x : Reply} {rest : List Reply} (hm : mayReply s = true) (hs : s.rings.store = x :: rest) (ok : Bool) :
    replyWrite ok s = writeReply ok x (if x.irq then some s.rings.rvec else none) (fun u => modRings u (fun r => { r with store := rest })) s := by
  simp only [replyWrite, hs, hm, if_true]

theorem alertWrite_of_next {s : State} {a : Alert} {rest : List Alert} (hm : mayReply s = true) (hs : s.rings.store = [])
    (ha : s.rings.alerts = a :: rest) (ok : Bool) :
    alertWrite ok s = writeReply ok (alertReply a) (some s.rings.avec) (fun u => modRings u (fun r => { r with alerts := rest })) s := by
  simp only [alertWrite, ha, hm, hs, List.isEmpty_nil, Bool.and_self, if_true]

theorem jobEventWrite_of_next {s : State} {j : JobId} {js : List JobId} (hm : mayReply s = true) (hs : s.rings.store = [])
    (ha : s.rings.alerts = []) (hj : jobsWhere s (fun b => b.evt) = j :: js) (ok : Bool) : jobEventWrite ok s =
      writeReply ok (eventReply j (jobAt s j)) (some s.rings.avec) (fun u => modJob u j (fun b => { b with evt := false })) s := by
  simp only [jobEventWrite, hj, hm, hs, ha, List.isEmpty_nil, Bool.and_self, if_true]

/-- No reply is written where none may be. -/
theorem replyWrite_idle {s : State} (h : mayReply s = false) (ok : Bool) : replyWrite ok s = s := by
  unfold replyWrite
  split
  · rw [h]; rfl
  · rfl

/-- No alert is written where no reply may be, or one waits. -/
theorem alertWrite_idle {s : State} (h : mayReply s = false ∨ s.rings.store ≠ []) (ok : Bool) : alertWrite ok s = s := by
  have hno : (mayReply s && s.rings.store.isEmpty) = false := by
    rcases h with h | h
    · rw [h, Bool.false_and]
    · rw [List.isEmpty_eq_false_iff.2 h, Bool.and_false]
  unfold alertWrite
  split
  · rw [hno]; rfl
  · rfl

/-- No job event is written where no reply may be, or a reply or an alert waits. -/
theorem jobEventWrite_idle {s : State} (h : mayReply s = false ∨ s.rings.store ≠ [] ∨ s.rings.alerts ≠ []) (ok : Bool) :
    jobEventWrite ok s = s := by
  have hno : (mayReply s && s.rings.store.isEmpty && s.rings.alerts.isEmpty) = false := by
    rcases h with h | h | h
    · rw [h, Bool.false_and, Bool.false_and]
    · rw [List.isEmpty_eq_false_iff.2 h, Bool.and_false, Bool.false_and]
    · rw [List.isEmpty_eq_false_iff.2 h, Bool.and_false]
  unfold jobEventWrite
  split
  · rw [hno]; rfl
  · rfl

/-- Indices that rise are listed in their order. -/
theorem pairwise_of_cellRising {β : Type} {m : List (Nat × β)} {lo : Nat} (h : cellRising lo m = true) :
    m.Pairwise (fun a b => a.1 < b.1) ∧ ∀ e ∈ m, lo < e.1 := by
  induction m generalizing lo with
  | nil => exact ⟨.nil, nofun⟩
  | cons e m ih =>
    obtain ⟨k, v⟩ := e
    simp only [cellRising, Bool.and_eq_true, decide_eq_true_eq] at h
    obtain ⟨hpair, hall⟩ := ih h.2
    refine ⟨.cons hall hpair, fun x hx => ?_⟩
    rcases List.mem_cons.1 hx with rfl | hx
    · exact h.1
    · exact Nat.lt_trans h.1 (hall x hx)

/-- The indices of a canonical map are listed in their order. -/
theorem pairwise_of_cellWf {β : Type} [DecidableEq β] {d : β} {m : List (Nat × β)} (h : cellWf d m = true) :
    m.Pairwise (fun a b => a.1 < b.1) := by
  rcases ((cellWf_iff d m).1 h).1 with rfl | ⟨k, v, r, rfl, hr⟩
  · exact .nil
  · obtain ⟨hpair, hall⟩ := pairwise_of_cellRising hr
    exact .cons hall hpair

/-- Jobs of a canonical job table are found in increasing index (R261). -/
theorem jobsWhere_rising {s : State} (h : cellWf freeJob s.jobs = true) (p : Job → Bool) : (jobsWhere s p).Pairwise (· < ·) := by
  refine (pairwise_of_cellWf h).filterMap _ fun e e' hlt j hj j' hj' => ?_
  have hval (e : Nat × Job) (j : JobId) (hj : (if h : e.1 < 65536 then (if p e.2 then some (⟨e.1, h⟩ : JobId) else none) else none) = some j) :
      j.val = e.1 := by
    split at hj
    · split at hj
      · injection hj with hj
        rw [← hj]
      · cases hj
    · cases hj
  rw [Fin.lt_def, hval e j hj, hval e' j' hj']
  exact hlt

/-- Settles O43: each command is one update of the rings, under the conditions that order replies, alerts and events. -/
theorem hostRings : Obligations.HostRings := by
  unfold Obligations.HostRings
  intro b v s x rest a as_ j js r n slot
  refine ⟨fun hb => ?control, fun hb => ?tail, fun hm hs => ?reply, fun hm hs ha => ?alert, fun hm hs ha hj => ?event,
    fun hm hs ha hj hwf k hk => ?order, fun hs ok => ?storeFirst, fun ha ok => ?alertsFirst, fun h ok => ?none, fun h as2 => ⟨rfl, fun jobs => rfl⟩⟩
  case control =>
    intro w vectors
    refine ⟨fun hx hp hr h4 h12 => ?_, fun hx hp => ?_, fun hx hr => ?_⟩
    all_goals refine congrArg Host.Outcome.next ((barWrite_of_served hb _).trans ?_)
    · exact (crCtlWrite_of_heard (s := written s) (.inr hp)).trans
        (congrArg (fun r => { written s with rings := r }) (crCtlSet_of_enabling hx hr h4 h12))
    · exact crCtlWrite_of_early hx hp
    · exact (crCtlWrite_of_heard (s := written s) (.inl hx)).trans
        (congrArg (fun r => { written s with rings := r }) (crCtlSet_of_disabling hx hr))
  case tail =>
    intro t
    refine ⟨fun hr ht => ?_, fun hr ht => ?_⟩
    all_goals refine congrArg Host.Outcome.next ((barWrite_of_served hb _).trans ?_)
    · exact crTailWrite_of_fitting hr ht
    · exact crTailWrite_of_overflow hr ht
  case reply =>
    exact ⟨congrArg Host.Outcome.next (replyWrite_of_next hm hs true), congrArg Host.Outcome.next (replyWrite_of_next hm hs false)⟩
  case alert => exact congrArg Host.Outcome.next (alertWrite_of_next hm hs ha true)
  case event => exact congrArg Host.Outcome.next (jobEventWrite_of_next hm hs ha hj true)
  case order =>
    have hmem : k ∈ jobsWhere s (fun b => b.evt) :=
      mem_jobsWhere hk fun e => absurd (hk.symm.trans (congrArg Job.evt e)) nofun
    have hpair := jobsWhere_rising hwf (fun b => b.evt)
    rw [hj] at hmem hpair
    rcases List.mem_cons.1 hmem with rfl | hmem
    · exact Nat.le_refl _
    · exact Nat.le_of_lt (List.rel_of_pairwise_cons hpair hmem)
  case storeFirst =>
    exact ⟨congrArg Host.Outcome.next (alertWrite_idle (.inr hs) ok), congrArg Host.Outcome.next (jobEventWrite_idle (.inr (.inl hs)) ok)⟩
  case alertsFirst => exact congrArg Host.Outcome.next (jobEventWrite_idle (.inr (.inr ha)) ok)
  case none =>
    have hm := mayReply_false h
    exact ⟨congrArg Host.Outcome.next (replyWrite_idle hm ok), congrArg Host.Outcome.next (alertWrite_idle (.inl hm) ok),
      congrArg Host.Outcome.next (jobEventWrite_idle (.inl hm) ok)⟩

end Sys2Proof.Machine

/-! SUPPORT. Accesses from the host: windows, DRAM and local stores, registers, configuration and the link (R245 to R250, R266, R340,
R366). -/

namespace Sys2Proof.Machine

/-! ### Memory accesses -/

/-- The bytes of a write, read off by their numbers, are its data. -/
theorem map_getD_range {bs : List Byte} {n : Nat} (h : bs.length = n) : (List.range n).map (fun i => bs.getD i 0) = bs := by
  refine List.ext_getElem (by rw [List.length_map, List.length_range, h]) fun i _ hi => ?_
  rw [List.getElem_map, List.getElem_range, List.getD_eq_getElem?_getD, List.getElem?_eq_getElem hi, Option.getD_some]

/-- What a change of the power block keeps, a wake request keeps. -/
theorem wakeRegion_keeps {γ : Type} (p : State → γ) (h : ∀ f u, p (modPower u f) = p u) (n : Fin 28) (s : State) :
    p (wakeRegion n s) = p s := by
  have hqueue : p (wakeQueue n s) = p s := by
    unfold wakeQueue
    split
    · exact (h _ _).trans (h _ s)
    · rfl
  simp only [wakeRegion]
  split
  · exact (h _ _).trans hqueue
  · exact hqueue

theorem wakeStacks_keeps {γ : Type} (p : State → γ) (h : ∀ f u, p (modPower u f) = p u) (a n : Nat) (s : State) :
    p (wakeStacks a n s) = p s := foldl_keeps p _ (fun u k => wakeRegion_keeps p h (powMem k) u) _ s

section
variable {x : HostAcc} {s : State}

/-- An access of the host through a window that is enabled, holds its bytes, and may be written where the access is a write. -/
theorem hostAccess_of_mapped (hs : served { lanes := .all, keyed := x.keyed, poisoned := x.write && x.poisoned } s)
    (he : (s.host.wins.get x.slot).en = true) (hf : x.off + x.len ≤ 2 ^ (s.host.wins.get x.slot).size.toNat)
    (hw : x.write = true → (s.host.wins.get x.slot).wr = true) :
    hostAccess x s = hostTake { acc := x, addr := (s.host.wins.get x.slot).base.toNat * 4096 + x.off } s := by
  have hreach := hs.1
  have hide : ideAllows x.keyed s = true := ideAllows_of_served hs
  have hclean : (x.write && x.poisoned) = false := hs.2.2
  have hmay : (x.write && !(s.host.wins.get x.slot).wr) = false := by
    cases hx : x.write
    · rfl
    · rw [hw hx]; rfl
  simp only [hostAccess, hreach, hclean, hide, he, hmay, Nat.not_lt.2 hf, if_true, if_false,
    Bool.not_true, Bool.false_eq_true]

variable {w : HostWait}

theorem hostTake_local {c : CoreId} {o : Nat} (hr : hostRefusal s w.acc w.addr = none) (hl : localRange s w.addr w.acc.len = some (c, o)) :
    hostTake w s = hostLocal w.acc c o s := by simp only [hostTake, hr, hl]

theorem hostTake_served (hr : hostRefusal s w.acc w.addr = none) (hl : localRange s w.addr w.acc.len = none)
    (hs : hostServed s s.host.waiting w = true) : hostTake w s = hostMoves w.acc w.addr s := by simp only [hostTake, hr, hl, hs, if_true]

theorem hostTake_waits (hr : hostRefusal s w.acc w.addr = none) (hl : localRange s w.addr w.acc.len = none)
    (hs : hostServed s s.host.waiting w = false) : hostTake w s =
      modHost (wakeStacks w.addr w.acc.len s) (fun h => { h with waiting := h.waiting ++ [w], out := .waits }) := by
  simp only [hostTake, hr, hl, hs, if_false, Bool.false_eq_true]

/-- A read of DRAM that meets no error answers its bytes. -/
theorem hostMoves_read (hc : x.chks = []) (hb : badAddrs s = []) (hw : x.write = false) (a : Nat) :
    hostMoves x a s = answerHost (.bytes (dramRead s a x.len)) s := by
  simp only [hostMoves, hc, accessRange_clean hb, hw, if_false, Bool.false_eq_true, List.isEmpty_nil, if_true]

/-- A write of DRAM that meets no error writes its data. -/
theorem hostMoves_write (hc : x.chks = []) (hb : badAddrs s = []) (hw : x.write = true) (hd : x.data.length = x.len) (a : Nat) :
    hostMoves x a s = answerHost .done (dramWrite s a x.data) := by
  simp only [hostMoves, hc, accessRange_clean hb, hw, if_true, List.isEmpty_nil, List.map_nil, dramWriteBut, map_getD_range hd]

theorem hostLocal_read (hw : x.write = false) (c : CoreId) (o : Nat) :
    hostLocal x c o s = answerHost (.bytes (memRead (coreAt s c).store o x.len)) s := by
  simp only [hostLocal, hw, if_false, Bool.false_eq_true]

theorem hostLocal_write {c : CoreId} (hw : x.write = true) (hd : x.data.length = x.len) (hr : regionRuns s (regionOf c) = true) (o : Nat) :
    hostLocal x c o s = modCore (answerHost .done s) c (fun k => { k with store := memWrite k.store o x.data }) := by
  simp only [hostLocal, hw, if_true, hr, map_getD_range hd]

/-- An access of DRAM that nothing refuses lies in DRAM. -/
theorem isDram_of_unrefused {a : Nat} (hr : hostRefusal s x a = none) (hl : localRange s a x.len = none) : isDram s a x.len = true := by
  refine Decidable.byContradiction fun hn => ?_
  rw [Bool.not_eq_true] at hn
  rw [hostRefusal, hl] at hr
  simp only [hn, Bool.not_false, if_true] at hr
  split at hr <;> cases hr

end

/-! ### Registers -/

/-- A register write that is aligned and served takes effect. -/
theorem registerWrite_of_served {b : BarAcc} {off : Nat} {s : State} (hb : served b s) (h8 : off % 8 = 0) (hr : off < 0x4000000) (v : Word) :
    barRegWrite b off v s = regWrite b off v (written s) := by
  have hat : (decide (off % 8 = 0) && decide (off < 0x4000000)) = true := by rw [decide_eq_true h8, decide_eq_true hr]; rfl
  rw [barRegWrite, if_pos hb.1, if_pos hat, barWrite_of_served hb]

/-- A register read that is aligned and served answers the register and clears its RC fields. -/
theorem registerRead_of_served {b : BarAcc} {off : Nat} {s : State} (hb : served b s) (h8 : off % 8 = 0) (hr : off < 0x4000000) :
    barRead b off s = regClear (answerHost (.data (laneRead b.lanes (regRead s off))) s) off := by
  simp only [barRead, hb.1, ideAllows_of_served hb, decide_eq_true h8, decide_eq_true hr, Bool.and_self, if_true]

/-- A write in a poisoned TLP is an Unsupported Request. -/
theorem barWrite_of_poisoned {b : BarAcc} {s : State} (hr : hostReaches s = true) (hp : b.poisoned = true) (f : State → State) :
    barWrite b f s = poisonedWrite s := by
  simp only [barWrite, barServes, hr, hp, Bool.not_true, Bool.false_and, if_true, if_false, Bool.false_eq_true]

/-- A register access that is misaligned, outside the range, or not keyed as IDE_ONLY asks. -/
def misdirected (b : BarAcc) (off : Nat) (s : State) : Prop :=
  off % 8 ≠ 0 ∨ 0x4000000 ≤ off ∨ b.keyed = false ∧ s.ident.ideOnly = true

/-- No access that is misdirected is served. -/
theorem misdirected_unserved {b : BarAcc} {off : Nat} {s : State} (h : misdirected b off s) :
    (ideAllows b.keyed s && decide (off % 8 = 0) && decide (off < 0x4000000)) = false := by
  rcases h with h | h | ⟨hk, hi⟩
  · rw [decide_eq_false h, Bool.and_false, Bool.false_and]
  · rw [decide_eq_false (Nat.not_lt.2 h), Bool.and_false]
  · rw [ideAllows, hk, hi]; rfl

theorem registerRead_misdirected {b : BarAcc} {off : Nat} {s : State} (hr : hostReaches s = true) (h : misdirected b off s) :
    barRead b off s = answerHost .unsupported s := by
  rw [barRead, if_pos hr, if_neg (by rw [misdirected_unserved h]; exact Bool.false_ne_true)]

theorem registerWrite_misdirected {b : BarAcc} {off : Nat} {s : State} (hr : hostReaches s = true) (hp : b.poisoned = false)
    (h : misdirected b off s) (v : Word) : barRegWrite b off v s = answerHost .unsupported s := by
  have hun := misdirected_unserved h
  rw [barRegWrite, if_pos hr]
  split
  · next hat =>
    rw [Bool.and_assoc, hat, Bool.and_true] at hun
    simp only [barWrite, barServes, hr, hp, hun, Bool.not_false, Bool.and_false, if_true, if_false, Bool.false_eq_true]
  · rfl

/-- While the rings are disabled a write of all of CR_BASE sets the ring's base, a multiple of 64. -/
theorem regWrite_crBase {b : BarAcc} {s : State} (he : s.rings.enable = false) (hl : b.lanes = .all) (v : Word) :
    regWrite b 0x10008 v s = modRings s (fun r => { r with base := BitVec.ofNat 64 (v.toNat / 64 * 64) }) := by
  have hall : merged b (mgtRead s 0x008) v = v.toNat := by rw [merged, hl]; exact Nat.mod_eq_of_lt v.isLt
  have hplace : regWrite b 0x10008 v s = if s.rings.enable then s else
      modRings s (fun r => { r with base := BitVec.ofNat 64 (merged b (mgtRead s 0x008) v / 64 * 64) }) := rfl
  rw [hplace, if_neg (by rw [he]; exact Bool.false_ne_true), hall]

/-! ### Configuration -/

theorem configRequest_of_answered {s : State} (hr : hostReaches s = true) (hn : ¬ (s.power.warm = true ∧ s.power.cause.toNat = 4))
    (write : Bool) (off : Nat) (v : BitVec 32) : configRequest write off v s =
      if write then answerHost .done (modHost s (fun h => { h with config := h.config.filter (fun x => decide (x.1 ≠ off)) ++ [(off, v)] }))
      else answerHost (.data (BitVec.ofNat 64 (configValue s off).toNat)) s := by
  have hretry : (s.power.warm && decide (s.power.cause.toNat = causeFlr)) ≠ true := fun h => by
    rw [Bool.and_eq_true, decide_eq_true_eq] at h
    exact hn h
  rw [configRequest, if_pos hr, if_neg hretry]

/-! ### Windows -/

theorem hwinWrite_of_fitting {b : BarAcc} {i : Fin 16} {v : Word} {s : State}
    (h : winFits s (merged b (hwinReg (s.host.wins.get i)) v) = true) : hwinWrite b i v s = modHost s (fun h =>
      { h with
        wins := h.wins.set i.val { base := BitVec.ofNat 36 (fieldOf (merged b (hwinReg (s.host.wins.get i)) v) 12 36)
                                   en := bitOf (merged b (hwinReg (s.host.wins.get i)) v) 48
                                   wr := bitOf (merged b (hwinReg (s.host.wins.get i)) v) 49
                                   size := BitVec.ofNat 6 (fieldOf (merged b (hwinReg (s.host.wins.get i)) v) 50 6) } i.isLt
        winErr := false }) := if_pos h

theorem hwinWrite_of_unfitting {b : BarAcc} {i : Fin 16} {v : Word} {s : State}
    (h : winFits s (merged b (hwinReg (s.host.wins.get i)) v) = false) : hwinWrite b i v s = modHost s (fun h => { h with winErr := true }) :=
  if_neg (by rw [h]; exact Bool.false_ne_true)

/-- Settles O44: every access is the answer to the host beside one update of what it names. -/
theorem hostAccesses : Obligations.HostAccesses := by
  unfold Obligations.HostAccesses
  intro b v i x c o off v32 s w a mapped serves
  have mapped_takes : mapped → hostAccess x s = hostTake { acc := x, addr := a } s := fun ⟨hs, he, hf, hw, _⟩ => hostAccess_of_mapped hs he hf hw
  have mapped_unrefused : mapped → hostRefusal s x a = none := fun ⟨_, _, _, _, hr⟩ => hr
  refine ⟨fun hb => ⟨fun hf => ?window, fun hf => ?badWindow⟩, fun hm ⟨hs, hc, hb⟩ hw hl => ?read, fun hm hw hl => ?localRead,
    fun hm hl hs => ?waits, fun hr hp hw => ?poisonedAccess, fun hr hp h8 ho => ?poisonedRegister,
    fun hm ⟨hs, hc, hb⟩ hw hl hwf hd => ?write, fun hm hw hl hr hd => ?localWrite, fun hb => ?jobIndex, fun hb h8 ho => ?registers,
    fun hr hp h => ?misdirected, fun hb he hl => ?base, fun hb hl => ?events, fun hr hn => ?config, fun hm hv => ?train, rfl⟩
  case window => exact congrArg Host.Outcome.next ((barWrite_of_served hb _).trans (hwinWrite_of_fitting (s := written s) hf))
  case badWindow => exact congrArg Host.Outcome.next ((barWrite_of_served hb _).trans (hwinWrite_of_unfitting (s := written s) hf))
  case read =>
    have hmove := (mapped_takes hm).trans ((hostTake_served (mapped_unrefused hm) hl hs).trans (hostMoves_read hc hb hw a))
    exact ⟨_, congrArg Host.Outcome.next hmove, rfl, rfl, rfl, rfl, rfl⟩
  case localRead =>
    exact congrArg Host.Outcome.next ((mapped_takes hm).trans ((hostTake_local (mapped_unrefused hm) hl).trans (hostLocal_read hw c o)))
  case waits =>
    refine ⟨_, congrArg Host.Outcome.next ((mapped_takes hm).trans (hostTake_waits (mapped_unrefused hm) hl hs)), ?_, ?_, ?_, ?_⟩
    · rw [modHost_host, wakeStacks_keeps State.host fun _ _ => rfl]
    · exact wakeStacks_keeps State.dram (fun _ _ => rfl) ..
    · exact wakeStacks_keeps State.cores (fun _ _ => rfl) ..
    · exact wakeStacks_keeps State.jobs (fun _ _ => rfl) ..
  case poisonedAccess =>
    have hpoisoned : hostAccess x s = poisonedWrite s := by simp only [hostAccess, hr, hw, hp, Bool.and_self, if_true]
    exact congrArg Host.Outcome.next hpoisoned
  case poisonedRegister =>
    have hat : (decide (off % 8 = 0) && decide (off < 0x4000000)) = true := by rw [decide_eq_true h8, decide_eq_true ho]; rfl
    have hpoisoned : barRegWrite b off v s = poisonedWrite s := by rw [barRegWrite, if_pos hr, if_pos hat, barWrite_of_poisoned hr hp]
    exact congrArg Host.Outcome.next hpoisoned
  case write =>
    have hmove := (mapped_takes hm).trans ((hostTake_served (mapped_unrefused hm) hl hs).trans (hostMoves_write hc hb hw hd a))
    have hdram := isDram_of_unrefused (mapped_unrefused hm) hl
    rw [← hd] at hdram
    refine ⟨_, congrArg Host.Outcome.next hmove, rfl, ?_, memWf_dramWrite s a x.data hwf, fun k hk => ?_, rfl, rfl, rfl⟩
    · rw [← hd]
      exact dramRead_dramWrite hwf hdram
    · exact memGet_dramWrite_ne s a k x.data fun n hn => hk n (hd ▸ hn)
  case localWrite =>
    exact congrArg Host.Outcome.next ((mapped_takes hm).trans ((hostTake_local (mapped_unrefused hm) hl).trans (hostLocal_write hw hd hr o)))
  case jobIndex => exact congrArg Host.Outcome.next (barWrite_of_served hb _)
  case registers =>
    exact ⟨congrArg Host.Outcome.next (registerWrite_of_served hb h8 ho v), congrArg Host.Outcome.next (registerRead_of_served hb h8 ho)⟩
  case misdirected =>
    exact ⟨congrArg Host.Outcome.next (registerWrite_misdirected hr hp h v), congrArg Host.Outcome.next (registerRead_misdirected hr h)⟩
  case base =>
    exact congrArg Host.Outcome.next ((registerWrite_of_served hb rfl (by decide) v).trans (regWrite_crBase (s := written s) he hl v))
  case events =>
    have hread := registerRead_of_served hb (off := 0x10040) rfl (by decide)
    rw [hl] at hread
    exact congrArg Host.Outcome.next hread
  case config =>
    exact ⟨congrArg Host.Outcome.next (configRequest_of_answered hr hn true off v32),
      congrArg Host.Outcome.next (configRequest_of_answered hr hn false off v32)⟩
  case train =>
    have hup : pcieTrain true s = modHost s (fun h => { h with linkUp := true }) := by
      simp only [pcieTrain, hm, hv, Bool.not_false, Bool.and_self, if_true]
    exact congrArg Host.Outcome.next hup

end Sys2Proof.Machine

/-! SUPPORT. What each reset leaves, and the end of a reset (R247, R354 to R357, R372). -/

namespace Sys2Proof.Machine

@[simp] theorem get_vmap {α β : Type} {n : Nat} (f : α → β) (v : Vector α n) (i : Fin n) : (vmap f v).get i = f (v.get i) := get_ofFn ..

@[simp] theorem get_replicate {α : Type} {n : Nat} (a : α) (i : Fin n) : (Vector.replicate n a).get i = a := by
  change (Vector.replicate n a)[i.val] = a
  simp

/-! ### Cold resets -/

/-- Every cause leaves the same state at the start of a cold reset (R354, R355). -/
theorem coldReset_starts (cause : Nat) (s : State) : coldStart cause s (coldReset cause s) := by
  have hlc : (coldReset cause s).ident.lcState = s.ident.blown.getD s.ident.lcState := by
    show (confirmed s.ident).lcState = _
    unfold confirmed
    cases s.ident.blown <;> rfl
  have hfuses : (confirmed s.ident).serial = s.ident.serial ∧ (confirmed s.ident).svnFused = s.ident.svnFused := by
    unfold confirmed
    cases s.ident.blown <;> exact ⟨rfl, rfl⟩
  refine ⟨rfl, rfl, rfl, rfl, fun n => get_replicate .., rfl, rfl, rfl, fun c => ?_, rfl, rfl, rfl, rfl, rfl, rfl, hfuses.1, hfuses.2, hlc, rfl,
    rfl, rfl⟩
  have hcore : coreAt (coldReset cause s) c = coreCold s.fuses c := get_ofFn ..
  rw [hcore]
  exact ⟨rfl, rfl⟩

theorem resetRelease_of_low {s : State} (h : s.power.resetLow = true) (mgrSel : Bool) (wid : BitVec 4) : resetRelease mgrSel wid s =
    (fun t : State => { t with fabric := { t.fabric with mgr := mgrSel }, wtn := { t.wtn with inst := wid } })
      (coldReset causePin (modPower s (fun p =>
        { p with resetLow := false, aon := true, hard := p.hard && p.aon, thermtrip := p.thermtrip && p.aon }))) := if_pos h

theorem resetAssert_of_high {s : State} (h : s.power.resetLow = false) :
    resetAssert s = coldReset causePin (modPower s (fun p => { p with resetLow := true })) :=
  if_neg (by rw [h]; exact Bool.false_ne_true)

/-! ### Warm resets -/

/-- A state with what wakes and the begin of a wipe change taken from `z`. -/
def offWake (z s : State) : State :=
  { s with
    wiping := z.wiping
    power := { s.power with regs := z.power.regs, queue := z.power.queue, kept := z.power.kept, wipes := z.power.wipes } }

theorem wakeRegion_offWake (z : State) (n : Fin 28) (s : State) : offWake z (wakeRegion n s) = offWake z s := by
  have hqueue : offWake z (wakeQueue n s) = offWake z s := by
    unfold wakeQueue
    split <;> rfl
  simp only [wakeRegion]
  split
  · exact hqueue
  · exact hqueue

theorem resetWipe_offWake (z : State) (s : State) : offWake z (resetWipe s) = offWake z s := by
  unfold resetWipe
  split <;> rfl

/-- Wakes and the begin of a wipe change nothing of what a warm reset starts with. -/
theorem warmStart_of_offWake {cause : Nat} {s t u : State} (h : offWake s t = offWake s u) (hu : warmStart cause s u) : warmStart cause s t := by
  have ht : warmStart cause s (offWake s t) := by rw [h]; exact hu
  exact ht

/-- The state in which a warm reset wakes the stacks and begins its wipe. -/
def warmed (cause : Nat) (s : State) : State :=
  { s with
    regions := vmap regionWarm s.regions, cores := vmap coreWarm s.cores, jobs := [], images := [], orderChoices := 0
    groups := Vector.replicate 16 resetGroup, rings := resetRings, host := { s.host with wins := resetHost.wins }
    digest := resetDigest, spare := spareWarm s, snap := snapWarm s.snap, fabric := fabricWarm s.fabric, spdm := spdmWarm s.spdm
    mems := vmap (fun m : MemRegion => { m with queue := [] }) s.mems, wiping := false
    power := { s.power with
      ready := false, warm := true, cause := BitVec.ofNat 3 cause, wiped := false, woken := 0, keep := retained s, wipes := []
      refStop := false } }

theorem warmReset_of_ready {s : State} (h : s.power.ready = true) (cause : Nat) :
    warmReset cause s = resetWipe ((List.finRange 8).foldl (fun u k => wakeRegion (powMem k) u) (warmed cause s)) := by
  unfold warmReset warmed
  rw [if_pos h]

/-- Fields that the first step of a warm reset leaves as they are. -/
theorem warmed_keeps (cause : Nat) (s : State) :
    (warmed cause s).dram = s.dram ∧ (warmed cause s).ident = s.ident ∧ (warmed cause s).mgtPeriods = s.mgtPeriods ∧
      (warmed cause s).pending = s.pending := by
  unfold warmed
  exact ⟨rfl, rfl, rfl, rfl⟩

theorem warmed_starts (cause : Nat) (s : State) : warmStart cause s (warmed cause s) := by
  obtain ⟨hdram, hident, hperiods, hpending⟩ := warmed_keeps cause s
  refine ⟨rfl, rfl, rfl, rfl, rfl, rfl, rfl, fun c => ?_, fun r => ?_, rfl, fun k => ?_, hdram, hident, rfl, rfl, rfl, hperiods, hpending⟩
  · have hcore : coreAt (warmed cause s) c = coreWarm (coreAt s c) := get_vmap ..
    have harr (m : Fin 4) : arrOf (coreWarm (coreAt s c)) m = keepMaps (arrOf (coreAt s c) m) := get_vmap ..
    rw [hcore]
    exact ⟨rfl, rfl, fun m => by rw [harr]; exact ⟨rfl, rfl⟩⟩
  · have hregion : regionAt (warmed cause s) r = regionWarm (regionAt s r) := get_vmap ..
    rw [hregion]
    exact ⟨rfl, rfl, rfl⟩
  · show (spdmWarm s.spdm).ide.get k = none
    exact get_replicate ..

/-- Every cause of a warm reset leaves the same state at its start (R354, R356), and the link as it was. -/
theorem warmReset_starts {s : State} (h : s.power.ready = true) (cause : Nat) :
    warmStart cause s (warmReset cause s) ∧ (warmReset cause s).host.linkUp = s.host.linkUp := by
  have hoff : offWake s (warmReset cause s) = offWake s (warmed cause s) := by
    rw [warmReset_of_ready h, resetWipe_offWake]
    exact foldl_keeps (offWake s) _ (fun u k => wakeRegion_offWake s (powMem k) u) _ _
  exact ⟨warmStart_of_offWake hoff (warmed_starts cause s), (congrArg (fun t : State => t.host.linkUp) hoff :)⟩

/-! ### PWR_RESET -/

theorem pwrResetWrite_cold {x : Nat} (hk : fieldOf x 0 16 = 0xB007) (hc : bitOf x 16 = true) (s : State) :
    pwrResetWrite x s = coldReset causeCold s := by simp only [pwrResetWrite, hk, hc, if_true]

theorem pwrResetWrite_warm {x : Nat} (hk : fieldOf x 0 16 = 0xB007) (hc : bitOf x 16 = false) (hw : bitOf x 17 = true) (s : State) :
    pwrResetWrite x s = warmReset causeWarm s := by simp only [pwrResetWrite, hk, hc, hw, if_true, if_false, Bool.false_eq_true]

/-- A write with a wrong key does nothing. -/
theorem pwrResetWrite_wrongKey {x : Nat} (hk : fieldOf x 0 16 ≠ 0xB007) (s : State) : pwrResetWrite x s = s := if_neg hk

/-! ### READY -/

/-- One port's turn as enabled ports start training. -/
def enableTurn (s : State) (p : PortId) : State :=
  if (portAt s p).en && portRuns s p then modPort s p (fun q => { q with state := pTraining }) else s

theorem enablePorts_eq (s : State) : enablePorts s = (List.finRange 10).foldl enableTurn s := rfl

theorem enablePorts_keeps {γ : Type} (q : State → γ) (h : ∀ u p f, q (modPort u p f) = q u) (s : State) : q (enablePorts s) = q s := by
  rw [enablePorts_eq]
  refine foldl_keeps q enableTurn (fun u p => ?_) _ s
  unfold enableTurn
  split
  · exact h ..
  · rfl

/-- A port that is enabled and runs trains. -/
theorem portAt_enablePorts {s : State} {p : PortId} (he : (portAt s p).en = true) (hr : portRuns s p = true) :
    portAt (enablePorts s) p = { portAt s p with state := pTraining } := by
  have hpow (u : State) (n : PortId) : (enableTurn u n).power = u.power := by unfold enableTurn; split <;> rfl
  have hother (u : State) {n : PortId} (hn : p ≠ n) : portAt (enableTurn u n) p = portAt u p := by
    unfold enableTurn
    split
    · exact portAt_modPort_ne u n p _ hn
    · rfl
  have hturn (u : State) (hu : { portAt u p with state := pTraining } = { portAt s p with state := pTraining }) (hp : u.power = s.power) :
      portAt (enableTurn u p) p = { portAt s p with state := pTraining } := by
    have hen : ((portAt u p).en && portRuns u p) = true := by
      have huen : (portAt u p).en = (portAt s p).en := (congrArg Port.en hu :)
      have hruns : portRuns u p = portRuns s p := by simp only [portRuns, powAt, hp]
      rw [huen, hruns, he, hr]; rfl
    rw [enableTurn, if_pos hen, portAt_modPort, hu]
  refine (foldl_reaches (f := enableTurn) (List.mem_finRange p)
    (inv := fun u => { portAt u p with state := pTraining } = { portAt s p with state := pTraining } ∧ u.power = s.power)
    (done := fun u => portAt u p = { portAt s p with state := pTraining } ∧ u.power = s.power)
    ⟨rfl, rfl⟩ (fun u n _ ⟨hu, hp⟩ => ⟨?before, (hpow u n).trans hp⟩) (fun u ⟨hu, hp⟩ => ⟨hturn u hu hp, (hpow u p).trans hp⟩)
    (fun u n _ ⟨hu, hp⟩ => ⟨?after, (hpow u n).trans hp⟩)).1
  case before =>
    by_cases hn : p = n
    · rw [← hn, hturn u hu hp]
    · rw [hother u hn]; exact hu
  case after =>
    by_cases hn : p = n
    · rw [← hn]; exact hturn u (by rw [hu]) hp
    · rw [hother u hn]; exact hu

theorem resetReady_of_warm {s : State} (he : resetMayEnd s = true) (hw : s.power.warm = true) :
    resetReady s = modPower s (fun p => { p with ready := true, step := 0, warm := false }) := by
  simp only [resetReady, he, hw, if_true]

/-- The state of a cold reset that ends with no repair found, before its ports train. -/
def rebuildsDeclared (s : State) : State :=
  modSpare (modPower s (fun p => { p with ready := true, step := 0, warm := false })) (fun z => { z with repairs := z.repairs ++ rebuildsDue s })

theorem resetReady_of_cold {s : State} (he : resetMayEnd s = true) (hw : s.power.warm = false) (hr : s.spare.repairs = []) :
    resetReady s = enablePorts (rebuildsDeclared s) := by
  simp only [resetReady, he, hw, hr, if_true, if_false, Bool.false_eq_true, List.length_nil]
  rfl

/-- Settles O50: each cause begins a cold or a warm reset, whose states are said once, and READY ends it. -/
theorem resets : Obligations.Resets := by
  unfold Obligations.Resets
  intro b v mgrSel wid s x
  refine ⟨fun h => ?release, fun h => ?assert, ?removed, fun hb hk hc => ?cold, fun hb hk hc hw hr => ?warm, fun hb hk => ?wrongKey,
    fun hr => ⟨?functionLevel, ?perst⟩, fun he hw => ?readyWarm, fun he hw hr => ?readyCold⟩
  case release => exact ⟨_, congrArg Host.Outcome.next (resetRelease_of_low h mgrSel wid), coldReset_starts 0 (modPower s _), rfl, rfl, rfl, rfl, rfl⟩
  case assert => exact ⟨_, congrArg Host.Outcome.next (resetAssert_of_high h), coldReset_starts 0 (modPower s _), rfl, rfl, rfl⟩
  case removed => exact ⟨_, rfl, coldReset_starts 0 (modPower s _), rfl, rfl, rfl, rfl⟩
  case cold =>
    exact ⟨_, congrArg Host.Outcome.next ((barWrite_of_served hb _).trans (pwrResetWrite_cold hk hc _)), coldReset_starts 1 (written s),
      rfl, rfl, rfl⟩
  case warm =>
    exact ⟨_, congrArg Host.Outcome.next ((barWrite_of_served hb _).trans (pwrResetWrite_warm hk hc hw _)),
      warmReset_starts (s := written s) hr causeWarm⟩
  case wrongKey =>
    have hnone : barWrite b (pwrResetWrite x) s = written s := (barWrite_of_served hb _).trans (pwrResetWrite_wrongKey hk (written s))
    exact ⟨congrArg Host.Outcome.next hnone, congrArg Host.Outcome.next hnone⟩
  case functionLevel => exact ⟨_, rfl, warmReset_starts hr causeFlr⟩
  case perst => exact ⟨_, rfl, warmReset_starts (s := pcieDown s) hr causePerst⟩
  case readyWarm => exact congrArg Host.Outcome.next (resetReady_of_warm he hw)
  case readyCold =>
    refine ⟨_, congrArg Host.Outcome.next (resetReady_of_cold he hw hr), enablePorts_keeps State.power (fun _ _ _ => rfl) _,
      fun p hen hruns => portAt_enablePorts (s := rebuildsDeclared s) hen hruns, ?_, enablePorts_keeps State.cores (fun _ _ _ => rfl) _,
      enablePorts_keeps State.dram (fun _ _ _ => rfl) _⟩
    rw [enablePorts_keeps (fun u => u.spare.repairs) fun _ _ _ => rfl]
    show s.spare.repairs ++ rebuildsDue s = _
    rw [hr, List.nil_append]

end Sys2Proof.Machine

/-! SUPPORT. A job table with two entries of one index, where a job that retires FENCED ends CANCELLED (R260, R265). -/

namespace Sys2Proof.Machine

/-- A reset state whose job table holds two entries of index 0: the first, which `jobAt` reads, is FENCING; the second waits for
job 0, so job 0 stands among its own successors. -/
def doubleEntry : State :=
  { State.reset with jobs := [(0, { freeJob with state := .fencing }), (0, { freeJob with state := .waiting, preds := [0] })] }

/-- An image with no section; the clause that fails does not read it. -/
def emptyImage : Image :=
  { addr := 0, len := 0, profile := 0, cores := 0, engines := 0, coreMap := [], windows := [], sections := [] }

/-- Retired FENCED, job 0 cancels its successors, and with them itself. -/
theorem state_jobFenced_doubleEntry {t : State} (ht : exec (.jobFenced 0) doubleEntry = .next t) : (jobAt t 0).state = .cancelled := by
  injection ht with ht
  rw [← ht]
  decide

/-- Refutes O32: the statement ranges over every job table, and in one that holds two entries of job 0 (`doubleEntry`), FENCING in
the first and WAITING for job 0 in the second, the job that retires ends CANCELLED. -/
theorem not_jobLifeCycle : ¬ Obligations.JobLifeCycle := by
  unfold Obligations.JobLifeCycle
  intro h
  obtain ⟨-, -, hfenced⟩ := h doubleEntry 0 emptyImage
  obtain ⟨t, ht, hstate, -⟩ := hfenced rfl
  rw [state_jobFenced_doubleEntry ht] at hstate
  exact absurd hstate (by decide)

end Sys2Proof.Machine

/-! SUPPORT. The stops of a job's cores at an armed tick, and the STOPPED job (R283, R284). -/

namespace Sys2Proof.Machine

/-! ### Turns that stop cores -/

/-- A core's turn in a stop: it stops, or nothing happens. -/
def StopsOrLeaves (f : State → CoreId → State) : Prop := ∀ u c, f u c = stopCore c u ∨ f u c = u

theorem stopsOrLeaves_ite {b : State → CoreId → Bool} : StopsOrLeaves fun u c => if b u c then stopCore c u else u :=
  fun u c => by
    by_cases h : b u c = true
    · exact .inl (if_pos h)
    · exact .inr (if_neg h)

/-- A stopped core stays stopped in its own and every other core's turn. -/
theorem StopsOrLeaves.run_stopped {f : State → CoreId → State} (hf : StopsOrLeaves f) {c : CoreId} {u : State} (d : CoreId)
    (h : (coreAt u c).seq.run = .stopped) : (coreAt (f u d) c).seq.run = .stopped := by
  rcases hf u d with e | e <;> rw [e]
  · by_cases hcd : c = d
    · rw [hcd]; exact run_stopCore d u
    · rw [coreAt_stopCore_ne u hcd]; exact h
  · exact h

/-- Another core's turn leaves a core as it is. -/
theorem StopsOrLeaves.coreAt_ne {f : State → CoreId → State} (hf : StopsOrLeaves f) {c d : CoreId} (u : State) (h : c ≠ d) :
    coreAt (f u d) c = coreAt u c := by
  rcases hf u d with e | e <;> rw [e]
  exact coreAt_stopCore_ne u h

/-- A stop changes no field of a region but its waits and held work. -/
theorem regionAt_stopCore_keeps {γ : Type} (p : Region → γ) (h : ∀ g ws os, p { g with waits := ws, heldOps := os } = p g)
    (r : RegionId) (c : CoreId) (s : State) : p (regionAt (stopCore c s) r) = p (regionAt s r) := by
  rw [stopCore]
  by_cases hr : r = regionOf c
  · rw [hr, regionAt_modRegion, h, regionAt_modCore]
  · rw [regionAt_modRegion_ne _ _ _ _ hr, regionAt_modCore]

/-! ### The match fires -/

/-- The state as a region's match fires, before its cores stop: EN clear, FIRED set, the debug trigger driven (R283, R374). -/
def fired (r : RegionId) (s : State) : State :=
  modRegion { s with power := { s.power with auxPulse := if s.power.auxDbg && decide (s.power.auxPulse = 0) then 100 else s.power.auxPulse } } r
    fun g => { g with stopEn := false, stopFired := true }

/-- A core's turn as the match of job `n` fires. -/
def fireTurn (n : Nat) (u : State) (c : CoreId) : State :=
  if (match (coreAt u c).seq.job with | some j => decide (j.val = n) | none => false) && decide ((coreAt u c).seq.run = .running) &&
    !partOver (coreAt u c).seq then stopCore c u else u

theorem fireTurn_stopsOrLeaves (n : Nat) : StopsOrLeaves (fireTurn n) := stopsOrLeaves_ite

theorem fireTurn_of_member {n : Nat} {u : State} {c : CoreId} {i : JobId} (hjob : (coreAt u c).seq.job = some i) (hn : i.val = n)
    (hrun : (coreAt u c).seq.run = .running) (hpart : partOver (coreAt u c).seq = false) : fireTurn n u c = stopCore c u :=
  if_pos (by simp [hjob, hrun, hpart, hn])

theorem stopFire_of_match {r : RegionId} {s : State} (h : stopMatches s r = true) :
    stopFire r s = (coresOf r).foldl (fireTurn (regionAt s r).stopJob.toNat) (fired r s) := if_pos h

/-- Every running member core in the region whose part is not over stops as the match fires (R283). -/
theorem run_stopFire {r : RegionId} {c : CoreId} {i : JobId} {s : State} (h : stopMatches s r = true) (hc : regionOf c = r)
    (hrun : (coreAt s c).seq.run = .running) (hpart : partOver (coreAt s c).seq = false) (hjob : (coreAt s c).seq.job = some i)
    (hn : i.val = (regionAt s r).stopJob.toNat) : (coreAt (stopFire r s) c).seq.run = .stopped := by
  have hf := fireTurn_stopsOrLeaves (regionAt s r).stopJob.toNat
  rw [stopFire_of_match h]
  have hown (u : State) (hu : coreAt u c = coreAt s c ∨ (coreAt u c).seq.run = .stopped) :
      (coreAt (fireTurn (regionAt s r).stopJob.toNat u c) c).seq.run = .stopped := by
    rcases hu with hu | hu
    · rw [fireTurn_of_member (hu.symm ▸ hjob) hn (hu.symm ▸ hrun) (hu.symm ▸ hpart)]
      exact run_stopCore c u
    · exact hf.run_stopped c hu
  refine foldl_reaches (inv := fun u => coreAt u c = coreAt s c ∨ (coreAt u c).seq.run = .stopped)
    (done := fun u => (coreAt u c).seq.run = .stopped) (mem_coresOf.2 hc) (.inl rfl) (fun u d _ hu => ?_) hown
    (fun u d _ => hf.run_stopped d)
  by_cases hcd : c = d
  · exact .inr (hcd ▸ hown u hu)
  · rw [hf.coreAt_ne u hcd]
    exact hu

/-! ### The Landing's part -/

/-- After the match has fired the Landing stops members of one job, or none (R283). -/
theorem stopAtMatch_cases (r : RegionId) (s : State) :
    (∃ j p, stopAtMatch r s = stopMembers j p (stopFire r s)) ∨ stopAtMatch r s = stopFire r s := by
  simp only [stopAtMatch]
  split
  · exact .inl ⟨_, _, rfl⟩
  · exact .inr rfl

/-- What the stop of any core keeps is as the match left it. -/
theorem stopAtMatch_keeps {γ : Type} (q : State → γ) (h : ∀ c u, q (stopCore c u) = q u) {r : RegionId} {s : State}
    (hm : stopMatches s r = true) : q (stopAtMatch r s) = q (fired r s) := by
  have hfire : q (stopFire r s) = q (fired r s) := by
    rw [stopFire_of_match hm]
    refine foldl_keeps q _ (fun u c => ?_) _ _
    rcases fireTurn_stopsOrLeaves _ u c with e | e <;> rw [e]
    exact h c u
  rcases stopAtMatch_cases r s with ⟨j, p, e⟩ | e <;> rw [e]
  · exact (stopMembers_keeps q h j p _).trans hfire
  · exact hfire

/-- A core that stops with the match stays stopped. -/
theorem run_stopAtMatch {r : RegionId} {c : CoreId} {s : State} (h : (coreAt (stopFire r s) c).seq.run = .stopped) :
    (coreAt (stopAtMatch r s) c).seq.run = .stopped := by
  rcases stopAtMatch_cases r s with ⟨j, p, e⟩ | e <;> rw [e]
  · have hf : StopsOrLeaves (stopTurn p) := stopsOrLeaves_ite
    exact List.foldlRecOn (motive := fun u => (coreAt u c).seq.run = .stopped) _ _ h fun u hu d _ => hf.run_stopped d hu
  · exact h

/-- A field of the region that a stop keeps is as the match left it. -/
theorem regionAt_stopAtMatch {γ : Type} (p : Region → γ) (h : ∀ g ws os, p { g with waits := ws, heldOps := os } = p g)
    {r : RegionId} {s : State} (hm : stopMatches s r = true) :
    p (regionAt (stopAtMatch r s) r) = p { regionAt s r with stopEn := false, stopFired := true } :=
  (stopAtMatch_keeps (fun u => p (regionAt u r)) (fun c u => regionAt_stopCore_keeps p h r c u) hm).trans
    (congrArg p (regionAt_modRegion ..))

/-- A running job some of whose members have their part before them, and all of those stopped, becomes STOPPED (R267, R283). -/
theorem jobStopped_of_standing {j : JobId} {s : State} (hj : (jobAt s j).state = .running)
    (hsome : ∃ c ∈ membersOf s j, partOver (coreAt s c).seq = false)
    (hall : ∀ c ∈ membersOf s j, partOver (coreAt s c).seq = true ∨ (coreAt s c).seq.run = .stopped) :
    jobStopped j s = answer (.fence j) .ok 0 (modJob s j fun b => { b with state := .stopped }) := by
  obtain ⟨c, hc, hpart⟩ := hsome
  have hne : (membersOf s j).filter (fun c => !partOver (coreAt s c).seq) ≠ [] :=
    List.ne_nil_of_mem (List.mem_filter.2 ⟨hc, by rw [hpart]; rfl⟩)
  refine if_pos ⟨hj, hne, List.all_eq_true.2 fun d hd => ?_⟩
  obtain ⟨hmem, hopen⟩ := List.mem_filter.1 hd
  rw [(hall d hmem).resolve_left (by simpa using hopen)]
  rfl

/-- Settles O31: the match's own cores stop in its region, whatever the Landing stops after, and the change of the job's entry is
followed by replies alone. -/
theorem jobStops : Obligations.JobStops := by
  unfold Obligations.JobStops
  intro s r j
  refine ⟨fun hm => ⟨stopAtMatch r s, rfl, ?_, ?_, ?_, ?_, ?_, ?_⟩, fun hj hsome hall => ?_⟩
  · exact regionAt_stopAtMatch Region.stopFired (fun _ _ _ => rfl) hm
  · exact regionAt_stopAtMatch Region.stopEn (fun _ _ _ => rfl) hm
  · exact regionAt_stopAtMatch Region.tick (fun _ _ _ => rfl) hm
  · rintro c hc hrun hpart ⟨i, hjob, hi⟩
    exact run_stopAtMatch (run_stopFire hm hc hrun hpart hjob hi)
  · exact stopAtMatch_keeps State.jobs (fun _ _ => rfl) hm
  · exact stopAtMatch_keeps State.dram (fun _ _ => rfl) hm
  · refine ⟨_, congrArg Host.Outcome.next (jobStopped_of_standing hj hsome hall), ?_, fun i hi => ?_, ?_, ?_⟩
    · exact (jobAt_answer ..).trans (jobAt_modJob s j (fun b => { b with state := .stopped }) nofun)
    · rw [jobAt_answer, jobAt_modJob_ne s j i _ hi]
    · rw [answer_cores]; rfl
    · rw [answer_keeps State.regions fun _ _ => rfl]; rfl

end Sys2Proof.Machine

/-! SUPPORT. A check of the firmware image that a lost reference cuts short (R354, R359). -/

namespace Sys2Proof.Machine

/-- With the sequence of a reset stopped, the check of the image does not go on (R354). -/
theorem bootCheck_of_refStop {s : State} (h : s.power.refStop = true) : bootCheck s = s :=
  if_neg fun hc => Bool.false_ne_true (hc.2.symm.trans h)

/-- A cold reset in which software has written GO for an image of length 0 and the reference is then lost. -/
def checkCutShort : State := refLost (bootCtlWrite 1 State.reset)

/-- The image is under check and fails the first one, and the sequence of the reset has stopped. -/
theorem checkCutShort_checks :
    checkCutShort.ident.bootState = 1 ∧ imageReason checkCutShort.ident = 1 ∧ checkCutShort.power.refStop = true := by
  decide

/-- Refutes O51: its first clause has the check of a staged image end at once, and where the reference has been lost in the reset
(`checkCutShort`) the model keeps the image under check, as R354 stops the sequence. -/
theorem not_trustLifeCycleAndDigests : ¬ Obligations.TrustLifeCycleAndDigests := by
  unfold Obligations.TrustLifeCycleAndDigests
  intro h
  obtain ⟨hchecks, hreason, hstop⟩ := checkCutShort_checks
  obtain ⟨hcheck, -⟩ := h { lanes := .all, keyed := false, poisoned := false } 0 { items := 0, cores := 0, ranges := [] } .ok checkCutShort
  have hkept : exec .bootImageCheck checkCutShort = .next checkCutShort := congrArg Host.Outcome.next (bootCheck_of_refStop hstop)
  have hsame := hkept.symm.trans (hcheck hchecks)
  rw [if_neg (by rw [hreason]; decide)] at hsame
  injection hsame with hstate
  have hboot : checkCutShort.ident.bootState = 3 := congrArg (fun t => t.ident.bootState) hstate
  exact absurd (hchecks.symm.trans hboot) (by decide)

end Sys2Proof.Machine
/-! SUPPORT. The queue of commands: no function of the model changes it, and a step takes its front command away. -/

namespace Sys2Proof.Machine

/-- A fold whose every turn leaves the queue leaves it. -/
theorem foldl_pending {α : Type} {f : State → α → State} (h : ∀ u a, (f u a).pending = u.pending) (l : List α) (s : State) :
    (l.foldl f s).pending = s.pending := foldl_keeps State.pending f h l s

/-! ### Holds -/

@[simp] theorem modSeq_pending (s : State) (c : CoreId) (f : Seq → Seq) : (modSeq s c f).pending = s.pending := rfl
@[simp] theorem modJob_pending (s : State) (j : JobId) (f : Job → Job) : (modJob s j f).pending = s.pending := rfl

@[simp] theorem raiseFault_pending (c : CoreId) (rank : Nat) (i : FaultInfo) (s : State) :
    (raiseFault c rank i s).pending = s.pending := rfl

@[simp] theorem fenceReported_pending (j : JobId) (fs : List FaultRec) (s : State) : (fenceReported j fs s).pending = s.pending := by
  unfold fenceReported
  split <;> simp [fenceJob_pending]

@[simp] theorem countHolds_pending (r : RegionId) (events ticks : Nat) (s : State) :
    (countHolds r events ticks s).pending = s.pending := by
  unfold countHolds
  refine foldl_pending (fun _ _ => ?_) _ _
  simp

@[simp] theorem holdBegin_pending (r : RegionId) (ws : List HoldCond) (s0 : State) : (holdBegin r ws s0).pending = s0.pending := by
  unfold holdBegin
  split <;> simp

@[simp] theorem holdEnd_pending (r : RegionId) (s : State) : (holdEnd r s).pending = s.pending := rfl

/-! ### Flits -/

@[simp] theorem flmError_pending (c : CoreId) (d : Dir) (crc : Bool) (s : State) : (flmError c d crc s).pending = s.pending := rfl

@[simp] theorem ringPut_pending (c : CoreId) (d : Dir) (f : Flit) (issued : Nat) (s : State) :
    (ringPut c d f issued s).pending = s.pending := by
  unfold ringPut
  split <;> simp

@[simp] theorem injectFlit_pending (c : CoreId) (d : Dir) (f : Flit) (issued : Nat) (s : State) :
    (injectFlit c d f issued s).pending = s.pending := by
  unfold injectFlit
  simp

@[simp] theorem captureFlit_pending (c : CoreId) (d : Dir) (issued : Nat) (s : State) :
    (captureFlit c d issued s).1.pending = s.pending := by
  unfold captureFlit
  (repeat' split) <;> simp

@[simp] theorem fxinTake_pending (c : CoreId) (d : Dir) (issued : Nat) (s : State) : (fxinTake c d issued s).pending = s.pending := by
  unfold fxinTake
  dsimp only
  (repeat' split) <;> simp

@[simp] theorem autoForward_pending (r : RegionId) (d : Dir) (s : State) : (autoForward r d s).pending = s.pending := by
  unfold autoForward
  (repeat' split) <;> simp [fenceJob_pending]

@[simp] theorem exitWrite_pending (r : RegionId) (d : Dir) (s : State) : (exitWrite r d s).pending = s.pending := by
  unfold exitWrite
  split <;> simp

@[simp] theorem ringHop_pending (r : RegionId) (s : State) : (ringHop r s).pending = s.pending := rfl

@[simp] theorem removeFlits_pending (j : JobId) (s : State) : (removeFlits j s).pending = s.pending := by
  unfold removeFlits
  dsimp only
  rw [foldl_pending (fun _ _ => modRegion_pending ..), foldl_pending (fun _ _ => modCore_pending ..)]

/-! ### Memory pieces -/

@[simp] theorem queuePieces_pending (ps : List (Fin 8 × Piece)) (s : State) : (queuePieces ps s).pending = s.pending := by
  unfold queuePieces
  refine foldl_pending (fun _ _ => ?_) _ _
  simp

/-! ### The Skidder -/

@[simp] theorem skdFault_pending (c : CoreId) (q : QId) (i : FaultInfo) (s : State) : (skdFault c q i s).pending = s.pending := by
  unfold skdFault
  split <;> simp [fenceJob_pending]

@[simp] theorem issueTransfer_pending (c : CoreId) (s : State) : (issueTransfer c s).pending = s.pending := by
  unfold issueTransfer
  split <;> simp

@[simp] theorem requestPass_pending (c : CoreId) (s : State) : (requestPass c s).pending = s.pending := by
  unfold requestPass
  split <;> simp

@[simp] theorem landReturn_pending (c : CoreId) (qi : QId) (id : Nat) (s : State) : (landReturn c qi id s).pending = s.pending := by
  unfold landReturn
  dsimp only
  (repeat' split) <;> simp

@[simp] theorem acceptWrite_pending (c : CoreId) (qi : QId) (id : Nat) (s : State) : (acceptWrite c qi id s).pending = s.pending := by
  unfold acceptWrite
  dsimp only
  (repeat' split) <;> simp

@[simp] theorem startDesc_pending (c : CoreId) (qi : QId) (s : State) : (startDesc c qi s).pending = s.pending := by
  unfold startDesc
  dsimp only
  (repeat' split) <;> simp

@[simp] theorem takeHandle_pending (c : CoreId) (qi : QId) (s : State) : (takeHandle c qi s).pending = s.pending := by
  unfold takeHandle
  dsimp only
  (repeat' split) <;> simp

@[simp] theorem takeIndex_pending (c : CoreId) (qi : QId) (s : State) : (takeIndex c qi s).pending = s.pending := by
  unfold takeIndex
  dsimp only
  (repeat' split) <;> simp

@[simp] theorem pushBout_pending (c : CoreId) (qi : QId) (s : State) : (pushBout c qi s).pending = s.pending := by
  unfold pushBout
  dsimp only
  (repeat' split) <;> simp

@[simp] theorem stallNote_pending (c : CoreId) (qi : QId) (b : BitVec 3 × BitVec 4) (s : State) :
    (stallNote c qi b s).pending = s.pending := rfl

@[simp] theorem creditFire_pending (c : CoreId) (qi : QId) (s : State) : (creditFire c qi s).pending = s.pending := by
  unfold creditFire
  dsimp only
  (repeat' split) <;> simp

/-! ### Channels -/

@[simp] theorem setEp_pending (c : CoreId) (e : Fin 32) (f : Endpoint → Endpoint) (s : State) : (setEp c e f s).pending = s.pending := rfl

@[simp] theorem sendItem_pending (c : CoreId) (e : Fin 32) (w : BitVec 29) (gen : BitVec 4) (kind : ChMsgKind) (s : State) :
    (sendItem c e w gen kind s).pending = s.pending := by
  unfold sendItem
  dsimp only
  (repeat' split) <;> simp

@[simp] theorem lanePass_pending (b : RegionId) (d : Dir) (q : RegionId) (s : State) : (lanePass b d q s).pending = s.pending := by
  unfold lanePass
  dsimp only
  (repeat' split) <;> simp

@[simp] theorem lanePeriod_pending (b : RegionId) (s : State) : (lanePeriod b s).pending = s.pending := by
  unfold lanePeriod
  refine foldl_pending (fun _ _ => ?_) _ _
  simp

@[simp] theorem settle_pending (m : ChMsg) (s : State) : (settle m s).pending = s.pending := rfl

@[simp] theorem sendCredit_pending (c : CoreId) (e : Fin 32) (n : Nat) (s : State) : (sendCredit c e n s).pending = s.pending := by
  unfold sendCredit
  simp

@[simp] theorem drainHeld_pending (c : CoreId) (e : Fin 32) (n : Nat) (s : State) : (drainHeld c e n s).pending = s.pending := by
  induction n generalizing s with
  | zero => rfl
  | succ n ih =>
    unfold drainHeld
    dsimp only
    split
    · rfl
    · split
      · rw [ih]
        split <;> split <;> simp
      · rfl

@[simp] theorem arriveMessage_pending (c : CoreId) (e : Fin 32) (m : ChMsg) (d : Desc) (s : State) :
    (arriveMessage c e m d s).pending = s.pending := by
  unfold arriveMessage
  dsimp only
  (repeat' split) <;> simp

@[simp] theorem discardAt_pending (c : CoreId) (e : Fin 32) (s : State) : (discardAt c e s).pending = s.pending := by
  unfold discardAt
  dsimp only
  split <;> simp

@[simp] theorem arrive_pending (c : CoreId) (e : Fin 32) (m : ChMsg) (s : State) : (arrive c e m s).pending = s.pending := by
  unfold arrive
  dsimp only
  (repeat' split) <;> simp

@[simp] theorem arriveKind_pending (kind : ChMsgKind → Bool) (c : CoreId) (e : Fin 32) (s : State) :
    (arriveKind kind c e s).pending = s.pending := by
  unfold arriveKind
  split <;> simp

@[simp] theorem arriveDue_pending (c : CoreId) (e : Fin 32) (n : Nat) (s : State) : (arriveDue c e n s).pending = s.pending := by
  induction n generalizing s with
  | zero => rfl
  | succ n ih =>
    unfold arriveDue
    split
    · simp
    · rw [ih]; simp

@[simp] theorem channelTick_pending (c : CoreId) (s : State) : (channelTick c s).pending = s.pending := by
  unfold channelTick
  refine foldl_pending (fun _ _ => ?_) _ _
  simp

@[simp] theorem closeEp_pending (c : CoreId) (e : Fin 32) (s : State) : (closeEp c e s).pending = s.pending := by
  unfold closeEp
  dsimp only
  split
  · split
    · rw [foldl_pending (fun _ _ => sendItem_pending ..)]; simp
    · rfl
  · rfl

@[simp] theorem closeAll_pending (c : CoreId) (s : State) : (closeAll c s).pending = s.pending := by
  unfold closeAll
  refine foldl_pending (fun _ _ => ?_) _ _
  simp

@[simp] theorem openEp_pending (c : CoreId) (e : Fin 32) (w : BitVec 29) (s : State) : (openEp c e w s).pending = s.pending := rfl

@[simp] theorem openCredits_pending (c : CoreId) (e : Fin 32) (w : BitVec 29) (s : State) :
    (openCredits c e w s).pending = s.pending := by
  unfold openCredits
  split <;> simp

@[simp] theorem csendStep_pending (c : CoreId) (e : Fin 32) (issued : Nat) (s : State) :
    (csendStep c e issued s).pending = s.pending := by
  unfold csendStep
  dsimp only
  (repeat' split) <;> simp

/-! ### Combining queues -/

@[simp] theorem combFault_pending (c : CoreId) (q : Fin 8) (st : Status) (s : State) : (combFault c q st s).pending = s.pending := by
  unfold combFault
  split <;> simp

@[simp] theorem combineNarrow_pending (c : CoreId) (q : Fin 8) (s : State) : (combineNarrow c q s).pending = s.pending := by
  unfold combineNarrow
  dsimp only
  (repeat' split) <;> simp

@[simp] theorem combineWideRow_pending (c : CoreId) (q : Fin 8) (s : State) : (combineWideRow c q s).pending = s.pending := by
  unfold combineWideRow
  dsimp only
  (repeat' split) <;> simp

@[simp] theorem combineWideRows_pending (n : Nat) (c : CoreId) (q : Fin 8) (s : State) :
    (combineWideRows n c q s).pending = s.pending := by
  induction n generalizing s with
  | zero => rfl
  | succ n ih =>
    unfold combineWideRows
    split
    · simp [ih]
    · rfl

@[simp] theorem combineWide_pending (c : CoreId) (q : Fin 8) (s : State) : (combineWide c q s).pending = s.pending := by
  unfold combineWide
  split <;> simp

@[simp] theorem combTick_pending (c : CoreId) (s : State) : (combTick c s).pending = s.pending := by
  unfold combTick
  refine foldl_pending (fun _ _ => ?_) _ _
  split <;> simp

@[simp] theorem combCommand_pending (c : CoreId) (f : State → State) (s : State) (h : ∀ u, (f u).pending = u.pending) :
    (combCommand c f s).pending = s.pending := by
  unfold combCommand
  split <;> simp [settleFaults_pending, h]

/-! ### Registers of a core -/

@[simp] theorem coreSoftWrite_pending (c : CoreId) (r : CoreReg) (v : Nat) (s : State) : (coreSoftWrite c r v s).pending = s.pending := by
  unfold coreSoftWrite
  dsimp only
  (repeat' split) <;> simp

/-! ### Layers and parts -/

@[simp] theorem writeSpans_pending (s : State) (c : CoreId) : (writeSpans s c).pending = s.pending := by
  unfold writeSpans
  split <;> simp

@[simp] theorem startApply_pending (c : CoreId) (rec_ : CfgRecord) (s : State) : (startApply c rec_ s).pending = s.pending := by
  unfold startApply
  dsimp only
  split <;> simp

@[simp] theorem layerStart_pending (c : CoreId) (s : State) : (layerStart c s).pending = s.pending := by
  unfold layerStart
  (repeat' split) <;> simp

@[simp] theorem pushRecord_pending (c : CoreId) (rec_ : CfgRecord) (s : State) : (pushRecord c rec_ s).pending = s.pending := rfl

@[simp] theorem mgtTake_pending (m : MgtMsg) (s : State) : (mgtTake m s).pending = s.pending := by
  unfold mgtTake
  split <;> simp

@[simp] theorem mgtArrive_pending (r : RegionId) (s : State) : (mgtArrive r s).pending = s.pending := by
  unfold mgtArrive
  refine foldl_pending (fun _ _ => ?_) _ _
  simp

@[simp] theorem recordPush_pending (c : CoreId) (s : State) : (recordPush c s).pending = s.pending := by
  unfold recordPush
  dsimp only
  (repeat' split) <;> simp

@[simp] theorem partEnds_pending (c : CoreId) (s : State) : (partEnds c s).pending = s.pending :=
  (modCore_pending ..).trans (closeAll_pending ..)

@[simp] theorem coreComplete_pending (c : CoreId) (s : State) : (coreComplete c s).pending = s.pending := by
  unfold coreComplete
  dsimp only
  (repeat' split) <;> simp

/-! ### Results and operations in progress -/

@[simp] theorem applyPend_pending (c : CoreId) (p : Pend) (s : State) : (applyPend c p s).pending = s.pending := by
  unfold applyPend
  (repeat' split) <;> simp

@[simp] theorem settlePends_pending (want : Eff → Bool) (c : CoreId) (t : Nat) (s : State) :
    (settlePends want c t s).pending = s.pending := by
  unfold settlePends
  refine foldl_pending (fun _ _ => ?_) _ _
  simp

@[simp] theorem bankReads_pending (c : CoreId) (t : Nat) (s : State) : (bankReads c t s).pending = s.pending := rfl

@[simp] theorem captureStep_pending (c : CoreId) (d : Dir) (o : Strm) (f : Core → Strm → Core) (s : State) :
    (captureStep c d o f s).pending = s.pending := by
  have h := captureFlit_pending c d o.issued s
  unfold captureStep
  split <;> rename_i e <;> rw [e] at h <;> simpa using h

@[simp] theorem opRun_pending (c : CoreId) (o : Strm) (t : Nat) (s : State) : (opRun c o t s).pending = s.pending := by
  unfold opRun
  (repeat' split) <;> simp

@[simp] theorem opAdvance_pending (c : CoreId) (o : Strm) (s : State) : (opAdvance c o s).pending = s.pending := rfl
@[simp] theorem addWait_pending (r : RegionId) (h : HoldCond) (s : State) : (addWait r h s).pending = s.pending := rfl

@[simp] theorem opStep_pending (c : CoreId) (o : Strm) (t : Nat) (found : Vector Tile 32) (s : State) :
    (opStep c o t found s).pending = s.pending := by
  unfold opStep
  simp

@[simp] theorem runOps_pending (want : Instr → Bool) (c : CoreId) (t : Nat) (found : Vector Tile 32) (s : State) :
    (runOps want c t found s).pending = s.pending := by
  unfold runOps
  refine foldl_pending (fun _ _ => ?_) _ _
  split <;> simp

@[simp] theorem runLate_pending (c : CoreId) (t : Nat) (s : State) : (runLate c t s).pending = s.pending := by
  refine foldl_pending (fun u p => ?_) _ _
  dsimp only
  (repeat' split) <;> simp

/-! ### Ticks, holds and the steps of units -/

@[simp] theorem startOfTick_pending (c : CoreId) (t : Nat) (s : State) : (startOfTick c t s).pending = s.pending := by
  unfold startOfTick
  split <;> simp

theorem effect_pending {i : Instr} {x : Issue} (hx : issueOf i = some x) (s : State) : (x.effect s).pending = s.pending := by
  rcases issueOf_effect hx s with ⟨k, h⟩ | ⟨e, w, k, h⟩ | ⟨e, n, k, h⟩ <;> rw [h] <;> simp

@[simp] theorem issueOps_pending (c : CoreId) (l : List (Nat × Instr)) (s : State) : (issueOps c l s).pending = s.pending := by
  induction l generalizing s with
  | nil => rfl
  | cons a rest ih =>
    unfold issueOps
    split
    · exact ih _
    · rename_i x hx
      split
      · rw [ih]; simp
      · split
        · rw [ih]; simp
        · rw [ih, effect_pending hx]

@[simp] theorem issueBundle_pending (mask : List CoreId) (c : CoreId) (s : State) : (issueBundle mask c s).pending = s.pending := by
  unfold issueBundle
  dsimp only
  (repeat' split) <;> simp

@[simp] theorem startPhase_pending (mask : List CoreId) (c : CoreId) (s : State) : (startPhase mask c s).pending = s.pending := by
  unfold startPhase
  (repeat' split) <;> simp

@[simp] theorem corePhase_pending (want : Instr → Bool) (c : CoreId) (t : Nat) (found : Vector Tile 32) (s : State) :
    (corePhase want c t found s).pending = s.pending := by
  unfold corePhase
  split <;> simp

@[simp] theorem exitPhase_pending (r : RegionId) (d : Dir) (s : State) : (exitPhase r d s).pending = s.pending := by
  unfold exitPhase
  (repeat' split) <;> simp

@[simp] theorem endOfTick_pending (c : CoreId) (t : Nat) (s : State) : (endOfTick c t s).pending = s.pending := by
  unfold endOfTick
  split <;> simp

@[simp] theorem regionPeriod_pending (r : RegionId) (s : State) : (regionPeriod r s).pending = s.pending := by
  unfold regionPeriod
  rw [foldl_pending (fun _ _ => (requestPass_pending ..).trans (modCore_pending ..)), lanePeriod_pending, modRegion_pending]

@[simp] theorem tickBody_pending (mask : List CoreId) (bad : List BadRead) (r : RegionId) (s : State) :
    (tickBody mask bad r s).pending = s.pending := by
  have hfold {α : Type} (f : State → α → State) (h : ∀ u a, (f u a).pending = u.pending) (l : List α) (u : State) :
      (l.foldl f u).pending = u.pending := foldl_keeps State.pending f h l u
  unfold tickBody
  dsimp only
  rw [autoForward_pending, autoForward_pending, exitPhase_pending, exitPhase_pending]
  rw [hfold _ (fun u c => combTick_pending c u), hfold _ (fun _ _ => corePhase_pending ..)]
  rw [hfold _ (fun u c => by split <;> simp), hfold _ (fun _ _ => corePhase_pending ..)]
  rw [hfold _ (fun _ _ => fxinTake_pending ..), hfold _ (fun _ _ => issueBundle_pending ..)]
  rw [hfold _ (fun _ _ => startPhase_pending ..), hfold _ (fun _ _ => startOfTick_pending ..)]
  exact mgtArrive_pending ..

@[simp] theorem tickEnd_pending (r : RegionId) (s : State) : (tickEnd r s).pending = s.pending := by
  unfold tickEnd
  rw [foldl_pending (fun _ _ => (endOfTick_pending ..).trans (modCore_pending ..)), regionPeriod_pending, modRegion_pending,
    ringHop_pending]

@[simp] theorem stopCore_pending (c : CoreId) (s : State) : (stopCore c s).pending = s.pending := rfl

@[simp] theorem resumeCore_pending (c : CoreId) (s : State) : (resumeCore c s).pending = s.pending := by
  unfold resumeCore
  dsimp only
  split <;> simp

@[simp] theorem stopFire_pending (r : RegionId) (s : State) : (stopFire r s).pending = s.pending := by
  unfold stopFire
  split
  · exact (foldl_pending (fun u c => by dsimp only; (repeat' split) <;> simp) _ _).trans rfl
  · rfl

@[simp] theorem heldPeriod_pending (r : RegionId) (s : State) : (heldPeriod r s).pending = s.pending := by
  unfold heldPeriod
  rw [modRegion_pending, countHolds_pending, regionPeriod_pending]

@[simp] theorem holdOver_pending (r : RegionId) (s : State) : (holdOver r s).pending = s.pending := by
  unfold holdOver
  (repeat' split) <;> simp

@[simp] theorem keepFlmErr_pending (s1 : State) (c : CoreId) (s : State) : (keepFlmErr s1 c s).pending = s.pending := rfl

@[simp] theorem tickCommit_pending (r : RegionId) (s s1 : State) (h : s1.pending = s.pending) :
    (tickCommit r s s1).pending = s.pending := by
  unfold tickCommit
  dsimp only
  rw [stopFire_pending, tickEnd_pending, settleFaults_pending, modRegion_pending]
  split
  · exact h
  · rw [foldl_pending (fun _ _ => keepFlmErr_pending ..), tickBody_pending]

@[simp] theorem sleepPeriod_pending (r : RegionId) (s : State) : (sleepPeriod r s).pending = s.pending := by
  unfold sleepPeriod
  rw [lanePeriod_pending, ringHop_pending, autoForward_pending, autoForward_pending, exitPhase_pending, exitPhase_pending]

@[simp] theorem storeErrors_pending (r : RegionId) (errs : List StoreError) (s : State) : (storeErrors r errs s).pending = s.pending := by
  unfold storeErrors
  refine foldl_pending (fun _ _ => ?_) _ _
  split <;> simp

@[simp] theorem scheduleTick_pending (r : RegionId) (errs : List StoreError) (s : State) :
    (scheduleTick r errs s).pending = s.pending := by
  unfold scheduleTick
  dsimp only
  (repeat' split) <;> simp

@[simp] theorem issueHeld_pending (r : RegionId) (s : State) : (issueHeld r s).pending = s.pending := by
  unfold issueHeld
  rw [settleFaults_pending, foldl_pending fun u i => ?_]
  · simp
  · split
    · rfl
    · rename_i x hx
      split
      · simp
      · exact effect_pending hx _

@[simp] theorem holdRelease_pending (r : RegionId) (s : State) : (holdRelease r s).pending = s.pending := by
  unfold holdRelease
  dsimp only
  (repeat' split) <;> simp

@[simp] theorem watchdogFence_pending (s : State) (h : HoldCond) (u : State) : (watchdogFence s h u).pending = u.pending := by
  unfold watchdogFence
  (repeat' split) <;> simp [fenceCore_pending]

@[simp] theorem holdWatchdog_pending (r : RegionId) (s : State) : (holdWatchdog r s).pending = s.pending := by
  unfold holdWatchdog
  dsimp only
  split
  · rfl
  · split
    · rw [modRegion_pending]
      exact foldl_pending (fun _ _ => watchdogFence_pending ..) _ _
    · rfl

@[simp] theorem settleKind_pending (want : Eff → Bool) (c : CoreId) (s : State) : (settleKind want c s).pending = s.pending := by
  unfold settleKind
  split <;> simp [settleFaults_pending]

@[simp] theorem runKind_pending (want : Instr → Bool) (c : CoreId) (s : State) : (runKind want c s).pending = s.pending := by
  unfold runKind
  dsimp only
  (repeat' split) <;> simp [settleFaults_pending]

@[simp] theorem accumulatorWrite_pending (c : CoreId) (m : Fin 4) (s : State) : (accumulatorWrite c m s).pending = s.pending := by
  unfold accumulatorWrite
  simp

@[simp] theorem checksumCompare_pending (c : CoreId) (m : Fin 4) (s : State) : (checksumCompare c m s).pending = s.pending := by
  unfold checksumCompare
  simp

@[simp] theorem shadowWeightWrite_pending (c : CoreId) (s : State) : (shadowWeightWrite c s).pending = s.pending := by
  unfold shadowWeightWrite
  simp

@[simp] theorem mvmLine_pending (c : CoreId) (s : State) : (mvmLine c s).pending = s.pending := by
  unfold mvmLine
  simp

@[simp] theorem vectorResultWrite_pending (c : CoreId) (s : State) : (vectorResultWrite c s).pending = s.pending := by
  unfold vectorResultWrite
  simp

@[simp] theorem scalerRecordWrite_pending (c : CoreId) (s : State) : (scalerRecordWrite c s).pending = s.pending := by
  unfold scalerRecordWrite
  split <;> simp

@[simp] theorem wideRowAdd_pending (c : CoreId) (s : State) : (wideRowAdd c s).pending = s.pending := by
  unfold wideRowAdd
  simp

@[simp] theorem flitExitWrite_pending (r : RegionId) (d : Dir) (s : State) : (flitExitWrite r d s).pending = s.pending := by
  unfold flitExitWrite
  (repeat' split) <;> simp

@[simp] theorem fxinRead_pending (r : RegionId) (d : Dir) (s : State) : (fxinRead r d s).pending = s.pending := by
  unfold fxinRead
  refine foldl_pending (fun _ _ => ?_) _ _
  simp

@[simp] theorem fsendFlitInject_pending (c : CoreId) (d : Dir) (s : State) : (fsendFlitInject c d s).pending = s.pending := by
  unfold fsendFlitInject
  simp

@[simp] theorem flitCapture_pending (c : CoreId) (d : Dir) (s : State) : (flitCapture c d s).pending = s.pending := by
  unfold flitCapture
  simp

@[simp] theorem sldGroupLoad_pending (c : CoreId) (s : State) : (sldGroupLoad c s).pending = s.pending := by
  unfold sldGroupLoad
  simp

@[simp] theorem sputGroupWrite_pending (c : CoreId) (s : State) : (sputGroupWrite c s).pending = s.pending := by
  unfold sputGroupWrite
  dsimp only
  (repeat' split) <;> simp [settleFaults_pending]

/-! ### Packets, replies, jobs and power states -/

@[simp] theorem queuePkt_pending (p : PortId) (came : Option PortId) (x : LinkPkt) (owner : Option (CoreId × Nat))
    (final : Bool) (s : State) :
    (queuePkt p came x owner final s).pending = s.pending := rfl

@[simp] theorem sendUp_pending (pk params : Nat) (data : List Byte) (s : State) : (sendUp pk params data s).pending = s.pending := by
  unfold sendUp
  split <;> simp

@[simp] theorem sendDown_pending (pk params : Nat) (data : List Byte) (s : State) : (sendDown pk params data s).pending = s.pending := by
  unfold sendDown
  refine foldl_pending (fun _ _ => ?_) _ _
  simp

@[simp] theorem signalIbi_pending (st : Status) (s : State) : (signalIbi st s).pending = s.pending := by
  unfold signalIbi
  split <;> simp

@[simp] theorem raiseAlert_pending (st : Status) (detail : Word) (s : State) : (raiseAlert st detail s).pending = s.pending := by
  unfold raiseAlert
  simp

@[simp] theorem putReply_pending (op : Nat) (tag : BitVec 16) (irq : Bool) (st : Status) (result : BitVec 192) (s : State) :
    (putReply op tag irq st result s).pending = s.pending := rfl

@[simp] theorem takeHead_pending (s : State) : (takeHead s).pending = s.pending := rfl

/-- The state that a packet leaves once it is taken. -/
def PktResult.state : PktResult → State
  | .done _ _ s => s
  | .waits _ s => s

@[simp] theorem state_done (st : Status) (res : BitVec 192) (s : State) : (PktResult.done st res s).state = s := rfl
@[simp] theorem state_waits (a : Awaits) (s : State) : (PktResult.waits a s).state = s := rfl
@[simp] theorem state_refuse (st : Status) (s : State) : (refuse st s).state = s := rfl

theorem onPacket_pending {body : State → PktResult} (h : ∀ u, (body u).state.pending = u.pending) (op : Nat) (p : PktHdr)
    (none_ : BitVec 192) (s : State) : (onPacket op p none_ body s).pending = s.pending := by
  have hb := h (takeHead s)
  unfold onPacket
  dsimp only
  split
  · split
    · simp
    · split <;> rename_i e <;> rw [e] at hb <;> simpa using hb
  · split <;> simp

@[simp] theorem cancelJob_pending (j : JobId) (cause : Nat) (s : State) : (cancelJob j cause s).pending = s.pending := rfl

@[simp] theorem cancelAfter_pending (n : Nat) (j : JobId) (s : State) : (cancelAfter n j s).pending = s.pending :=
  cancelAfter_keeps State.pending (fun _ _ _ _ => rfl) n j s

@[simp] theorem cancelSuccessors_pending (j : JobId) (s : State) :
    (cancelSuccessors j s).pending = s.pending := by simp [cancelSuccessors]

@[simp] theorem satisfySuccessors_pending (j : JobId) (s : State) : (satisfySuccessors j s).pending = s.pending := by
  unfold satisfySuccessors
  refine foldl_pending (fun _ _ => ?_) _ _
  simp

@[simp] theorem cancelWaiting_pending (s : State) : (cancelWaiting s).pending = s.pending := by
  unfold cancelWaiting
  refine foldl_pending (fun _ _ => ?_) _ _
  simp

@[simp] theorem refuseStart_pending (j : JobId) (st : Status) (c : Option CoreId) (s : State) :
    (refuseStart j st c s).pending = s.pending := by
  unfold refuseStart
  simp

@[simp] theorem setPow_pending (s : State) (n : Fin 28) (p : RegPower) : (setPow s n p).pending = s.pending := rfl

@[simp] theorem wakeQueue_pending (n : Fin 28) (s : State) : (wakeQueue n s).pending = s.pending := by
  unfold wakeQueue
  split <;> simp

@[simp] theorem wakeRegion_pending (n : Fin 28) (s : State) : (wakeRegion n s).pending = s.pending := by
  unfold wakeRegion
  dsimp only
  split <;> simp

/-! ### Accesses of the host -/

@[simp] theorem answerHost_pending (x : Completion) (s : State) : (answerHost x s).pending = s.pending := rfl
@[simp] theorem poisonedWrite_pending (s : State) : (poisonedWrite s).pending = s.pending := rfl

theorem barWrite_pending {f : State → State} (h : ∀ u, (f u).pending = u.pending) (b : BarAcc) (s : State) :
    (barWrite b f s).pending = s.pending := by
  rcases barWrite_cases b f s with e | e | e | e <;> rw [e]
  · rfl
  · rfl
  · exact (h _).trans rfl

/-! ### The life of jobs -/

@[simp] theorem enterNode_pending (s : State) (x : GraphNode) : (enterNode s x).pending = s.pending := by
  unfold enterNode
  dsimp only
  split <;> simp

@[simp] theorem submitGraph_pending (addr count : Nat) (s : State) : (submitGraph addr count s).state.pending = s.pending := by
  unfold submitGraph
  dsimp only
  (repeat' split) <;> try rfl
  exact foldl_pending (fun _ _ => enterNode_pending ..) _ _

@[simp] theorem coreLoads_pending (s : State) (j : JobId) (i : Image) (c : CoreId) : (coreLoads s j i c).pending = s.pending := by
  unfold coreLoads
  split <;> simp

@[simp] theorem sendStart_pending (j : JobId) (s : State) : (sendStart j s).pending = s.pending := by
  unfold sendStart
  dsimp only
  split
  · rfl
  · rw [modJob_pending]
    exact foldl_pending (fun _ _ => by simp) _ _

@[simp] theorem takeJob_pending (j : JobId) (s : State) : (takeJob j s).pending = s.pending := by
  unfold takeJob
  dsimp only
  split
  · simp
  · split
    · rw [sendStart_pending]
      split <;> rfl
    · rw [foldl_pending (fun _ _ => wakeRegion_pending ..)]
      simp

@[simp] theorem jobStart_pending (j : JobId) (s : State) : (jobStart j s).pending = s.pending := by
  unfold jobStart
  split <;> simp

@[simp] theorem stopMembers_pending (j : JobId) (p : CoreId → Bool) (s : State) : (stopMembers j p s).pending = s.pending := by
  unfold stopMembers
  refine foldl_pending (fun _ _ => ?_) _ _
  split <;> simp

@[simp] theorem stopAtMatch_pending (r : RegionId) (s : State) : (stopAtMatch r s).pending = s.pending := by
  unfold stopAtMatch
  dsimp only
  split <;> simp

@[simp] theorem jobStopped_pending (j : JobId) (s : State) : (jobStopped j s).pending = s.pending := by
  unfold jobStopped
  dsimp only
  split <;> simp [answer_pending]

@[simp] theorem startRelease_pending (j : JobId) (s : State) : (startRelease j s).state.pending = s.pending := by
  unfold startRelease
  dsimp only
  split <;> simp

@[simp] theorem startResume_pending (j : JobId) (s : State) : (startResume j s).state.pending = s.pending := by
  unfold startResume
  split
  · exact (foldl_pending (fun _ _ => resumeCore_pending ..) _ _).trans (modJob_pending ..)
  · rfl

@[simp] theorem fenceStop_pending (j : JobId) (s : State) : (fenceStop j s).state.pending = s.pending := by
  unfold fenceStop
  split <;> simp

@[simp] theorem fenceCancel_pending (j : JobId) (s : State) : (fenceCancel j s).state.pending = s.pending := by
  unfold fenceCancel
  split <;> simp [fenceJob_pending]

@[simp] theorem takeReports_pending (j : JobId) (s : State) : (takeReports j s).pending = s.pending := rfl

@[simp] theorem jobDone_pending (j : JobId) (s : State) : (jobDone j s).pending = s.pending := by
  unfold jobDone
  split <;> simp [answer_pending]

@[simp] theorem coreFenced_pending (s : State) (c : CoreId) : (coreFenced s c).pending = s.pending :=
  (modCore_pending ..).trans (partEnds_pending ..)

@[simp] theorem autoTest_pending (b : Job) (s : State) : (autoTest b s).pending = s.pending := by
  unfold autoTest
  dsimp only
  (repeat' split) <;> simp

@[simp] theorem abortGroup_pending (g : Fin 16) (l : Nat) (s : State) : (abortGroup g l s).pending = s.pending := by
  unfold abortGroup
  rw [answer_pending, apply_ite State.pending, sendDown_pending, sendUp_pending, ite_self]
  rw [foldl_pending (fun _ _ => fenceCore_pending ..), modGroup_pending]

@[simp] theorem jobFenced_pending (j : JobId) (s : State) : (jobFenced j s).pending = s.pending := by
  unfold jobFenced
  dsimp only
  split
  · rw [answer_pending, autoTest_pending, cancelSuccessors_pending, modJob_pending, takeReports_pending]
    rw [foldl_pending (fun _ _ => coreFenced_pending ..), removeFlits_pending]
    exact foldl_pending (fun _ _ => by split <;> simp) _ _
  · rfl

/-! ### Checks of memory -/

@[simp] theorem setDraining_pending (s : State) : (setDraining s).pending = s.pending := rfl
@[simp] theorem declareRepair_pending (g : Repair) (s : State) : (declareRepair g s).pending = s.pending := rfl
@[simp] theorem dropRepair_pending (g : Repair) (s : State) : (dropRepair g s).pending = s.pending := rfl

@[simp] theorem repairAlert_pending (st : Status) (kind unit spare : Nat) (s : State) :
    (repairAlert st kind unit spare s).pending = s.pending := by
  unfold repairAlert
  simp

@[simp] theorem wakeStacks_pending (a n : Nat) (s : State) : (wakeStacks a n s).pending = s.pending := by
  unfold wakeStacks
  refine foldl_pending (fun _ _ => ?_) _ _
  simp

@[simp] theorem nudgeStacks_pending (a n : Nat) (s : State) : (nudgeStacks a n s).pending = s.pending := by
  unfold nudgeStacks
  refine foldl_pending (fun _ _ => ?_) _ _
  simp

@[simp] theorem stackFails_pending (k : Fin 8) (s : State) : (stackFails k s).pending = s.pending := by
  unfold stackFails
  simp [fenceWhere_pending]

@[simp] theorem dieFails_pending (k : Fin 8) (die : Fin 17) (s : State) : (dieFails k die s).pending = s.pending := by
  unfold dieFails
  dsimp only
  (repeat' split) <;> simp

@[simp] theorem countDie_pending (k : Fin 8) (die : Fin 17) (s : State) : (countDie k die s).pending = s.pending := by
  unfold countDie
  dsimp only
  split <;> simp

@[simp] theorem rowFails_pending (k : Fin 8) (x : RowId) (s : State) : (rowFails k x s).pending = s.pending := by
  unfold rowFails
  (repeat' split) <;> simp

@[simp] theorem countRow_pending (k : Fin 8) (x : RowId) (s : State) : (countRow k x s).pending = s.pending := by
  unfold countRow
  dsimp only
  split <;> simp

@[simp] theorem logError_pending (s : State) (k : Fin 8) (off kind : Nat) : (logError s k off kind).pending = s.pending := rfl

@[simp] theorem countCause_pending (k : Fin 8) (off : Nat) (found chk : PieceCheck) (s : State) :
    (countCause k off found chk s).pending = s.pending := by
  unfold countCause
  (repeat' split) <;> simp

theorem checkPiece_pending (k : Fin 8) (off : Nat) (covers scrub : Bool) (found : PieceCheck) (s : State) :
    (checkPiece k off covers scrub found s).2.pending = s.pending := by
  unfold checkPiece
  dsimp only
  split
  · simp
  · split <;> simp

@[simp] theorem accessRange_pending (write : Bool) (a n : Nat) (skip : List Nat) (chks : List (Nat × PieceCheck)) (s : State) :
    (accessRange write a n skip chks s).2.pending = s.pending := by
  unfold accessRange
  refine foldl_keeps (fun z : List (Nat × Nat) × State => z.2.pending) _ (fun z x => ?_) _ _
  have h := checkPiece_pending (stackOf z.2 x.1) (offsetOf z.2 x.1) (write && decide (a ≤ x.1 ∧ x.1 + 128 ≤ a + n)) false x.2 z.2
  split <;> rename_i e <;> rw [e] at h <;> exact h

@[simp] theorem dramWriteBut_pending (bads : List Nat) (a : Nat) (bs : List Byte) (s : State) :
    (dramWriteBut bads a bs s).pending = s.pending := by
  unfold dramWriteBut
  split
  · rfl
  · exact foldl_pending (fun _ _ => by split <;> rfl) _ _

/-! ### Images -/

@[simp] theorem loadConfig_pending (addr len slot wset : Nat) (ecc : Bool) (s : State) :
    (loadConfig addr len slot wset ecc s).state.pending = s.pending := by
  unfold loadConfig
  (repeat' split) <;> simp

@[simp] theorem unloadConfig_pending (slot : Nat) (s : State) : (unloadConfig slot s).state.pending = s.pending := by
  unfold unloadConfig
  (repeat' split) <;> simp

/-! ### Commit groups -/

@[simp] theorem state_refuseCommit (st : Status) (s : State) : (refuseCommit st s).state = s := rfl

@[simp] theorem commitOpen_pending (g : Fin 16) (mask : Word) (journal jlen : Nat) (s : State) :
    (commitOpen g mask journal jlen s).state.pending = s.pending := by
  unfold commitOpen
  dsimp only
  (repeat' split) <;> simp

@[simp] theorem journalWrites_pending (g : Fin 16) (es : List StageEntry) (s : State) : (journalWrites g es s).pending = s.pending := by
  unfold journalWrites
  refine foldl_pending (fun _ _ => ?_) _ _
  simp

@[simp] theorem commitStage_pending (g : Fin 16) (addr count : Nat) (s : State) :
    (commitStage g addr count s).state.pending = s.pending := by
  unfold commitStage
  dsimp only
  (repeat' split) <;> simp

@[simp] theorem stepAdvance_pending (g : Fin 16) (mask : Word) (s : State) : (stepAdvance g mask s).state.pending = s.pending := by
  unfold stepAdvance
  dsimp only
  (repeat' split) <;> simp

@[simp] theorem commitDiscard_pending (g : Fin 16) (s : State) : (commitDiscard g s).state.pending = s.pending := by
  unfold commitDiscard
  split <;> simp

@[simp] theorem commitCommit_pending (g : Fin 16) (s : State) : (commitCommit g s).state.pending = s.pending := by
  unfold commitCommit
  dsimp only
  (repeat' split) <;> simp

@[simp] theorem memberPrepare_pending (g : Fin 16) (l : Nat) (s : State) : (memberPrepare g l s).pending = s.pending := by
  unfold memberPrepare
  dsimp only
  (repeat' split) <;> simp

@[simp] theorem snapTake_pending (g : Fin 16) (s : State) : (snapTake g s).pending = s.pending := by
  unfold snapTake
  refine foldl_pending (fun _ _ => ?_) _ _
  simp

@[simp] theorem applyEpoch_pending (g : Fin 16) (force : Option Bool) (s : State) : (applyEpoch g force s).pending = s.pending := by
  unfold applyEpoch
  dsimp only
  (repeat' split) <;> simp

@[simp] theorem decideGroup_pending (g : Fin 16) (t : Option Word) (force : Option Bool) (s : State) :
    (decideGroup g t force s).pending = s.pending := by
  unfold decideGroup
  simp

@[simp] theorem commitDecision_pending (g : Fin 16) (s : State) : (commitDecision g s).pending = s.pending := by
  unfold commitDecision
  dsimp only
  (repeat' split) <;> simp

@[simp] theorem prepTimeout_pending (g : Fin 16) (s : State) : (prepTimeout g s).pending = s.pending := by
  unfold prepTimeout
  dsimp only
  (repeat' split) <;> simp

@[simp] theorem commitApply_pending (g : Fin 16) (l : Nat) (s : State) : (commitApply g l s).pending = s.pending := by
  unfold commitApply
  dsimp only
  (repeat' split) <;> simp

theorem commitMem_pending (chks : List (Nat × PieceCheck)) (s : State) (m : StagedMem) : (commitMem chks s m).2.pending = s.pending := by
  simp [commitMem]

theorem commitMems_pending (chks : List (Nat × PieceCheck)) (ms : List StagedMem) (s : State) :
    (commitMems chks ms s).2.pending = s.pending :=
  foldl_keeps (fun z : Option StagedMem × State => z.2.pending) _ (fun z m => commitMem_pending chks z.2 m) _ _

@[simp] theorem memsWake_pending (ms : List StagedMem) (s : State) : (memsWake ms s).pending = s.pending := by
  unfold memsWake
  refine foldl_pending (fun _ _ => ?_) _ _
  simp

@[simp] theorem commitComplete_pending (g : Fin 16) (chks : List (Nat × PieceCheck)) (s : State) :
    (commitComplete g chks s).pending = s.pending := by
  have h := commitMems_pending chks (groupAt s g).mems s
  unfold commitComplete
  dsimp only
  split
  · split
    · split <;> rename_i e <;> rw [e] at h <;> simpa [answer_pending] using h
    · simp
  · rfl

/-! ### Ports -/

@[simp] theorem markSent_pending (o : Option (CoreId × Nat)) (s : State) : (markSent o s).pending = s.pending := by
  unfold markSent
  split <;> simp

@[simp] theorem pumpPort_pending (n : Nat) (p : PortId) (s : State) : (pumpPort n p s).pending = s.pending := by
  induction n generalizing s with
  | zero => rfl
  | succ n ih =>
    unfold pumpPort
    dsimp only
    split
    · split
      · split
        · rw [ih, modPort_pending]
        · rfl
      · rw [ih, foldl_pending (fun _ _ => markSent_pending ..), modPort_pending]
    · rfl

@[simp] theorem pump_pending (p : PortId) (s : State) : (pump p s).pending = s.pending := pumpPort_pending ..

@[simp] theorem dropPkt_pending (s : State) : (dropPkt s).pending = s.pending := rfl

@[simp] theorem routePkt_pending (came : Option PortId) (x : LinkPkt) (owner : Option (CoreId × Nat)) (final : Bool) (s : State) :
    (routePkt came x owner final s).pending = s.pending := by
  unfold routePkt
  (repeat' split) <;> simp

@[simp] theorem sendPkt_pending (x : LinkPkt) (owner : Option (CoreId × Nat)) (final : Bool) (s : State) :
    (sendPkt x owner final s).pending = s.pending := by
  unfold sendPkt
  simp

@[simp] theorem loseCommand_pending (o : CoreId × Nat) (s : State) : (loseCommand o s).pending = s.pending := rfl

@[simp] theorem snapFail_pending (st : Status) (s : State) : (snapFail st s).pending = s.pending := by
  unfold snapFail
  split <;> simp [answer_pending]

@[simp] theorem portEnds_pending (p : PortId) (s : State) : (portEnds p s).pending = s.pending := by
  unfold portEnds
  extract_lets s1
  have h : s1.pending = s.pending := by
    dsimp only [s1]
    (repeat' split) <;> simp
  split
  · exact (answer_pending ..).trans h
  · exact h

@[simp] theorem portDrop_pending (p : PortId) (state : BitVec 2) (reason : Nat) (s : State) :
    (portDrop p state reason s).pending = s.pending := by
  unfold portDrop
  extract_lets js s0 s1 s2
  have h : s2.pending = s.pending := by
    dsimp only [s2, s1, s0]
    rw [portEnds_pending, foldl_pending (fun _ _ => fenceJob_pending ..), modPort_pending, modFabric_pending]
    exact foldl_pending (fun _ _ => loseCommand_pending ..) _ _
  split
  · exact h
  · exact h

@[simp] theorem portDown_pending (p : PortId) (reason : Nat) (s : State) : (portDown p reason s).pending = s.pending := by
  unfold portDown
  simp

@[simp] theorem portTrain_pending (p : PortId) (x : Training) (s : State) : (portTrain p x s).pending = s.pending := by
  unfold portTrain
  dsimp only
  (repeat' split) <;> simp

@[simp] theorem trainRetry_pending (p : PortId) (s : State) : (trainRetry p s).pending = s.pending := by
  unfold trainRetry
  dsimp only
  split <;> simp

@[simp] theorem portRetrain_pending (p : PortId) (s : State) : (portRetrain p s).pending = s.pending := by
  unfold portRetrain
  (repeat' split) <;> simp

@[simp] theorem bpCtlWrite_pending (b : BarAcc) (p : PortId) (v : Word) (s : State) : (bpCtlWrite b p v s).pending = s.pending := by
  unfold bpCtlWrite
  dsimp only
  (repeat' split) <;> simp

@[simp] theorem laneFails_pending (p : PortId) (l : Fin 9) (word : Nat) (s : State) : (laneFails p l word s).pending = s.pending := by
  unfold laneFails
  dsimp only
  (repeat' split) <;> simp

@[simp] theorem laneWindow_pending (p : PortId) (counts : Vector Nat 9) (word : Nat) (s : State) :
    (laneWindow p counts word s).pending = s.pending := by
  unfold laneWindow
  dsimp only
  (repeat' split) <;> simp

@[simp] theorem signalLost_pending (p : PortId) (lanes : BitVec 9) (word : Nat) (s : State) :
    (signalLost p lanes word s).pending = s.pending := by
  unfold signalLost
  dsimp only
  (repeat' split) <;> simp

@[simp] theorem laneSwitchRequest_pending (p : PortId) (l : Fin 9) (word : Nat) (s : State) :
    (laneSwitchRequest p l word s).pending = s.pending := by
  unfold laneSwitchRequest
  split <;> simp

@[simp] theorem laneSwitchAccept_pending (p : PortId) (word : Nat) (s : State) : (laneSwitchAccept p word s).pending = s.pending := by
  unfold laneSwitchAccept
  (repeat' split) <;> simp

@[simp] theorem laneSwitchRetry_pending (p : PortId) (word : Nat) (s : State) : (laneSwitchRetry p word s).pending = s.pending := by
  unfold laneSwitchRetry
  (repeat' split) <;> simp

@[simp] theorem laneSwitchAtCount_pending (p : PortId) (s : State) : (laneSwitchAtCount p s).pending = s.pending := by
  unfold laneSwitchAtCount
  dsimp only
  (repeat' split) <;> simp

@[simp] theorem flitTake_pending (p : PortId) (h : Nat) (s : State) : (flitTake p h s).pending = s.pending := by
  unfold flitTake
  simp

@[simp] theorem flitReceive_pending (p : PortId) (bytes : List Byte) (marked : Bool) (corrected : Nat) (s : State) :
    (flitReceive p bytes marked corrected s).pending = s.pending := by
  unfold flitReceive
  (repeat' split) <;> simp

@[simp] theorem nakReplay_pending (p : PortId) (s : State) : (nakReplay p s).pending = s.pending := by
  unfold nakReplay
  dsimp only
  (repeat' split) <;> simp

@[simp] theorem creditStop_pending (p : PortId) (c : Fin 4) (s : State) : (creditStop p c s).pending = s.pending := by
  unfold creditStop
  dsimp only
  split <;> simp

@[simp] theorem sendControl_pending (p : PortId) (s : State) : (sendControl p s).pending = s.pending := by
  unfold sendControl
  split <;> simp

@[simp] theorem controlFlit_pending (p : PortId) (credits : Vector Nat 4) (mark : Bool) (s : State) :
    (controlFlit p credits mark s).pending = s.pending := by
  unfold controlFlit
  split <;> simp

@[simp] theorem timeExchange_pending (p : PortId) (sent recv peerSent peerRecv : Word) (s : State) :
    (timeExchange p sent recv peerSent peerRecv s).pending = s.pending := by
  unfold timeExchange
  split <;> simp

@[simp] theorem packetForward_pending (p : PortId) (x : LinkPkt) (s : State) : (packetForward p x s).pending = s.pending := by
  unfold packetForward
  split <;> simp

/-! ### Clocks and the governor -/

@[simp] theorem avsSend_pending (mv : Nat) (s : State) : (avsSend mv s).pending = s.pending := rfl

@[simp] theorem avsUpdate_pending (s : State) : (avsUpdate s).pending = s.pending := by
  unfold avsUpdate
  dsimp only
  split <;> simp

@[simp] theorem queueRaises_pending (s : State) : (queueRaises s).pending = s.pending := by
  unfold queueRaises
  split
  · rfl
  · exact foldl_pending (fun _ _ => modPower_pending ..) _ _

@[simp] theorem clkBegin_pending (by_ : ClockBy) (mask : BitVec 17) (idx : BitVec 4) (s : State) :
    (clkBegin by_ mask idx s).pending = s.pending := by
  unfold clkBegin
  dsimp only
  split
  · simp
    exact foldl_pending (fun _ _ => by split <;> simp) _ _
  · simp
    exact foldl_pending (fun _ _ => by split <;> simp) _ _

@[simp] theorem retrainDown_pending (s : State) : (retrainDown s).pending = s.pending := by
  unfold retrainDown
  refine foldl_pending (fun _ _ => ?_) _ _
  split <;> simp

@[simp] theorem recoverEnd_pending (st : Status) (s : State) : (recoverEnd st s).pending = s.pending := by
  unfold recoverEnd
  split <;> simp

@[simp] theorem clkEnd_pending (st : Status) (s : State) : (clkEnd st s).pending = s.pending := by
  unfold clkEnd
  (repeat' split) <;> simp [answer_pending]

@[simp] theorem clkIfDone_pending (s : State) : (clkIfDone s).pending = s.pending := by
  unfold clkIfDone
  (repeat' split) <;> simp

@[simp] theorem clkSlow_pending (s : State) : (clkSlow s).pending = s.pending := (clkIfDone_pending _).trans (clkBegin_pending ..)

@[simp] theorem clkRecover_pending (s : State) : (clkRecover s).pending = s.pending := by
  unfold clkRecover
  split <;> simp

@[simp] theorem clkSettle_pending (s : State) : (clkSettle s).pending = s.pending := by
  unfold clkSettle
  (repeat' split) <;> simp

@[simp] theorem clkSlowDown_pending (st : Status) (s : State) : (clkSlowDown st s).pending = s.pending := by
  unfold clkSlowDown
  (repeat' split) <;> simp

@[simp] theorem setClock_pending (mask : BitVec 17) (idx : Byte) (s : State) : (setClock mask idx s).state.pending = s.pending := by
  unfold setClock
  split <;> simp

@[simp] theorem clkReqWrite_pending (b : BarAcc) (v : Word) (s : State) : (clkReqWrite b v s).pending = s.pending := by
  unfold clkReqWrite
  dsimp only
  (repeat' split) <;> simp

@[simp] theorem clkDrop_pending (r : RegionId) (s : State) : (clkDrop r s).pending = s.pending := rfl

@[simp] theorem regionClockSwitch_pending (r : RegionId) (s : State) : (regionClockSwitch r s).pending = s.pending := by
  unfold regionClockSwitch
  (repeat' split) <;> simp

@[simp] theorem clkResume_pending (r : RegionId) (s : State) : (clkResume r s).pending = s.pending := by
  unfold clkResume
  (repeat' split) <;> simp

@[simp] theorem clockSwitchDone_pending (r : RegionId) (s : State) : (clockSwitchDone r s).pending = s.pending := by
  unfold clockSwitchDone
  dsimp only
  (repeat' split) <;> simp

@[simp] theorem avsAck_pending (mv : BitVec 12) (s : State) : (avsAck mv s).pending = s.pending := by
  unfold avsAck
  dsimp only
  (repeat' split) <;> simp

@[simp] theorem avsTimeout_pending (s : State) : (avsTimeout s).pending = s.pending := by
  unfold avsTimeout
  dsimp only
  (repeat' split) <;> simp

@[simp] theorem lockstepActive_pending (r : RegionId) (s : State) : (lockstepActive r s).pending = s.pending := by
  unfold lockstepActive
  split <;> simp

@[simp] theorem cgClkctlWrite_pending (b : BarAcc) (r : RegionId) (v : Word) (s : State) :
    (cgClkctlWrite b r v s).pending = s.pending := by
  unfold cgClkctlWrite
  simp

@[simp] theorem tallyClear_pending (b : BarAcc) (r : RegionId) (v : Word) (s : State) : (tallyClear b r v s).pending = s.pending := by
  unfold tallyClear
  split <;> simp

@[simp] theorem droopStretch_pending (r : RegionId) (mv : BitVec 12) (s : State) : (droopStretch r mv s).pending = s.pending := by
  unfold droopStretch
  dsimp only
  (repeat' split) <;> simp

@[simp] theorem govGrant_pending (s : State) (x : GovReq) : (govGrant s x).pending = s.pending := by
  unfold govGrant
  (repeat' split) <;> simp

@[simp] theorem resetStep3_pending (s : State) : (resetStep3 s).pending = s.pending :=
  foldl_pending (fun _ _ => wakeRegion_pending ..) _ _

@[simp] theorem governorWindow_pending (s : State) : (governorWindow s).pending = s.pending := by
  have hfold (xs : List GovReq) (u : State) : (xs.foldl govGrant u).pending = u.pending :=
    foldl_pending (fun _ _ => govGrant_pending ..) _ _
  unfold governorWindow
  dsimp only
  (repeat' split) <;> simp [hfold]

/-! ### Memory accesses of the host -/

@[simp] theorem hostAbort_pending (st : Status) (x : HostAcc) (s : State) : (hostAbort st x s).pending = s.pending := rfl

@[simp] theorem hostLocal_pending (x : HostAcc) (c : CoreId) (o : Nat) (s : State) : (hostLocal x c o s).pending = s.pending := by
  unfold hostLocal
  (repeat' split) <;> simp

@[simp] theorem hostMoves_pending (x : HostAcc) (a : Nat) (s : State) : (hostMoves x a s).pending = s.pending := by
  unfold hostMoves
  dsimp only
  split <;> split <;> simp

@[simp] theorem hostTake_pending (w : HostWait) (s : State) : (hostTake w s).pending = s.pending := by
  unfold hostTake
  (repeat' split) <;> simp

@[simp] theorem hostAgain_pending (w : HostWait) (s : State) : (hostAgain w s).pending = s.pending := by
  unfold hostAgain
  split <;> simp

@[simp] theorem hostServe_pending (s : State) : (hostServe s).pending = s.pending := by
  unfold hostServe
  refine foldl_pending (fun _ _ => ?_) _ _
  simp

/-! ### Link packets and the protocols of the fabric -/

@[simp] theorem sendAll_pending (owner : Option (CoreId × Nat)) (l : List LinkPkt) (s : State) :
    (sendAll owner l s).pending = s.pending := by
  induction l generalizing s with
  | nil => rfl
  | cons x r ih =>
    cases r with
    | nil => exact sendPkt_pending ..
    | cons y r => exact (ih _).trans (sendPkt_pending ..)

@[simp] theorem linkSend_pending (c : CoreId) (l : LinkCmd) (chks : List (Nat × PieceCheck)) (s : State) :
    (linkSend c l chks s).pending = s.pending := by
  have h : (if lcReads l.words then accessRange false (fieldOf l.words.word1.toNat 0 48) (lcBytes l.words) [] chks s
      else ([], s)).2.pending = s.pending := by
    split <;> simp
  unfold linkSend
  dsimp only
  split
  · rw [fenceCore_pending, h]
  · rw [sendAll_pending, modCore_pending, h]

@[simp] theorem linkTake_pending (c : CoreId) (chks : List (Nat × PieceCheck)) (s : State) : (linkTake c chks s).pending = s.pending := by
  unfold linkTake
  dsimp only
  (repeat' split) <;> simp [fenceCore_pending]

@[simp] theorem sendAck_pending (dst : BitVec 14) (core : Fin 64) (cmd : BitVec 19) (st : Status) (progress : Bool) (s : State) :
    (sendAck dst core cmd st progress s).pending = s.pending := by
  unfold sendAck
  simp

@[simp] theorem noteLanding_pending (l : Landing) (final : Bool) (s : State) : (noteLanding l final s).pending = s.pending := rfl

@[simp] theorem landData_pending (x : LinkPkt) (area : Option Nat) (final : Bool) (chks : List (Nat × PieceCheck)) (s : State) :
    (landData x area final chks s).pending = s.pending := by
  unfold landData
  dsimp only
  (repeat' split) <;> simp

@[simp] theorem takeLanded_pending (x : LinkPkt) (s : State) : (takeLanded x s).2.pending = s.pending := rfl

@[simp] theorem reportSent_pending (src : BitVec 14) (slot : Nat) (s : State) : (reportSent src slot s).pending = s.pending := by
  unfold reportSent
  simp

@[simp] theorem writeIn_pending (x : LinkPkt) (final : Bool) (chks : List (Nat × PieceCheck)) (s : State) :
    (writeIn x final chks s).pending = s.pending := by
  unfold writeIn
  dsimp only
  (repeat' split) <;> simp

@[simp] theorem placeEntry_pending (e : LinkEntry) (s : State) : (placeEntry e s).pending = s.pending := by
  unfold placeEntry
  (repeat' split) <;> simp

@[simp] theorem contributionIn_pending (p : PortId) (x : LinkPkt) (i : ContribInfo) (chks : List (Nat × PieceCheck)) (s : State) :
    (contributionIn p x i chks s).pending = s.pending := by
  have h := takeLanded_pending x (landData x (some ((i.nrowsM1.val + 1) * (if i.wide then 2048 else 512))) i.final chks s)
  rw [landData_pending] at h
  unfold contributionIn
  dsimp only
  split
  · split <;> rename_i e <;> rw [e] at h <;> (repeat' split) <;> simpa using h
  · simp

@[simp] theorem refill_pending (s : State) : (refill s).pending = s.pending := by
  unfold refill
  refine foldl_pending (fun _ _ => ?_) _ _
  simp

@[simp] theorem raiseFlag_pending (src : BitVec 14) (core : Fin 64) (cmd : BitVec 19) (rcore : Fin 64) (f : Fin 8) (s : State) :
    (raiseFlag src core cmd rcore f s).pending = s.pending := by
  unfold raiseFlag
  dsimp only
  (repeat' split) <;> simp

@[simp] theorem flagIn_pending (p : PortId) (x : LinkPkt) (rcore : Fin 64) (f : Fin 8) (s : State) :
    (flagIn p x rcore f s).pending = s.pending := by
  unfold flagIn
  dsimp only
  split <;> simp

@[simp] theorem setInboundIo_pending (via : Bool) (l : List LinkIn) (s : State) : (setInboundIo via l s).pending = s.pending := rfl

@[simp] theorem carryIn_pending (y : LinkIn) (chks : List (Nat × PieceCheck)) (s : State) : (carryIn y chks s).pending = s.pending := by
  unfold carryIn
  split <;> simp

@[simp] theorem takeIn_pending (via : Bool) (y : LinkIn) (chks : List (Nat × PieceCheck)) (s : State) :
    (takeIn via y chks s).pending = s.pending := by
  unfold takeIn
  (repeat' split) <;> simp

@[simp] theorem linkServe_pending (via : Bool) (s : State) : (linkServe via s).pending = s.pending := by
  unfold linkServe
  refine foldl_pending (fun _ _ => ?_) _ _
  simp

@[simp] theorem linkWrite_pending (p : PortId) (x : LinkPkt) (final : Bool) (chks : List (Nat × PieceCheck)) (s : State) :
    (linkWrite p x final chks s).pending = s.pending := by
  unfold linkWrite
  split <;> simp

@[simp] theorem linkContribution_pending (p : PortId) (x : LinkPkt) (i : ContribInfo) (chks : List (Nat × PieceCheck)) (s : State) :
    (linkContribution p x i chks s).pending = s.pending := by
  unfold linkContribution
  split <;> simp

@[simp] theorem linkFlag_pending (p : PortId) (x : LinkPkt) (rcore : Fin 64) (f : Fin 8) (s : State) :
    (linkFlag p x rcore f s).pending = s.pending := by
  unfold linkFlag
  split <;> simp

@[simp] theorem settleFlags_pending (s : State) : (settleFlags s).pending = s.pending := by
  unfold settleFlags
  refine foldl_pending (fun _ _ => ?_) _ _
  simp

@[simp] theorem contributionEntry_pending (c : CoreId) (s : State) : (contributionEntry c s).pending = s.pending := by
  unfold contributionEntry
  (repeat' split) <;> simp

@[simp] theorem progressAcks_pending (c : CoreId) (s : State) : (progressAcks c s).pending = s.pending := by
  unfold progressAcks
  rw [foldl_pending (fun _ _ => sendAck_pending ..), foldl_pending (fun _ _ => sendAck_pending ..)]

@[simp] theorem ackTimeout_pending (c : CoreId) (n : Nat) (s : State) : (ackTimeout c n s).pending = s.pending := by
  unfold ackTimeout
  split <;> simp [fenceCore_pending]

@[simp] theorem coreAck_pending (x : LinkPkt) (s : State) : (coreAck x s).pending = s.pending := by
  unfold coreAck
  dsimp only
  (repeat' split) <;> simp [fenceCore_pending]

@[simp] theorem enumStart_pending (s : State) : (enumStart s).pending = s.pending := by
  unfold enumStart
  dsimp only
  split <;> simp

@[simp] theorem enumerate_pending (cs : List FabLink) (s : State) : (enumerate cs s).pending = s.pending := by
  unfold enumerate
  refine foldl_pending (fun _ _ => ?_) _ _
  split <;> simp

@[simp] theorem enumTake_pending (x : EnumPkt) (s : State) : (enumTake x s).pending = s.pending := rfl

@[simp] theorem enumPacket_pending (x : EnumPkt) (s : State) : (enumPacket x s).pending = s.pending := by
  unfold enumPacket
  (repeat' split) <;> simp

@[simp] theorem modBar_pending (s : State) (b : Fin 8) (f : Barrier → Barrier) : (modBar s b f).pending = s.pending := rfl

@[simp] theorem barRelease_pending (b : Fin 8) (t : Word) (s : State) : (barRelease b t s).pending = s.pending := by
  unfold barRelease
  dsimp only
  split <;> simp

@[simp] theorem barCheck_pending (b : Fin 8) (s : State) : (barCheck b s).pending = s.pending := by
  unfold barCheck
  dsimp only
  (repeat' split) <;> simp

@[simp] theorem barArrive_pending (b : Fin 8) (child : Option PortId) (s : State) : (barArrive b child s).pending = s.pending := by
  unfold barArrive
  (repeat' split) <;> simp

@[simp] theorem barStart_pending (b : Fin 8) (s : State) : (barStart b s).pending = s.pending := by
  unfold barStart
  dsimp only
  (repeat' split) <;> simp

@[simp] theorem barmWrite_pending (a : BarAcc) (b : Fin 8) (v : Word) (s : State) : (barmWrite a b v s).pending = s.pending := rfl

@[simp] theorem fabricReport_pending (g : Fin 16) (s : State) : (fabricReport g s).pending = s.pending := by
  unfold fabricReport
  dsimp only
  (repeat' split) <;> simp

@[simp] theorem fabricPrepared_pending (g : Fin 16) (child : Option PortId) (busy : Bool) (s : State) :
    (fabricPrepared g child busy s).pending = s.pending := by
  unfold fabricPrepared
  dsimp only
  (repeat' split) <;> simp

@[simp] theorem fabricAbort_pending (g : Fin 16) (l : Nat) (s : State) : (fabricAbort g l s).pending = s.pending := by
  unfold fabricAbort
  dsimp only
  split <;> simp

@[simp] theorem fabricApply_pending (g : Fin 16) (t : Word) (take : Bool) (s : State) : (fabricApply g t take s).pending = s.pending := by
  unfold fabricApply
  dsimp only
  split <;> simp

/-! ### Snapshots, restores and halts -/

@[simp] theorem snapshotPlan_pending (a : Nat) (s : State) : (snapshotPlan a s).state.pending = s.pending := by
  unfold snapshotPlan
  (repeat' split) <;> simp

@[simp] theorem waitCaptured_pending (s : State) : (waitCaptured s).state.pending = s.pending := by
  unfold waitCaptured
  (repeat' split) <;> simp

@[simp] theorem waitComplete_pending (s : State) : (waitComplete s).state.pending = s.pending := by
  unfold waitComplete
  (repeat' split) <;> simp

@[simp] theorem settleComplete_pending (s : State) : (settleComplete s).pending = s.pending := by
  unfold settleComplete
  split <;> simp [answer_pending]

@[simp] theorem fwWrites_pending (dst : BitVec 14) (addr : Nat) (forward : Bool) (bs : List Byte) (s : State) :
    (fwWrites dst addr forward bs s).pending = s.pending := sendAll_pending ..

@[simp] theorem advanceComplete_pending (epoch : BitVec 32) (s : State) : (advanceComplete epoch s).pending = s.pending := by
  unfold advanceComplete
  dsimp only
  split <;> simp

@[simp] theorem takeReport_pending (src : BitVec 14) (epoch : BitVec 32) (s : State) : (takeReport src epoch s).pending = s.pending := by
  unfold takeReport
  dsimp only
  (repeat' split) <;> simp

@[simp] theorem ownComplete_pending (s : State) : (ownComplete s).pending = s.pending := by
  unfold ownComplete
  split <;> simp

@[simp] theorem readRanges_pending (rs : List (Nat × Nat)) (chks : List (Nat × PieceCheck)) (s : State) :
    (readRanges rs chks s).2.pending = s.pending :=
  by
  unfold readRanges
  refine foldl_keeps (fun z : List (Nat × Nat) × State => z.2.pending) _ (fun z r => ?_) rs ([], s)
  exact accessRange_pending false r.1 r.2 [] chks z.2

@[simp] theorem snapWakes_pending (rs : List (Nat × Nat)) (s : State) : (snapWakes rs s).pending = s.pending := by
  unfold snapWakes
  refine foldl_pending (fun _ _ => ?_) _ _
  simp

@[simp] theorem beginSend_pending (p : SnapPlan) (bs : List Byte) (chks : List (Nat × PieceCheck)) (s : State) :
    (beginSend p bs chks s).pending = s.pending := by
  have h := accessRange_pending false (planSlot p s.snap.slot) bs.length [] chks
    (modSnap s (fun z => { z with state := .sending, sendLeft := 1 }))
  unfold beginSend
  dsimp only
  split
  · simp
  · split <;> rename_i e <;> rw [e] at h <;> simpa using h

@[simp] theorem captureComplete_pending (chks : List (Nat × PieceCheck)) (s : State) : (captureComplete chks s).pending = s.pending := by
  unfold captureComplete
  dsimp only
  split
  · simp
  · rename_i p _ _
    have hr := readRanges_pending p.ranges chks s
    split
    · rfl
    · split
      · simp
      · split <;> rename_i e <;> rw [e] at hr
        · simpa using hr
        · rename_i s1
          have hw := accessRange_pending true (planSlot p s.snap.slot) (snapBytes s p).length [] [] s1
          split <;> rename_i e <;> rw [e] at hw
          · simpa using hw.trans hr
          · split <;> simpa [answer_pending] using hw.trans hr
  · rfl

@[simp] theorem fwAck_pending (x : LinkPkt) (s : State) : (fwAck x s).pending = s.pending := by
  unfold fwAck
  dsimp only
  (repeat' split) <;> simp [answer_pending]

@[simp] theorem linkAck_pending (x : LinkPkt) (s : State) : (linkAck x s).pending = s.pending := by
  unfold linkAck
  (repeat' split) <;> simp

@[simp] theorem snapshotSent_pending (src : BitVec 14) (epoch : BitVec 32) (s : State) :
    (snapshotSent src epoch s).pending = s.pending := by
  unfold snapshotSent
  split <;> simp

@[simp] theorem completeAdvance_pending (epoch : BitVec 32) (s : State) : (completeAdvance epoch s).pending = s.pending := by
  unfold completeAdvance
  split <;> simp

@[simp] theorem restoreRanges_pending (rs : List (Nat × Nat)) (src : Nat) (s : State) : (restoreRanges rs src s).pending = s.pending := by
  induction rs generalizing src s with
  | nil => rfl
  | cons r rs ih => exact (ih _ _).trans rfl

@[simp] theorem checkSnap_pending (a : Nat) (s : State) : (checkSnap a s).2.pending = s.pending := by
  have h := accessRange_pending false a ((snapAt s a).getD 256) [] [] s
  unfold checkSnap
  split <;> rename_i e <;> rw [e] at h <;> exact h

@[simp] theorem bringBack_pending (p : SnapPlan) (a : Nat) (s : State) : (bringBack p a s).state.pending = s.pending := by
  have h := checkSnap_pending a s
  unfold bringBack
  split <;> rename_i e <;> rw [e] at h
  · dsimp only
    rw [state_done, restoreRanges_pending, foldl_pending (fun _ _ => accessRange_pending ..)]
    exact h
  · exact h

@[simp] theorem forwardSnap_pending (a off len : Nat) (dest : BitVec 14) (daddr : Nat) (s : State) :
    (forwardSnap a off len dest daddr s).state.pending = s.pending := by
  have h := accessRange_pending false (a + off) len [] [] s
  unfold forwardSnap
  (repeat' split) <;> try rfl
  all_goals rename_i e; rw [e] at h; simpa using h

@[simp] theorem restoreDo_pending (op : RestoreOp) (s : State) : (restoreDo op s).state.pending = s.pending := by
  unfold restoreDo
  split
  · rename_i a p _ _
    cases op with
    | bringBack _ => exact bringBack_pending ..
    | verify _ _ => exact checkSnap_pending a s
    | forward => exact forwardSnap_pending ..
  · rfl

@[simp] theorem restore_pending (op : RestoreOp) (s : State) : (restore op s).state.pending = s.pending := by
  unfold restore
  (repeat' split) <;> simp

@[simp] theorem restoreEnd_pending (n : Nat) (r : PktResult) : (restoreEnd n r).pending = r.state.pending := by
  cases r with
  | done st res s => exact answer_pending ..
  | waits a s => rfl

@[simp] theorem restoreAgain_pending (x : Nat × RestoreOp) (s : State) : (restoreAgain x s).pending = s.pending := by
  unfold restoreAgain
  (repeat' split) <;> simp

@[simp] theorem restoreServe_pending (s : State) : (restoreServe s).pending = s.pending := by
  unfold restoreServe
  refine foldl_pending (fun _ _ => ?_) _ _
  simp

@[simp] theorem halt_pending (epoch : BitVec 32) (lost : BitVec 14) (s : State) : (halt epoch lost s).pending = s.pending := by
  unfold halt
  rw [modSnap_pending, snapFail_pending, foldl_pending (fun _ _ => by split <;> simp), cancelWaiting_pending, fenceWhere_pending]

@[simp] theorem haltEpoch_pending (epoch : BitVec 32) (lost : BitVec 14) (s : State) : (haltEpoch epoch lost s).pending = s.pending := by
  unfold haltEpoch
  split <;> simp

@[simp] theorem heartbeatSend_pending (s : State) : (heartbeatSend s).pending = s.pending := by
  unfold heartbeatSend
  split
  · rfl
  · split
    · rw [foldl_pending (fun _ _ => pump_pending ..), sendDown_pending]
    · simp

@[simp] theorem heartbeatPacket_pending (src : BitVec 14) (s : State) : (heartbeatPacket src s).pending = s.pending := by
  unfold heartbeatPacket
  (repeat' split) <;> simp

@[simp] theorem heartbeatMiss_pending (peer : BitVec 14) (s : State) : (heartbeatMiss peer s).pending = s.pending := by
  unfold heartbeatMiss
  (repeat' split) <;> simp

/-! ### Self-tests and repairs -/

@[simp] theorem settleRows_pending (n : Nat) (s : State) : (settleRows n s).pending = s.pending := by
  induction n generalizing s with
  | zero => rfl
  | succ n ih =>
    unfold settleRows
    split
    · rw [ih]; simp
    · rfl

@[simp] theorem settleRepairs_pending (s : State) : (settleRepairs s).pending = s.pending := settleRows_pending ..

@[simp] theorem putRepair_pending (old : Option Repair) (g : Repair) (s : State) : (putRepair old g s).pending = s.pending := by
  unfold putRepair
  split <;> simp

@[simp] theorem shedCore_pending (old : Option Repair) (f : CoreId) (s : State) : (shedCore old f s).pending = s.pending := by
  unfold shedCore
  (repeat' split) <;> simp

@[simp] theorem replaceCore_pending (old : Option Repair) (f : CoreId) (s : State) : (replaceCore old f s).pending = s.pending := by
  unfold replaceCore
  split <;> simp

@[simp] theorem repairArray_pending (c : CoreId) (x : SelfTest) (s : State) (m : Fin 4) : (repairArray c x s m).pending = s.pending := by
  unfold repairArray
  dsimp only
  (repeat' split) <;> simp

@[simp] theorem markFailed_pending (c : CoreId) (s : State) : (markFailed c s).pending = s.pending := rfl

@[simp] theorem refill1_pending (f sp : CoreId) (s : State) : (refill1 f sp s).pending = s.pending := by
  unfold refill1
  simp

@[simp] theorem coreFails_pending (c : CoreId) (s : State) : (coreFails c s).pending = s.pending := by
  unfold coreFails
  dsimp only
  (repeat' split) <;> simp

@[simp] theorem selfTestDone_pending (c : CoreId) (x : SelfTest) (s : State) : (selfTestDone c x s).pending = s.pending := by
  have hfold (u : State) : ((List.finRange 4).foldl (repairArray c x) u).pending = u.pending :=
    foldl_pending (fun _ _ => repairArray_pending ..) _ _
  unfold selfTestDone
  dsimp only
  (repeat' split) <;> simp [hfold]

@[simp] theorem startTest_pending (c : CoreId) (s : State) : (startTest c s).pending = s.pending := by
  unfold startTest
  simp

@[simp] theorem sprReqWrite_pending (b : BarAcc) (v : Word) (s : State) : (sprReqWrite b v s).pending = s.pending := by
  unfold sprReqWrite
  dsimp only
  (repeat' split) <;> simp

@[simp] theorem sprCtlWrite_pending (b : BarAcc) (v : Word) (s : State) : (sprCtlWrite b v s).pending = s.pending := by
  unfold sprCtlWrite
  dsimp only
  split
  · rw [foldl_pending (fun _ _ => declareRepair_pending ..)]; simp
  · simp

@[simp] theorem mapShed_pending (s : State) (f : CoreId) : (mapShed s f).pending = s.pending := by
  unfold mapShed
  rfl

@[simp] theorem repairCommit_pending (s : State) : (repairCommit s).pending = s.pending := by
  unfold repairCommit
  (repeat' split) <;> simp

@[simp] theorem dieRebuild_pending (k : Fin 8) (s : State) : (dieRebuild k s).pending = s.pending := by
  unfold dieRebuild
  dsimp only
  split <;> simp

@[simp] theorem rowRepair_pending (k : Fin 8) (x : RowId) (s : State) : (rowRepair k x s).pending = s.pending := by
  unfold rowRepair
  split <;> simp

@[simp] theorem rebuildCommit_pending (k : Fin 8) (s : State) : (rebuildCommit k s).pending = s.pending := by
  unfold rebuildCommit
  dsimp only
  split <;> simp

/-! ### Memory events -/

@[simp] theorem servePiece_pending (p : Piece) (bytes : List Byte) (s : State) : (servePiece p bytes s).pending = s.pending := rfl

@[simp] theorem accessPiece_pending (k : Fin 8) (p : Piece) (found : PieceCheck) (s : State) :
    (accessPiece k p found s).pending = s.pending := by
  have h := checkPiece_pending k (p.off / 128 * 128) (p.write && decide (p.len = 128)) false found s
  unfold accessPiece
  dsimp only
  split <;> rename_i e <;> rw [e] at h
  · simpa using h
  · split <;> simpa using h

@[simp] theorem pieceAccess_pending (k : Fin 8) (e : Fin 128) (ch : Fin 32) (chk : PieceCheck) (s : State) :
    (pieceAccess k e ch chk s).pending = s.pending := by
  unfold pieceAccess
  dsimp only
  (repeat' split) <;> simp

@[simp] theorem patrolScrub_pending (k : Fin 8) (off : Nat) (found : PieceCheck) (s : State) :
    (patrolScrub k off found s).pending = s.pending := by
  unfold patrolScrub
  split
  · exact checkPiece_pending ..
  · rfl

@[simp] theorem stackTemp_pending (k : Fin 8) (t : Byte) (s : State) : (stackTemp k t s).pending = s.pending := by
  unfold stackTemp
  dsimp only
  split <;> simp [fenceWhere_pending]

@[simp] theorem refreshRate_pending (k : Fin 8) (s : State) : (refreshRate k s).pending = s.pending := rfl

@[simp] theorem memTripClear_pending (k : Fin 8) (s : State) : (memTripClear k s).pending = s.pending := by
  unfold memTripClear
  split <;> simp

@[simp] theorem wheelAccept_pending (k : Fin 8) (w : Vector Byte 128) (s : State) : (wheelAccept k w s).pending = s.pending := rfl

@[simp] theorem wheelApply_pending (b : BarAcc) (k : Fin 8) (v : Word) (s : State) : (wheelApply b k v s).pending = s.pending := by
  unfold wheelApply
  dsimp only
  (repeat' split) <;> simp

@[simp] theorem wheelEffect_pending (k : Fin 8) (s : State) : (wheelEffect k s).pending = s.pending := by
  unfold wheelEffect
  (repeat' split) <;> simp

@[simp] theorem setWheel_pending (mask : Byte) (addr : Nat) (s : State) : (setWheel mask addr s).state.pending = s.pending := by
  unfold setWheel
  dsimp only
  (repeat' split) <;> try rfl
  exact foldl_pending (fun _ _ => wheelAccept_pending ..) _ _

@[simp] theorem decodeWrite_pending (b : BarAcc) (v : Word) (s : State) : (decodeWrite b v s).pending = s.pending := by
  unfold decodeWrite
  split <;> simp

@[simp] theorem serveWaits_pending (s : State) : (serveWaits s).pending = s.pending := by
  unfold serveWaits
  simp

/-! ### Sleep, heat and supplies -/

@[simp] theorem regionCleared_pending (r : RegionId) (s : State) : (regionCleared r s).pending = s.pending := rfl
@[simp] theorem govDrop_pending (n : Fin 28) (s : State) : (govDrop n s).pending = s.pending := rfl

@[simp] theorem sleepNow_pending (n : Fin 28) (s : State) : (sleepNow n s).pending = s.pending := by
  unfold sleepNow
  split <;> simp

@[simp] theorem regionSleep_pending (n : Fin 26) (quiet : Bool) (s : State) : (regionSleep n quiet s).pending = s.pending := by
  unfold regionSleep
  dsimp only
  split <;> simp

@[simp] theorem sleepAsk_pending (old new : Nat) (s : State) (n : Fin 26) : (sleepAsk old new s n).pending = s.pending := by
  unfold sleepAsk
  dsimp only
  (repeat' split) <;> simp

@[simp] theorem sleepWrite_pending (req : Nat) (s : State) : (sleepWrite req s).pending = s.pending := by
  unfold sleepWrite
  refine foldl_pending (fun _ _ => ?_) _ _
  simp

@[simp] theorem resetTests_pending (r : RegionId) (s : State) : (resetTests r s).pending = s.pending := by
  unfold resetTests
  split <;> simp

@[simp] theorem resetWipe_pending (s : State) : (resetWipe s).pending = s.pending := by
  unfold resetWipe
  split <;> simp

@[simp] theorem regionRunning_pending (n : Fin 28) (s : State) : (regionRunning n s).pending = s.pending := by
  unfold regionRunning
  dsimp only
  (repeat' split) <;> simp [foldl_pending, apply_ite State.pending]

@[simp] theorem fenceAll_pending (st : Status) (s : State) : (fenceAll st s).pending = s.pending := by
  unfold fenceAll
  dsimp only
  rw [foldl_pending (fun _ _ => by simp [fenceJob_pending])]
  exact foldl_pending (fun _ _ => modJob_pending ..) _ _

@[simp] theorem thermWarn_pending (s : State) : (thermWarn s).pending = s.pending := by
  unfold thermWarn
  dsimp only
  split <;> simp

@[simp] theorem thermTrip_pending (s : State) : (thermTrip s).pending = s.pending := by
  unfold thermTrip
  simp

@[simp] theorem sleepAll_pending (s : State) : (sleepAll s).pending = s.pending := by
  unfold sleepAll
  refine foldl_pending (fun _ _ => ?_) _ _
  simp

@[simp] theorem clkCut_pending (s : State) : (clkCut s).pending = s.pending := by
  unfold clkCut
  split
  · split
    · simp
    · rw [clkEnd_pending]
      exact foldl_pending (fun _ _ => by split <;> simp) _ _
  · rfl

@[simp] theorem thermHard_pending (s : State) : (thermHard s).pending = s.pending := by
  unfold thermHard
  simp

@[simp] theorem logicTemp_pending (t : Byte) (hot : BitVec 5) (s : State) : (logicTemp t hot s).pending = s.pending := by
  unfold logicTemp
  (repeat' split) <;> simp

@[simp] theorem thermTripClear_pending (s : State) : (thermTripClear s).pending = s.pending := by
  unfold thermTripClear
  split <;> simp

@[simp] theorem portPowerLost_pending (p : PortId) (s : State) : (portPowerLost p s).pending = s.pending := by
  unfold portPowerLost
  split <;> simp

@[simp] theorem pcieDown_pending (s : State) : (pcieDown s).pending = s.pending := rfl

@[simp] theorem supplyEffect_pending (x : Rail) (s : State) : (supplyEffect x s).pending = s.pending := by
  have hfold {α : Type} (f : State → α → State) (h : ∀ u a, (f u a).pending = u.pending) (l : List α) (u : State) :
      (l.foldl f u).pending = u.pending := foldl_keeps State.pending f h l u
  unfold supplyEffect
  split
  case h_3 => simp
  case h_1 | h_2 => rw [clkCut_pending, hfold _ (fun _ _ => by split <;> simp), fenceAll_pending]
  case h_4 | h_5 => rw [pcieDown_pending, hfold _ (fun _ _ => by split <;> simp)]
  case h_6 | h_7 => rw [hfold _ (fun _ _ => by split <;> simp)]

@[simp] theorem supplyFault_pending (x : Rail) (mv : BitVec 12) (s : State) : (supplyFault x mv s).pending = s.pending := by
  unfold supplyFault
  split <;> simp

@[simp] theorem supplyClear_pending (bits : Nat) (levels : Vector (BitVec 12) 7) (s : State) :
    (supplyClear bits levels s).pending = s.pending := rfl

@[simp] theorem refLost_pending (s : State) : (refLost s).pending = s.pending := by
  unfold refLost
  (repeat' split) <;> simp

@[simp] theorem refRecover_pending (s : State) : (refRecover s).pending = s.pending := by
  unfold refRecover
  (repeat' split) <;> simp

/-! ### Resets and wipes -/

@[simp] theorem coldReset_pending (cause : Nat) (s : State) : (coldReset cause s).pending = s.pending := rfl

@[simp] theorem resetRelease_pending (mgrSel : Bool) (wid : BitVec 4) (s : State) : (resetRelease mgrSel wid s).pending = s.pending := by
  unfold resetRelease
  split <;> simp

@[simp] theorem resetAssert_pending (s : State) : (resetAssert s).pending = s.pending := by
  unfold resetAssert
  split <;> simp

@[simp] theorem powerRemoved_pending (s : State) : (powerRemoved s).pending = s.pending := rfl

@[simp] theorem warmReset_pending (cause : Nat) (s : State) : (warmReset cause s).pending = s.pending := by
  unfold warmReset
  split
  · rw [resetWipe_pending]
    exact (foldl_pending (fun _ _ => wakeRegion_pending ..) _ _).trans rfl
  · rfl

@[simp] theorem perst_pending (s : State) : (perst s).pending = s.pending := by
  unfold perst
  simp

@[simp] theorem pwrResetWrite_pending (x : Nat) (s : State) : (pwrResetWrite x s).pending = s.pending := by
  unfold pwrResetWrite
  (repeat' split) <;> simp

@[simp] theorem refPresent_pending (s : State) : (refPresent s).pending = s.pending := by
  unfold refPresent
  (repeat' split) <;> simp

@[simp] theorem commitRepairs_pending (n : Nat) (s : State) : (commitRepairs n s).pending = s.pending := by
  induction n generalizing s with
  | zero => rfl
  | succ n ih => exact (ih _).trans (repairCommit_pending s)

@[simp] theorem enablePorts_pending (s : State) : (enablePorts s).pending = s.pending := by
  unfold enablePorts
  refine foldl_pending (fun _ _ => ?_) _ _
  split <;> simp

@[simp] theorem resetReady_pending (s : State) : (resetReady s).pending = s.pending := by
  unfold resetReady
  dsimp only
  (repeat' split) <;> simp

@[simp] theorem dramWipe_pending (p : Nat → Bool) (s : State) : (dramWipe p s).pending = s.pending := rfl

@[simp] theorem wipeEffect_pending (w : Wipe) (s : State) : (wipeEffect w s).pending = s.pending := by
  unfold wipeEffect
  split
  · simp
  · exact foldl_pending (fun _ _ => modCore_pending ..) _ _
  · rw [modPower_pending]
    split <;> simp

@[simp] theorem answerFirst_pending (a : Awaits) (st : Status) (s : State) : (answerFirst a st s).pending = s.pending := by
  unfold answerFirst
  split <;> simp

@[simp] theorem wipeDone_pending (s : State) : (wipeDone s).pending = s.pending := by
  unfold wipeDone
  (repeat' split) <;> simp

@[simp] theorem wipeBegin_pending (w : Wipe) (s : State) : (wipeBegin w s).pending = s.pending := rfl

@[simp] theorem wipeDram_pending (first count : Nat) (s : State) : (wipeDram first count s).state.pending = s.pending := by
  unfold wipeDram
  split
  · rfl
  · split
    · rfl
    · rw [state_waits, foldl_pending (fun _ _ => wakeRegion_pending ..), wipeBegin_pending]

@[simp] theorem wipeCores_pending (mask : Word) (s : State) : (wipeCores mask s).state.pending = s.pending := by
  unfold wipeCores
  dsimp only
  (repeat' split) <;> simp

/-! ### Reads with an effect -/

@[simp] theorem regClear_pending (s : State) (off : Nat) : (regClear s off).pending = s.pending := by
  unfold regClear
  (repeat' split) <;> simp

/-! ### Rings and windows -/

@[simp] theorem crCtlWrite_pending (b : BarAcc) (v : Word) (s : State) : (crCtlWrite b v s).pending = s.pending := by
  unfold crCtlWrite
  dsimp only
  split <;> simp

@[simp] theorem crTailWrite_pending (b : BarAcc) (v : Word) (readOk : Bool) (s : State) :
    (crTailWrite b v readOk s).pending = s.pending := rfl

theorem writeReply_pending {drop : State → State} (h : ∀ u, (drop u).pending = u.pending) (ok : Bool) (x : Reply)
    (vector : Option (BitVec 4)) (s : State) : (writeReply ok x vector drop s).pending = s.pending := by
  unfold writeReply
  split
  · exact h _
  · rfl

@[simp] theorem replyWrite_pending (ok : Bool) (s : State) : (replyWrite ok s).pending = s.pending := by
  unfold replyWrite
  split
  · split
    · exact writeReply_pending (fun _ => modRings_pending ..) _ _ _ _
    · rfl
  · rfl

@[simp] theorem alertWrite_pending (ok : Bool) (s : State) : (alertWrite ok s).pending = s.pending := by
  unfold alertWrite
  split
  · split
    · exact writeReply_pending (fun _ => modRings_pending ..) _ _ _ _
    · rfl
  · rfl

@[simp] theorem jobEventWrite_pending (ok : Bool) (s : State) : (jobEventWrite ok s).pending = s.pending := by
  unfold jobEventWrite
  split
  · split
    · exact writeReply_pending (fun _ => modJob_pending ..) _ _ _ _
    · rfl
  · rfl

@[simp] theorem jtIndexWrite_pending (b : BarAcc) (v : Word) (s : State) : (jtIndexWrite b v s).pending = s.pending := rfl

@[simp] theorem queryRegister_pending (off : Nat) (s : State) : (queryRegister off s).state.pending = s.pending := by
  unfold queryRegister
  split <;> simp

@[simp] theorem queryJob_pending (j : JobId) (s : State) : (queryJob j s).state.pending = s.pending := rfl

@[simp] theorem undefinedOpcode_pending (h : PktHdr) (o : Byte) (s : State) : (undefinedOpcode h o s).pending = s.pending := by
  unfold undefinedOpcode
  split
  · rfl
  · exact onPacket_pending (fun _ => rfl) _ _ _ _

@[simp] theorem barRead_pending (b : BarAcc) (off : Nat) (s : State) : (barRead b off s).pending = s.pending := by
  unfold barRead
  (repeat' split) <;> simp

@[simp] theorem hwinWrite_pending (b : BarAcc) (i : Fin 16) (v : Word) (s : State) : (hwinWrite b i v s).pending = s.pending := by
  unfold hwinWrite
  dsimp only
  split <;> simp

@[simp] theorem hostAccess_pending (x : HostAcc) (s : State) : (hostAccess x s).pending = s.pending := by
  unfold hostAccess
  dsimp only
  (repeat' split) <;> simp

@[simp] theorem pcieTrain_pending (flitMode : Bool) (s : State) : (pcieTrain flitMode s).pending = s.pending := by
  unfold pcieTrain
  (repeat' split) <;> simp

@[simp] theorem configRequest_pending (write : Bool) (off : Nat) (v : BitVec 32) (s : State) :
    (configRequest write off v s).pending = s.pending := by
  unfold configRequest
  (repeat' split) <;> simp

/-! ### Digests -/

@[simp] theorem digCtlWrite_pending (b : BarAcc) (v : Word) (s : State) : (digCtlWrite b v s).pending = s.pending := by
  unfold digCtlWrite
  dsimp only
  (repeat' split) <;> simp

@[simp] theorem digestDone_pending (s : State) : (digestDone s).pending = s.pending := by
  unfold digestDone
  dsimp only
  (repeat' split) <;> simp

/-! ### Boot, life cycle and SPDM -/

@[simp] theorem modIdent_pending (s : State) (f : Ident → Ident) : (modIdent s f).pending = s.pending := rfl

@[simp] theorem bootCheck_pending (s : State) : (bootCheck s).pending = s.pending := by
  unfold bootCheck
  dsimp only
  (repeat' split) <;> simp

@[simp] theorem bootCtlWrite_pending (x : Nat) (s : State) : (bootCtlWrite x s).pending = s.pending := by
  unfold bootCtlWrite
  split <;> simp

@[simp] theorem stagingWrite_pending (o : Nat) (bs : List Byte) (s : State) : (stagingWrite o bs s).pending = s.pending := by
  unfold stagingWrite
  split <;> simp

@[simp] theorem svnAdvance_pending (s : State) : (svnAdvance s).pending = s.pending := by
  unfold svnAdvance
  split <;> simp

@[simp] theorem ideOnlySet_pending (s : State) : (ideOnlySet s).pending = s.pending := rfl

@[simp] theorem secCtlWrite_pending (x : Nat) (s : State) : (secCtlWrite x s).pending = s.pending := by
  unfold secCtlWrite
  (repeat' split) <;> simp

@[simp] theorem freshNonce_pending (s : State) : (freshNonce s).pending = s.pending := rfl
@[simp] theorem lcRefuse_pending (st : Status) (s : State) : (lcRefuse st s).pending = s.pending := rfl
@[simp] theorem lcAccept_pending (dst : BitVec 3) (s : State) : (lcAccept dst s).pending = s.pending := rfl

@[simp] theorem lcRequest_pending (dst : BitVec 3) (s : State) : (lcRequest dst s).pending = s.pending := by
  unfold lcRequest
  dsimp only
  (repeat' split) <;> simp

@[simp] theorem lcReqWrite_pending (x : Nat) (s : State) : (lcReqWrite x s).pending = s.pending := by
  unfold lcReqWrite
  split <;> simp

@[simp] theorem modSpdm_pending (s : State) (f : Spdm → Spdm) : (modSpdm s f).pending = s.pending := rfl

theorem spdmServe_pending {f : State → State} (h : ∀ u, (f u).pending = u.pending) (s : State) :
    (spdmServe f s).pending = s.pending := by
  unfold spdmServe
  split
  · exact h s
  · rfl

@[simp] theorem spdmSay_pending (x : SpdmRsp) (s : State) : (spdmSay x s).pending = s.pending := rfl
@[simp] theorem getVersion_pending (s : State) : (getVersion s).pending = s.pending := rfl

@[simp] theorem getCapabilities_pending (s : State) : (getCapabilities s).pending = s.pending := by
  unfold getCapabilities
  split <;> simp

@[simp] theorem negotiate_pending (s : State) : (negotiate s).pending = s.pending := by
  unfold negotiate
  split <;> simp

@[simp] theorem spdmMeasure_pending (index : Byte) (signed : Bool) (nonce : BitVec 256) (s : State) :
    (spdmMeasure index signed nonce s).pending = s.pending := by
  unfold spdmMeasure
  (repeat' split) <;> simp

@[simp] theorem spdmExchange_pending (session : BitVec 16) (exchange : List Byte) (s : State) :
    (spdmExchange session exchange s).pending = s.pending := by
  unfold spdmExchange
  (repeat' split) <;> simp

@[simp] theorem spdmFinishOf_pending (verify : List Byte) (s : State) : (spdmFinishOf verify s).pending = s.pending := by
  unfold spdmFinishOf
  (repeat' split) <;> simp

@[simp] theorem spdmBeat_pending (s : State) : (spdmBeat s).pending = s.pending := by
  unfold spdmBeat
  split <;> simp

@[simp] theorem spdmEnd_pending (s : State) : (spdmEnd s).pending = s.pending := by
  unfold spdmEnd
  split <;> simp

@[simp] theorem ideKey_pending (stream : Fin 4) (key : BitVec 256) (s : State) : (ideKey stream key s).pending = s.pending := by
  unfold ideKey
  split <;> simp

/-! ### AUX_SYNC, JTAG and Waton -/

@[simp] theorem auxCtlWrite_pending (b : BarAcc) (v : Word) (s : State) : (auxCtlWrite b v s).pending = s.pending := by
  unfold auxCtlWrite
  dsimp only
  split <;> simp

@[simp] theorem auxEdge_pending (s : State) : (auxEdge s).pending = s.pending := by
  unfold auxEdge
  dsimp only
  (repeat' split) <;> simp

@[simp] theorem modJtag_pending (s : State) (f : Jtag → Jtag) : (modJtag s f).pending = s.pending := by
  unfold modJtag
  split <;> simp

@[simp] theorem tapLoad_pending (i : TapInstr) (s : State) : (tapLoad i s).pending = s.pending := by
  unfold tapLoad
  simp

@[simp] theorem tapIdcode_pending (s : State) : (tapIdcode s).pending = s.pending := by
  unfold tapIdcode
  simp

@[simp] theorem tapSample_pending (pins shift : BitVec 17) (s : State) : (tapSample pins shift s).pending = s.pending := by
  unfold tapSample
  simp

@[simp] theorem tapExtest_pending (pins shift : BitVec 17) (s : State) : (tapExtest pins shift s).pending = s.pending := by
  unfold tapExtest
  simp

@[simp] theorem modWtn_pending (s : State) (f : Waton → Waton) : (modWtn s f).pending = s.pending := rfl
@[simp] theorem wtnSay_pending (x : WtnOut) (s : State) : (wtnSay x s).pending = s.pending := rfl

theorem wtnServe_pending {f : State → State} (h : ∀ u, (f u).pending = u.pending) (s : State) : (wtnServe f s).pending = s.pending := by
  unfold wtnServe
  split
  · exact h s
  · rfl

@[simp] theorem entdaa_pending (addr : BitVec 7) (s : State) : (entdaa addr s).pending = s.pending := by
  unfold entdaa
  split <;> simp

@[simp] theorem rstdaa_pending (s : State) : (rstdaa s).pending = s.pending := rfl

@[simp] theorem wtnEvents_pending (f : Byte → Byte) (s : State) : (wtnEvents f s).pending = s.pending := by
  unfold wtnEvents
  split <;> simp

/-! ### Register writes -/

@[simp] theorem lrxWrite_pending (i : Fin 8) (x : Nat) (s : State) : (lrxWrite i x s).pending = s.pending := by
  unfold lrxWrite
  dsimp only
  split <;> simp

@[simp] theorem fabGrpWrite_pending (x : Nat) (s : State) : (fabGrpWrite x s).pending = s.pending := rfl

@[simp] theorem digRangeWrite_pending (o x : Nat) (s : State) : (digRangeWrite o x s).pending = s.pending := by
  unfold digRangeWrite
  simp [apply_ite State.pending]

@[simp] theorem capWrite_pending (b : BarAcc) (o : Nat) (v : Word) (s : State) : (capWrite b o v s).pending = s.pending := by
  unfold capWrite
  (repeat' split) <;> simp

@[simp] theorem mgtWrite_pending (b : BarAcc) (o : Nat) (v : Word) (s : State) : (mgtWrite b o v s).pending = s.pending := by
  unfold mgtWrite
  dsimp only
  (repeat' split) <;> simp

@[simp] theorem supplyStatWrite_pending (x : Nat) (s : State) : (supplyStatWrite x s).pending = s.pending := rfl

@[simp] theorem aonWrite_pending (b : BarAcc) (o : Nat) (v : Word) (s : State) : (aonWrite b o v s).pending = s.pending := by
  unfold aonWrite
  dsimp only
  (repeat' split) <;> simp

@[simp] theorem memRegWrite_pending (b : BarAcc) (k : Fin 8) (o : Nat) (v : Word) (s : State) :
    (memRegWrite b k o v s).pending = s.pending := by
  unfold memRegWrite
  (repeat' split) <;> simp

@[simp] theorem memcWrite_pending (b : BarAcc) (o : Nat) (v : Word) (s : State) : (memcWrite b o v s).pending = s.pending := by
  unfold memcWrite
  split <;> simp

@[simp] theorem fabWrite_pending (b : BarAcc) (o : Nat) (v : Word) (s : State) : (fabWrite b o v s).pending = s.pending := by
  unfold fabWrite
  (repeat' split) <;> simp

@[simp] theorem ioWrite_pending (b : BarAcc) (io1 : Bool) (o : Nat) (v : Word) (s : State) :
    (ioWrite b io1 o v s).pending = s.pending := by
  unfold ioWrite
  (repeat' split) <;> simp

@[simp] theorem cgWrite_pending (b : BarAcc) (r : RegionId) (o : Nat) (v : Word) (s : State) :
    (cgWrite b r o v s).pending = s.pending := by
  unfold cgWrite
  split <;> simp

@[simp] theorem chPop_pending (c : CoreId) (e : Fin 32) (s : State) : (chPop c e s).pending = s.pending := by
  unfold chPop
  dsimp only
  (repeat' split) <;> simp

@[simp] theorem chOpenCfg_pending (c : CoreId) (e : Fin 32) (s : State) : (chOpenCfg c e s).pending = s.pending := by
  unfold chOpenCfg
  dsimp only
  split <;> simp

@[simp] theorem chCmdWrite_pending (c : CoreId) (x : Nat) (s : State) : (chCmdWrite c x s).pending = s.pending := by
  unfold chCmdWrite
  (repeat' split) <;> simp

@[simp] theorem coreWrite_pending (b : BarAcc) (c : CoreId) (o : Nat) (v : Word) (s : State) :
    (coreWrite b c o v s).pending = s.pending := by
  unfold coreWrite
  (repeat' split) <;> simp

@[simp] theorem regWrite_pending (b : BarAcc) (off : Nat) (v : Word) (s : State) : (regWrite b off v s).pending = s.pending := by
  unfold regWrite
  split <;> simp

@[simp] theorem barRegWrite_pending (b : BarAcc) (off : Nat) (v : Word) (s : State) : (barRegWrite b off v s).pending = s.pending := by
  unfold barRegWrite
  (repeat' split) <;> try rfl
  exact barWrite_pending (fun _ => regWrite_pending ..) _ _

@[simp] theorem wtnWrite_pending (bytes : List Byte) (s : State) : (wtnWrite bytes s).pending = s.pending := by
  unfold wtnWrite
  dsimp only
  split <;> simp

@[simp] theorem wtnRead_pending (bytes : List Byte) (s : State) : (wtnRead bytes s).pending = s.pending := by
  unfold wtnRead
  dsimp only
  split <;> simp

/-! ### The idle step -/

@[simp] theorem idleHolds_pending (s : State) : (idleHolds s).pending = s.pending := by
  unfold idleHolds
  refine foldl_pending (fun _ _ => ?_) _ _
  split <;> simp

/-! ### Commands and steps -/

theorem runIssue_pending {i : Instr} {x : Issue} (hx : issueOf i = some x) (s : State) : (runIssue x i s).pending = s.pending := by
  unfold runIssue
  split
  · split
    · simp
    · split
      · exact fenceCore_pending ..
      · exact effect_pending hx s
  · rfl

/-- A next state with the queue of `s` is what an outcome of the next state `u` gives, where `u` has that queue. -/
theorem pending_of_next {u s t : State} (h : (.next u : Host.Outcome State Fault Refusal) = .next t) (hu : u.pending = s.pending) :
    t.pending = s.pending := by
  cases h
  exact hu

/-- A command that no slot holds leaves the queue: its packet, its write, its request or its event does. -/
theorem command_pending {i : Instr} {s t : State} (h : issueOf i = none) (ht : exec i s = .next t) : t.pending = s.pending := by
  cases i <;> cases h <;> refine pending_of_next ht ?_
  case submitGraph | startRelease | startResume | fenceCancel | fenceStop | loadConfigLoad | loadConfigUnload | commitOpen |
      commitStage | commitCommit | commitDiscard | stepAdvance | snapshotPlan | snapshotWaitCaptured | snapshotWaitComplete |
      restoreLocal | restoreVerify | restoreForward | setWheel | wipeDram | wipeOnDie | queryRegister | queryJobEntry =>
    exact onPacket_pending (fun _ => by simp) _ _ _ _
  case portRetrain | clkReqGo | cgClkctlWrite | tallyClear | selfTestRequest | wheelApply | memcDecodeWrite | sleepRequest |
      thermTripClear | supplyStatClear | refRecover | pwrResetCold | pwrResetWarm | crCtlWrite | crTailWrite | jtIndexWrite |
      hwinWrite | digestStart | svnAdvance | ideOnlySet | lifecycleRequest | auxCtlWrite | wabClearingLoad | chCmdOpen |
      chCmdClose | chCmdPop =>
    exact barWrite_pending (fun _ => by simp) _ _
  case getVersion | getCapabilities | negotiateAlgorithms | getMeasurements | keyExchange | spdmFinish | spdmHeartbeat | endSession
      | ideKmRequest =>
    exact spdmServe_pending (fun _ => by simp) _
  case getpid | getbcr | getdcr | getmxds | watonWrite | watonRead | getstatus => exact wtnServe_pending (fun _ => by simp) _
  case combineNarrow | combineWideRow => exact combCommand_pending _ _ _ (fun _ => by simp)
  case memTripClear => rw [serveWaits_pending, barWrite_pending (fun _ => by simp)]
  case layerStart => split <;> simp [settleFaults_pending]
  case discardNotice => simp [settleFaults_pending]
  case setClock =>
    split
    · rw [clkSettle_pending, onPacket_pending (fun _ => by simp)]
    · rw [onPacket_pending (fun _ => by simp)]
  all_goals simp

/-- A slot instruction that is not refused runs its issue, which leaves the queue. -/
theorem slot_pending {i : Instr} {x : Issue} {s t : State} (hx : issueOf i = some x) (ht : exec i s = .next t) : t.pending = s.pending := by
  cases hw : i.wf with
  | true => exact pending_of_next ((exec_slot s hx hw).symm.trans ht) (runIssue_pending hx s)
  | false =>
    obtain ⟨m, hm⟩ := exec_of_not_wf s hw
    cases hm.symm.trans ht

theorem exec_pending {i : Instr} {s t : State} (ht : exec i s = .next t) : t.pending = s.pending := by
  cases hx : issueOf i with
  | none => exact command_pending hx ht
  | some x => exact slot_pending hx ht

theorem idle_pending (s : State) : (idle s).pending = s.pending := by
  unfold idle
  dsimp only
  (repeat' split) <;> simp

/-- Settles O60: with no command waiting the block idles; else the front command runs on the state with the queue's rest. No function
of the model changes the queue. -/
theorem commandsWaitInOrder : Obligations.CommandsWaitInOrder := by
  unfold Obligations.CommandsWaitInOrder
  intro s t h
  unfold step at h
  split at h
  · rename_i hp
    rw [pending_of_next h (idle_pending s), hp]
    rfl
  · rename_i c rest hp
    rw [exec_pending h, hp]
    rfl

/-- Settles O1: a step takes the command at the front of the queue apart from its rest. -/
theorem stepRunsFrontCommand : Obligations.StepRunsFrontCommand := fun _ _ _ => rfl

end Sys2Proof.Machine

/-! SUPPORT. The registers at reset: every like unit of the device holds its reset value. -/

namespace Sys2Proof.Machine

theorem regionAt_reset (r : RegionId) : regionAt State.reset r = resetRegion := get_replicate ..
theorem coreAt_reset (c : CoreId) : coreAt State.reset c = resetCore := get_replicate ..
theorem groupAt_reset (g : Fin 16) : groupAt State.reset g = resetGroup := get_replicate ..
theorem memAt_reset (k : StackId) : memAt State.reset k = resetMem := get_replicate ..
theorem portAt_reset (p : PortId) : portAt State.reset p = resetPort := get_replicate ..

theorem sreg_reset (r : SReg) : sreg resetCore r = 0 := by
  unfold sreg
  split
  · rfl
  · exact get_replicate ..

theorem tileOf_reset (t : TReg) : tileOf resetCore t = resetTile := get_replicate ..
theorem qOf_reset (q : QId) : qOf resetCore q = resetQueue := get_replicate ..
theorem epOf_reset (e : Fin 32) : epOf resetCore e = resetEp := get_replicate ..

/-- The reset values of a core and of its units (spec/04 to 10). -/
theorem core_reset :
    (∀ r, sreg resetCore r = 0) ∧ resetCore.seq.run = .idle ∧ resetCore.seq.job = none ∧ resetCore.seq.pc = 0 ∧
    resetCore.reg.seed = 0 ∧ resetCore.reg.step = 0 ∧ resetCore.reg.cvtOvf = false ∧ resetCore.reg.sclEmin = 0xEC ∧
    resetCore.skd.credwd = 0x000C0000 ∧ resetCore.skd.wheel0 = 0xFEDCBA9876543210 ∧ resetCore.store = [] ∧
    (∀ t, (tileOf resetCore t).cfg = { rows := 0x80, rowb := 0b10000, fmt := 0b00011, axis := false } ∧
      (tileOf resetCore t).empty = true) ∧
    (∀ q, (qOf resetCore q).limit = 0 ∧ (qOf resetCore q).esize = 0x3F) ∧
    (∀ e, (epOf resetCore e).isOpen = false ∧ (epOf resetCore e).credits = 0) :=
  ⟨sreg_reset, rfl, rfl, rfl, rfl, rfl, rfl, rfl, rfl, rfl, rfl, fun t => by rw [tileOf_reset]; exact ⟨rfl, rfl⟩,
    fun q => by rw [qOf_reset]; exact ⟨rfl, rfl⟩, fun e => by rw [epOf_reset]; exact ⟨rfl, rfl⟩⟩

/-- The reset values of a memory region: its wheel is that of R230. -/
theorem mem_reset :
    resetMem.dieState = 0 ∧ resetMem.badDie = 0x1F ∧ resetMem.trip = false ∧
      (resetMem.wheel.get 0 = 0x42 ∧ resetMem.wheel.get 21 = 0xC0 ∧ resetMem.wheel.get 1 = 0x40) := by
  refine ⟨rfl, rfl, rfl, ?_, ?_, ?_⟩ <;> exact get_ofFn ..

/-- Settles O57: each like unit holds the reset value of its table. -/
theorem registersAtReset : Obligations.RegistersAtReset := by
  unfold Obligations.RegistersAtReset
  refine ⟨fun r => ?_, fun c => ?_, rfl, rfl, rfl, rfl, rfl, rfl, rfl, fun g => ?_, fun i => ?_, fun k => ?_, rfl, rfl, rfl, rfl, rfl, rfl,
    rfl, rfl, rfl, rfl, rfl, rfl, rfl, rfl, rfl, rfl, rfl, rfl, fun p => ?_, rfl, rfl, rfl, rfl⟩
  · rw [regionAt_reset]
    exact ⟨rfl, rfl, rfl, rfl, rfl, rfl⟩
  · rw [coreAt_reset]
    exact core_reset
  · rw [groupAt_reset]
    exact ⟨rfl, rfl⟩
  · exact congrArg HostWin.en (get_replicate (HostWin.mk ..) i)
  · rw [memAt_reset]
    exact mem_reset
  · rw [portAt_reset]
    exact ⟨rfl, rfl, rfl⟩

end Sys2Proof.Machine

/-! SUPPORT. The SPDM responder: what each request does where it is answered, and where it is out of order (R363 to R365). -/

namespace Sys2Proof.Machine

/-- A request that reaches the responder is answered. -/
theorem spdmServe_of_reached {s : State} (h : hostReaches s = true) (f : State → State) : spdmServe f s = f s := if_pos h

theorem getCapabilities_of_versioned {s : State} (h : s.spdm.versioned = true) : getCapabilities s =
    modSpdm s (fun z => { z with capable := true, out := .capabilities true true true true true true s.ident.idKey }) := if_pos h

theorem getCapabilities_early {s : State} (h : s.spdm.versioned = false) : getCapabilities s = spdmSay .unexpected s :=
  if_neg (by simp [h])

theorem negotiate_of_capable {s : State} (h : s.spdm.capable = true) :
    negotiate s = modSpdm s (fun z => { z with negotiated := true, out := .algorithms }) := if_pos h

section Measurements
variable {s : State} {index : Byte} {nonce : BitVec 256} {bs : List Byte}

theorem spdmMeasure_unsigned (hn : s.spdm.negotiated = true) (hb : measBlocks s index nonce = some bs) :
    spdmMeasure index false nonce s = spdmSay (.measurements bs []) s := by
  simp [spdmMeasure, hn, hb]

theorem spdmMeasure_signed (hn : s.spdm.negotiated = true) (hk : s.ident.idKey = true) (hb : measBlocks s index nonce = some bs) :
    spdmMeasure index true nonce s =
      spdmSay (.measurements bs (Config.mldsaSign (idSeed s) (bs ++ leBytes 32 nonce.toNat) s.free)) { s with free := s.free + 1 } := by
  simp [spdmMeasure, hn, hk, hb]

/-- A device whose identity key is gone signs nothing (R364). -/
theorem spdmMeasure_keyless (hn : s.spdm.negotiated = true) (hk : s.ident.idKey = false) :
    spdmMeasure index true nonce s = spdmSay .unsupported s := by
  simp [spdmMeasure, hn, hk]

end Measurements

section Sessions
variable {s : State} {sid : BitVec 16} {ex vd : List Byte}

theorem spdmExchange_keyless (hn : s.spdm.negotiated = true) (hk : s.ident.idKey = false) :
    spdmExchange sid ex s = spdmSay .unsupported s := by
  simp [spdmExchange, hn, hk]

theorem spdmExchange_of_idle (hn : s.spdm.negotiated = true) (hk : s.ident.idKey = true) (hs : s.spdm.session = none) :
    spdmExchange sid ex s = modSpdm { s with free := s.free + 1 } (fun z =>
      { z with session := some sid, established := false, exchange := ex
               out := .keyExchange (Config.dheShare s.free) (Config.mldsaSign (idSeed s) (ex ++ Config.dheShare s.free) s.free) }) := by
  simp [spdmExchange, hn, hk, hs]

/-- One session at a time (R363). -/
theorem spdmExchange_of_busy (hn : s.spdm.negotiated = true) (hk : s.ident.idKey = true) (hs : s.spdm.session ≠ none) :
    spdmExchange sid ex s = spdmSay .busy s := by
  simp [spdmExchange, hn, hk, Option.isSome_iff_ne_none.2 hs]

theorem spdmFinish_of_exchanged (hs : s.spdm.session ≠ none) (he : s.spdm.established = false) (hk : s.ident.idKey = true) :
    spdmFinishOf vd s = if Config.finishOk s.spdm.exchange vd then modSpdm s (fun z => { z with established := true, out := .finish })
      else modSpdm s (fun z => { z with session := none, out := .decryptError }) := by
  simp [spdmFinishOf, hs, he, hk]

theorem spdmBeat_eq (s : State) :
    spdmBeat s = modSpdm s (fun z => { z with out := if z.established = true then .heartbeat else .unexpected }) := by
  cases h : s.spdm.established <;> simp [spdmBeat, spdmSay, modSpdm, h]

theorem spdmEnd_of_established (h : s.spdm.established = true) :
    spdmEnd s = modSpdm s (fun z => { z with session := none, established := false, out := .ended }) := if_pos h

theorem spdmEnd_early (h : s.spdm.established = false) : spdmEnd s = spdmSay .unexpected s := if_neg (by simp [h])

theorem ideKey_of_established (h : s.spdm.established = true) (k : Fin 4) (key : BitVec 256) : ideKey k key s =
    modSpdm s (fun z => { z with ide := z.ide.set k.val (some key) k.isLt, out := .keyed k }) := if_pos h

theorem ideKey_early (h : s.spdm.established = false) (k : Fin 4) (key : BitVec 256) : ideKey k key s = spdmSay .unexpected s :=
  if_neg (by simp [h])

end Sessions

/-- Settles O52: each request reaches the responder, and its state decides between the answer and a refusal. -/
theorem spdmSessions : Obligations.SpdmSessions := by
  unfold Obligations.SpdmSessions
  intro index nonce key sid ex vd bs k s hr
  have run (f : State → State) {t : State} (h : f s = t) :
      (.next (spdmServe f s) : Host.Outcome State Fault Refusal) = .next t := congrArg _ ((spdmServe_of_reached hr f).trans h)
  refine ⟨run _ rfl, fun h => run _ (getCapabilities_of_versioned h), fun h => run _ (getCapabilities_early h),
    fun h => run _ (negotiate_of_capable h), fun hn hb => run _ (spdmMeasure_unsigned hn hb),
    fun hn hk hb => ⟨_, run _ (spdmMeasure_signed hn hk hb)⟩,
    fun hn hk => ⟨run _ (spdmMeasure_keyless hn hk), run _ (spdmExchange_keyless hn hk)⟩,
    fun hn hk hs => ⟨_, _, run _ (spdmExchange_of_idle hn hk hs)⟩, fun hn hk hs => run _ (spdmExchange_of_busy hn hk hs),
    fun hs he hk => ?_, run _ (spdmBeat_eq s), fun h => ⟨run _ (spdmEnd_of_established h), run _ (ideKey_of_established h k key)⟩,
    fun h => ⟨run _ (spdmEnd_early h), run _ (ideKey_early h k key)⟩⟩
  refine (run _ (spdmFinish_of_exchanged hs he hk)).trans ?_
  split <;> rfl

end Sys2Proof.Machine

/-! SUPPORT. The board's side: the edge of AUX_SYNC, the Waton target and the JTAG port (R298, R299, R374, R383). -/

namespace Sys2Proof.Machine

/-! ### AUX_SYNC -/

/-- A barrier that a tree child has not reached stays as it is (R306). -/
theorem barCheck_of_absent {b : Fin 8} {s : State} (h : ∃ p ∈ s.fabric.kids, p ∉ (barAt s b).kids) : barCheck b s = s := by
  obtain ⟨p, hp, hn⟩ := h
  have hall : s.fabric.kids.all (fun p => (barAt s b).kids.contains p) = false := List.all_eq_false.2 ⟨p, hp, by simpa using hn⟩
  unfold barCheck
  dsimp only
  rw [hall]
  simp

@[simp] theorem barAt_modBar (s : State) (b : Fin 8) (f : Barrier → Barrier) : barAt (modBar s b f) b = f (barAt s b) := get_set_self ..

/-- The state once AUX_SYNC has risen. -/
def auxRisen (s : State) : State := modPower s (fun p => { p with auxLevel := true })

/-- An edge while AUX_SYNC gates no barrier. -/
theorem auxEdge_of_ungated {s : State} (ha : s.power.aon = true) (hr : s.power.resetLow = false) (hb : s.power.auxBar = false) :
    auxEdge s = auxRisen s := by
  simp [auxEdge, auxRisen, ha, hr, hb]

/-- An edge brings the gated barrier's own arrival where its condition holds (R374). -/
theorem auxEdge_of_gated {b : Fin 8} {s : State} (ha : s.power.aon = true) (hr : s.power.resetLow = false) (hb : s.power.auxBar = true)
    (hn : s.power.auxBarrier = BitVec.ofNat 3 b.val) (hc : barCondition s b = true) (hm : mgtRuns s = true) :
    auxEdge s = barCheck b (modBar (auxRisen s) b (fun x => { x with selfIn := true })) := by
  have hi : Fin.ofNat 8 s.power.auxBarrier.toNat = b := by rw [hn]; ext; simp
  have hcond : (s.power.auxBar && barCondition (auxRisen s) b && mgtRuns (auxRisen s)) = true :=
    Bool.and_eq_true_iff.2 ⟨Bool.and_eq_true_iff.2 ⟨hb, hc⟩, hm⟩
  unfold auxEdge
  dsimp only
  rw [if_pos (by simp [ha, hr]), hi]
  exact if_pos hcond

/-! ### The Waton target -/

theorem wtnServe_of_addressed {s : State} (h : s.wtn.valid = true) (f : State → State) : wtnServe f s = f s := if_pos h

/-- A target without an address acknowledges no transfer (R298). -/
theorem wtnServe_of_absent {s : State} (h : s.wtn.valid = false) (f : State → State) : wtnServe f s = wtnSay .nack s :=
  if_neg (by simp [h])

theorem wtnWrite_of_named {bytes : List Byte} {s : State} (hl : bytes.length = 13) (hh : bytes.head? = some 0x02)
    (hc : chainWritable (leNat ((bytes.drop 1).take 4)) = true) : wtnWrite bytes s =
      regWrite { lanes := .all, keyed := true } (leNat ((bytes.drop 1).take 4)) (BitVec.ofNat 64 (leNat (bytes.drop 5))) (wtnSay .ack s) :=
  if_pos ⟨hl, hh, hc⟩

theorem wtnRead_of_named {bytes : List Byte} {s : State} (hl : bytes.length = 5) (hh : bytes.head? = some 0x01)
    (hc : chainReadable (leNat (bytes.drop 1)) = true) : wtnRead bytes s =
      regClear (wtnSay (.bytes (leBytes 8 (regRead s (leNat (bytes.drop 1))))) s) (leNat (bytes.drop 1)) :=
  if_pos ⟨hl, hh, hc⟩

theorem entdaa_of_joining {s : State} (hm : mgtRuns s = true) (hv : s.wtn.valid = false) (addr : BitVec 7) : entdaa addr s =
    modWtn s (fun w => { w with addr := addr, valid := true, hotJoin := false, out := .bytes (provisionedId s ++ [0x06, 0x00]) }) :=
  if_pos (by simp [hm, hv])

theorem wtnEvents_of_running {s : State} (hm : mgtRuns s = true) (f : Byte → Byte) :
    wtnEvents f s = modWtn s (fun w => { w with events := f w.events, out := .ack }) := if_pos hm

/-- Little-endian bytes are as many as asked for. -/
theorem leBytes_length (n v : Nat) : (leBytes n v).length = n := by
  induction n generalizing v with
  | zero => rfl
  | succ n ih => simp [leBytes, ih]

/-! ### The JTAG port -/

theorem modJtag_of_powered {s : State} (h : s.power.aon = true) (f : Jtag → Jtag) : modJtag s f = { s with jtag := f s.jtag } := if_pos h

/-- The port with an instruction in force, which reaches the lands where `drives`. -/
def withTap (i : TapInstr) (drives : Bool) (s : State) : State := { s with jtag := { s.jtag with ir := i, effective := drives } }

/-- Does an instruction drive or isolate the lands (R383). -/
def tapDrives (i : TapInstr) : Bool := match i with | .extest | .clamp | .highz => true | _ => false

theorem tapLoad_of_powered {s : State} (h : s.power.aon = true) (i : TapInstr) :
    tapLoad i s = withTap i (tapDrives i && s.power.resetLow) s := by
  unfold tapLoad tapDrives withTap
  cases i <;> exact modJtag_of_powered h _

theorem modJtag_withTap {s : State} (h : s.power.aon = true) (i : TapInstr) (drives : Bool) (f : Jtag → Jtag) :
    modJtag (withTap i drives s) f = { s with jtag := f { s.jtag with ir := i, effective := drives } } :=
  modJtag_of_powered (s := withTap i drives s) h f

theorem tapIdcode_of_powered {s : State} (h : s.power.aon = true) :
    tapIdcode s = { s with jtag := { s.jtag with ir := .idcode, effective := false, out := idcodeWord s } } := by
  rw [tapIdcode, tapLoad_of_powered h, modJtag_withTap h]
  rfl

theorem tapSample_of_powered {s : State} (h : s.power.aon = true) (pins shift : BitVec 17) : tapSample pins shift s =
    { s with jtag := { s.jtag with ir := .samplePreload, effective := false, captured := pins, boundary := shift } } := by
  rw [tapSample, tapLoad_of_powered h, modJtag_withTap h]
  rfl

/-- EXTEST takes the lands while RESET_N is low, and else only stands in the instruction register (R383). -/
theorem tapExtest_of_powered {s : State} (h : s.power.aon = true) (pins shift : BitVec 17) : tapExtest pins shift s =
    if s.power.resetLow then { s with jtag := { s.jtag with ir := .extest, effective := true, captured := pins, boundary := shift } }
    else withTap .extest false s := by
  rw [tapExtest, tapLoad_of_powered h, modJtag_withTap h]
  cases hr : s.power.resetLow <;> rfl

/-- Settles O53: the edge of AUX_SYNC by the gate's setting, the target by whether it has an address, the port by the level of
RESET_N. -/
theorem boardInterfaces : Obligations.BoardInterfaces := by
  unfold Obligations.BoardInterfaces
  intro b bytes addr ev pins shift s
  have next {t u : State} (h : t = u) : (.next t : Host.Outcome State Fault Refusal) = .next u := congrArg _ h
  refine ⟨fun ha hr hb => next (auxEdge_of_ungated ha hr hb), fun ha hr hb hn hc hm hk => ?_, fun hv hl hh hc => ?_, fun hv hl hh hc => ?_,
    fun hv i hi => ?_, fun hm hv => next (entdaa_of_joining hm hv addr), rfl,
    fun hm => ⟨next (wtnEvents_of_running hm _), next (wtnEvents_of_running hm _)⟩, fun hv => ?_, fun ha => ?_⟩
  · have habsent : ∃ p ∈ (modBar (auxRisen s) b (fun x => { x with selfIn := true })).fabric.kids,
        p ∉ (barAt (modBar (auxRisen s) b (fun x => { x with selfIn := true })) b).kids := by
      rw [barAt_modBar]
      exact hk
    exact next ((auxEdge_of_gated ha hr hb hn hc hm).trans (barCheck_of_absent habsent))
  · exact next ((wtnServe_of_addressed hv _).trans (wtnWrite_of_named hl hh hc))
  · exact next ((wtnServe_of_addressed hv _).trans (wtnRead_of_named hl hh hc))
  · simp only [List.mem_cons, List.not_mem_nil, or_false] at hi
    rcases hi with rfl | rfl | rfl | rfl | rfl | rfl | rfl <;> exact next (wtnServe_of_absent hv _)
  · have answers (f : State → State) : (.next (wtnServe f s) : Host.Outcome State Fault Refusal) = .next (f s) :=
      next (wtnServe_of_addressed hv f)
    exact ⟨answers _, answers _, answers _, ⟨_, answers _, leBytes_length ..⟩, ⟨_, answers _, leBytes_length ..⟩⟩
  · refine ⟨next (tapLoad_of_powered ha _), next (tapIdcode_of_powered ha), next (tapSample_of_powered ha pins shift),
      fun hr => next ((tapExtest_of_powered ha pins shift).trans (if_pos hr)),
      fun hr => next ((tapExtest_of_powered ha pins shift).trans (if_neg (by simp [hr]))),
      next (tapLoad_of_powered ha _), next (tapLoad_of_powered ha _)⟩

end Sys2Proof.Machine

/-! SUPPORT. The Baswell ports: what a port that goes down does, its lanes, its flits and what it sends when nothing waits (R290 to R295,
R304, R318, R329). -/

namespace Sys2Proof.Machine

/-! ### A port that goes down -/

/-- What the link layer carries: the ports, and the DRAM and power unit that no port's fall may change. -/
def carried (s : State) : Vector Port 10 × ByteMem × Power := (s.ports, s.dram, s.power)

/-- A port once it has stopped carrying traffic (R318). -/
def dropped (state : BitVec 2) (reason : Nat) (q : Port) : Port :=
  { q with state := state, reason := BitVec.ofNat 3 reason, lanes := 0, queue := [], replay := [], credits := Vector.replicate 4 0
           owed := Vector.replicate 4 0, returned := Vector.replicate 4 0, sentMark := false, markAt := none, spareLost := false
           settled := false, asked := none, agreed := none, nakDue := false, nakGot := false, rxGap := false, replays := 0
           peerValid := false }

@[simp] theorem carried_modFabric (s : State) (f : Fabric → Fabric) : carried (modFabric s f) = carried s := rfl
@[simp] theorem carried_modSnap (s : State) (f : Snap → Snap) : carried (modSnap s f) = carried s := rfl
@[simp] theorem carried_loseCommand (o : CoreId × Nat) (s : State) : carried (loseCommand o s) = carried s := rfl

@[simp] theorem carried_answer (a : Awaits) (st : Status) (x : BitVec 192) (s : State) : carried (answer a st x s) = carried s :=
  answer_keeps carried (fun _ _ => rfl) ..

@[simp] theorem carried_fenceJob (j : JobId) (i : FaultInfo) (s : State) : carried (fenceJob j i s) = carried s := by
  rcases fenceJob_cases j i s with ⟨_, h⟩ | ⟨_, _, _, _, h⟩
  · rw [h]
  · have e := congrArg carried h
    exact e

@[simp] theorem carried_signalIbi (st : Status) (s : State) : carried (signalIbi st s) = carried s := by
  unfold signalIbi
  split <;> rfl

@[simp] theorem carried_raiseAlert (st : Status) (x : Word) (s : State) : carried (raiseAlert st x s) = carried s :=
  carried_signalIbi ..

@[simp] theorem carried_snapFail (st : Status) (s : State) : carried (snapFail st s) = carried s := by
  unfold snapFail
  split
  · exact (carried_answer ..).trans (carried_modSnap ..)
  · rfl

@[simp] theorem carried_portEnds (p : PortId) (s : State) : carried (portEnds p s) = carried s := by
  unfold portEnds
  extract_lets s1
  have h1 : carried s1 = carried s := by
    dsimp only [s1]
    split
    · split
      · exact carried_snapFail ..
      · rfl
    · rfl
  split
  · rw [carried_answer, carried_modSnap, h1]
  · exact h1

theorem carried_portDrop (p : PortId) (state : BitVec 2) (reason : Nat) (s : State) :
    carried (portDrop p state reason s) = carried (modPort s p (dropped state reason)) := by
  have hlose (l : List (CoreId × Nat)) : carried (l.foldl (fun u o => loseCommand o u) s) = carried s :=
    foldl_keeps carried (fun u o => loseCommand o u) (fun _ _ => rfl) l s
  have hport {t : State} (h : carried t = carried s) :
      carried (modPort t p (dropped state reason)) = carried (modPort s p (dropped state reason)) := by
    simp only [carried, Prod.mk.injEq] at h
    obtain ⟨hports, hdram, hpower⟩ := h
    simp only [carried, modPort, portAt, hports, hdram, hpower]
  have hends : carried (portEnds p ((portJobs s p).foldl (fun u j => fenceJob j (unitFault .linkDown (ioRegion p) 0 0) u)
      (modPort (modFabric ((portOwners s p).foldl (fun u o => loseCommand o u) s)
        (fun f => { f with moved := f.moved || decide (state ≠ (portAt s p).state) })) p (dropped state reason)))) =
      carried (modPort s p (dropped state reason)) := by
    rw [carried_portEnds, foldl_keeps carried _ (fun _ _ => carried_fenceJob ..), hport]
    rw [carried_modFabric, hlose]
  unfold portDrop
  dsimp only
  split
  · exact (carried_modFabric ..).trans hends
  · exact hends

theorem carried_portDown (p : PortId) (reason : Nat) (s : State) :
    carried (portDown p reason s) = carried (modPort s p (dropped pDown reason)) :=
  (carried_raiseAlert ..).trans (carried_portDrop ..)

theorem portDown_power (p : PortId) (reason : Nat) (s : State) : (portDown p reason s).power = s.power :=
  congrArg (fun x => x.2.2) (carried_portDown p reason s)

/-- An alert that is raised waits with its detail (R254). -/
theorem mem_alertJoin (st : Status) (x : Word) (l : List Alert) : ∃ a ∈ alertJoin st x l, a.status = st ∧ a.detail = x := by
  induction l with
  | nil => exact ⟨_, List.mem_singleton_self _, rfl, rfl⟩
  | cons y r ih =>
    unfold alertJoin
    split
    next h => exact ⟨_, List.mem_cons_self, h, rfl⟩
    next =>
      obtain ⟨a, ha, hs⟩ := ih
      exact ⟨a, List.mem_cons_of_mem _ ha, hs⟩

theorem signalIbi_rings (st : Status) (s : State) : (signalIbi st s).rings = s.rings := by
  unfold signalIbi
  split <;> rfl

theorem raiseAlert_alerts (st : Status) (x : Word) (s : State) : (raiseAlert st x s).rings.alerts = alertJoin st x s.rings.alerts :=
  congrArg Rings.alerts (signalIbi_rings ..)

/-- A port goes down (R318), whatever it held just before. -/
theorem portDown_wentDown {p : PortId} (reason : Nat) {s t : State} (hp : ∀ q, q ≠ p → portAt t q = portAt s q) (hd : t.dram = s.dram) :
    wentDown p reason s (portDown p reason t) := by
  obtain ⟨hports, hrest⟩ := Prod.ext_iff.1 (carried_portDown p reason t)
  have hat (q : PortId) : portAt (portDown p reason t) q = portAt (modPort t p (dropped pDown reason)) q := congrArg (·.get q) hports
  have hself : portAt (portDown p reason t) p = dropped pDown reason (portAt t p) := (hat p).trans (portAt_modPort ..)
  refine ⟨?_, ?_, ?_, ?_, ?_, fun q hq => ?_, ?_, (congrArg Prod.fst hrest).trans hd⟩
  · rw [hself]; rfl
  · rw [hself]; rfl
  · rw [hself]; rfl
  · rw [hself]; rfl
  · rw [hself]; rfl
  · exact ((hat q).trans (portAt_modPort_ne _ _ _ _ hq)).trans (hp q hq)
  · unfold portDown
    rw [raiseAlert_alerts]
    exact mem_alertJoin ..

/-! ### Ports with nothing to send -/

/-- A port with an empty queue has no class to serve. -/
theorem nextClass_of_empty {s : State} {q : Port} (h : q.queue = []) : nextClass s q = none := by
  have hpay (c : Fin 4) : (nextFill s q c).payload = [] := by simp only [nextFill, h, fillFlit]
  simp [nextClass, hpay]

/-- A port with an empty queue sends nothing. -/
theorem pump_of_empty {s : State} {p : PortId} (h : (portAt s p).queue = []) : pump p s = s := by
  have hwait : shareWaits s (portAt s p) = false := by simp [shareWaits, h]
  unfold pump pumpPort
  dsimp only
  rw [nextClass_of_empty h, hwait]
  split <;> rfl

/-- A port that is written with an empty queue sends nothing. -/
theorem pump_modPort_of_empty {s : State} {p : PortId} {f : Port → Port} (h : (f (portAt s p)).queue = []) :
    pump p (modPort s p f) = setPort s p (f (portAt s p)) :=
  pump_of_empty ((congrArg Port.queue (portAt_modPort ..)).trans h)

theorem portAt_setPort (s : State) (p : PortId) (q : Port) : portAt (setPort s p q) p = q := get_set_self ..

/-! ### Training -/

theorem trains_iff {s : State} {p : PortId} :
    (portRuns s p && (portAt s p).en && ((portAt s p).state == pTraining || (portAt s p).state == pDown)) = true ↔
      portRuns s p = true ∧ (portAt s p).en = true ∧ ((portAt s p).state = pTraining ∨ (portAt s p).state = pDown) := by
  simp [and_assoc]

/-- A port once it has come up on the lanes that its training found, with all nine of them usable (R290). -/
def trained (x : Training) (q : Port) : Port :=
  { q with
    state := pUp, settled := true, spareLost := false, lanes := laneMask (bestLanes x.errors x.usable), spareUsed := false
    failedLane := 0xF, reason := 0, peer := x.peer.getD 0, peerValid := x.peer.isSome, replay := [], txNum := 0, rxNum := 0xFFF
    lastAck := 0xFFF, rxGap := false, nakDue := false, nakGot := false, replays := 0, credits := x.credits
    owed := Vector.replicate 4 0, returned := Vector.replicate 4 0, sentMark := false, markAt := none, asked := none, agreed := none }

theorem portTrain_of_few {p : PortId} {x : Training} {s : State} (ht : portRuns s p = true ∧ (portAt s p).en = true ∧
    ((portAt s p).state = pTraining ∨ (portAt s p).state = pDown)) (h : (bestLanes x.errors x.usable).length < 8) :
    portTrain p x s = setPort s p { portAt s p with state := pTraining } := by
  unfold portTrain
  dsimp only
  rw [if_pos (trains_iff.2 ht), if_pos h]
  rfl

theorem portTrain_of_all {p : PortId} {x : Training} {s : State} (ht : portRuns s p = true ∧ (portAt s p).en = true ∧
    ((portAt s p).state = pTraining ∨ (portAt s p).state = pDown)) (hq : (portAt s p).queue = [])
    (h : (bestLanes x.errors x.usable).length = 8) (hall : x.usable = 0x1FF) :
    portTrain p x s = setPort (modFabric s (fun f => { f with moved := true })) p (trained x (portAt s p)) := by
  have hbad : (List.finRange 9).find? (fun l => !x.usable.getLsbD l.val) = none := by rw [hall]; decide
  unfold portTrain
  dsimp only
  rw [if_pos (trains_iff.2 ht), if_neg (by omega), hbad]
  exact pump_modPort_of_empty hq

theorem trainRetry_of_trains {p : PortId} {s : State} (ht : portRuns s p = true ∧ (portAt s p).en = true ∧
    ((portAt s p).state = pTraining ∨ (portAt s p).state = pDown)) : trainRetry p s = setPort s p { portAt s p with
      state := pTraining, settled := true, tries := BitVec.ofNat 16 (satAdd 16 (portAt s p).tries.toNat 1) } :=
  if_pos (trains_iff.2 ht)

theorem portRetrain_of_low {p : PortId} {s : State} (hr : portRuns s p = true) (he : (portAt s p).en = true)
    (hs : (portAt s p).state ≠ pUp) : portRetrain p s = setPort s p { portAt s p with state := pTraining, settled := false } := by
  unfold portRetrain
  rw [if_pos (by simp [hr, he]), if_neg hs]
  rfl

theorem portUp_iff {s : State} {p : PortId} : portUp s p = true ↔ portRuns s p = true ∧ (portAt s p).state = pUp := by
  simp [portUp]

/-- A port that is up goes down and trains (R290, R329). -/
theorem portRetrain_of_up {p : PortId} {s : State} (hu : portUp s p = true) (he : (portAt s p).en = true) :
    portRetrain p s = modPort (portDown p 1 s) p (fun q => { q with state := pTraining, settled := false }) := by
  obtain ⟨hr, hs⟩ := portUp_iff.1 hu
  unfold portRetrain
  rw [if_pos (by simp [hr, he]), if_pos hs]

/-! ### Lanes -/

/-- The only lane with a property is the list of the lanes that have it. -/
theorem filter_finRange_eq_single {n : Nat} {f : Fin n → Bool} {l : Fin n} (h : ∀ m, f m = true ↔ m = l) :
    (List.finRange n).filter f = [l] := by
  have hf : f = fun m => decide (m = l) := funext fun m => Bool.eq_iff_iff.2 ((h m).trans decide_eq_true_iff.symm)
  rw [hf, List.filter_eq, (List.nodup_finRange n).count, if_pos (List.mem_finRange l)]
  rfl

/-- Two lanes with a property stand in a list of at least two. -/
theorem filter_finRange_two {n : Nat} {f : Fin n → Bool} {l m : Fin n} (hl : f l = true) (hm : f m = true) (hne : m ≠ l) :
    ∃ a b r, (List.finRange n).filter f = a :: b :: r := by
  have hml : l ∈ (List.finRange n).filter f := List.mem_filter.2 ⟨List.mem_finRange _, hl⟩
  have hmm : m ∈ (List.finRange n).filter f := List.mem_filter.2 ⟨List.mem_finRange _, hm⟩
  cases hx : (List.finRange n).filter f with
  | nil => rw [hx] at hml; cases hml
  | cons a r =>
    cases r with
    | nil =>
      rw [hx, List.mem_singleton] at hml hmm
      exact absurd (hmm.trans hml.symm) hne
    | cons b r => exact ⟨a, b, r, rfl⟩

/-- The first lane that fails is asked of the peer for a switch to the spare (R291). -/
theorem laneFails_of_plain {p : PortId} {l : Fin 9} {word : Nat} {s : State} (hsp : spareHealthy (portAt s p) = true)
    (hask : (portAt s p).asked = none) (hagr : (portAt s p).agreed = none) :
    laneFails p l word s = setPort s p { portAt s p with asked := some (l, word) } := by
  unfold laneFails
  dsimp only
  exact if_pos (by simp [hsp, hask, hagr])

/-- An active lane whose count of a window is over the threshold (R291). -/
def overThreshold (q : Port) (counts : Vector Nat 9) (l : Fin 9) : Bool :=
  q.lanes.getLsbD l.val && decide (q.laneThr.toNat * 1000 < counts.get l)

theorem overThreshold_iff {q : Port} {counts : Vector Nat 9} {l : Fin 9} :
    overThreshold q counts l = true ↔ q.lanes.getLsbD l.val = true ∧ q.laneThr.toNat * 1000 < counts.get l := by
  simp [overThreshold]

theorem laneWindow_of_none {p : PortId} {counts : Vector Nat 9} {word : Nat} {s : State}
    (h : (List.finRange 9).filter (overThreshold (portAt s p) counts) = []) : laneWindow p counts word s = s := by
  unfold laneWindow
  dsimp only
  split
  · unfold overThreshold at h
    rw [h]
  · rfl

theorem laneWindow_of_single {p : PortId} {counts : Vector Nat 9} {word : Nat} {s : State} {l : Fin 9} (hu : portUp s p = true)
    (h : (List.finRange 9).filter (overThreshold (portAt s p) counts) = [l]) : laneWindow p counts word s = laneFails p l word s := by
  unfold laneWindow
  dsimp only
  rw [if_pos hu]
  unfold overThreshold at h
  rw [h]

theorem laneWindow_of_two {p : PortId} {counts : Vector Nat 9} {word : Nat} {s : State} {a b : Fin 9} {r : List (Fin 9)}
    (hu : portUp s p = true) (h : (List.finRange 9).filter (overThreshold (portAt s p) counts) = a :: b :: r) :
    laneWindow p counts word s = portDown p 2 s := by
  unfold laneWindow
  dsimp only
  rw [if_pos hu]
  unfold overThreshold at h
  rw [h]

/-- A lane that loses signal and counts: an active one, or the idle spare (R291). -/
def losesSignal (q : Port) (lanes : BitVec 9) (l : Fin 9) : Bool :=
  lanes.getLsbD l.val && (q.lanes.getLsbD l.val || (decide (spareLane q = some l) && !q.spareUsed))

theorem losesSignal_iff {q : Port} {lanes : BitVec 9} {l : Fin 9} : losesSignal q lanes l = true ↔
    lanes.getLsbD l.val = true ∧ (q.lanes.getLsbD l.val = true ∨ (spareLane q = some l ∧ q.spareUsed = false)) := by
  simp [losesSignal]

theorem signalLost_of_single {p : PortId} {lanes : BitVec 9} {word : Nat} {s : State} {l : Fin 9} (hu : portUp s p = true)
    (h : (List.finRange 9).filter (losesSignal (portAt s p) lanes) = [l]) : signalLost p lanes word s =
      if (portAt s p).lanes.getLsbD l.val then laneFails p l word s else setPort s p { portAt s p with spareLost := true } := by
  unfold signalLost
  dsimp only
  rw [if_pos hu]
  unfold losesSignal at h
  rw [h]
  rfl

theorem signalLost_of_two {p : PortId} {lanes : BitVec 9} {word : Nat} {s : State} {a b : Fin 9} {r : List (Fin 9)}
    (hu : portUp s p = true) (h : (List.finRange 9).filter (losesSignal (portAt s p) lanes) = a :: b :: r) :
    signalLost p lanes word s = portDown p 5 s := by
  unfold signalLost
  dsimp only
  rw [if_pos hu]
  unfold losesSignal at h
  rw [h]

/-- A port that may exchange control flits (R320). -/
theorem controlFlits_of_up {s : State} {p : PortId} (hu : portUp s p = true) (hl : s.power.lost = false) : controlFlits s p = true := by
  simp [controlFlits, hu, hl]

theorem laneSwitchRequest_of_healthy {p : PortId} {l : Fin 9} {word : Nat} {s : State} (hc : controlFlits s p = true)
    (hl : (portAt s p).lanes.getLsbD l.val = true) (hsp : spareHealthy (portAt s p) = true) :
    laneSwitchRequest p l word s = setPort s p { portAt s p with agreed := some (l, word) } :=
  if_pos (by rw [hc, hl, hsp]; rfl)

theorem laneSwitchAccept_of_asked {p : PortId} {l : Fin 9} {word : Nat} {s : State} (hc : controlFlits s p = true)
    (h : (portAt s p).asked = some (l, word)) :
    laneSwitchAccept p word s = setPort s p { portAt s p with asked := none, agreed := some (l, word) } := by
  unfold laneSwitchAccept
  split
  next m w hm =>
    obtain ⟨rfl, rfl⟩ := Prod.mk.inj (Option.some.inj (h.symm.trans hm))
    exact if_pos ⟨rfl, hc⟩
  next hm => exact absurd (h.symm.trans hm) (by simp)

theorem laneSwitchRetry_of_asked {p : PortId} {l : Fin 9} {w word : Nat} {s : State} (hc : controlFlits s p = true)
    (h : (portAt s p).asked = some (l, w)) : laneSwitchRetry p word s = setPort s p { portAt s p with asked := some (l, word) } := by
  unfold laneSwitchRetry
  split
  next m v hm =>
    obtain ⟨rfl, rfl⟩ := Prod.mk.inj (Option.some.inj (h.symm.trans hm))
    exact if_pos hc
  next hm => exact absurd (h.symm.trans hm) (by simp)

/-- A port whose spare carries the symbols of lane `l` (R291). -/
def switched (l sp : Fin 9) (q : Port) : Port :=
  { q with agreed := none, asked := none, spareUsed := true, failedLane := BitVec.ofNat 4 l.val
           lanes := laneMask (((List.finRange 9).filter (fun m => q.lanes.getLsbD m.val && decide (m ≠ l))) ++ [sp]) }

/-- What the agreed count does: the spare that lost its signal by then is a second failed lane (R329, R331). -/
theorem laneSwitchAtCount_of_agreed {p : PortId} {l sp : Fin 9} {word : Nat} {s : State} (hu : portUp s p = true)
    (ha : (portAt s p).agreed = some (l, word)) (hsp : spareLane (portAt s p) = some sp) : laneSwitchAtCount p s =
      if (portAt s p).spareLost then portDown p 2 s else repairAlert .ok 7 p.val l.val (modPort s p (switched l sp)) := by
  unfold laneSwitchAtCount
  dsimp only
  split
  next m v n hm hn =>
    obtain ⟨rfl, rfl⟩ := Prod.mk.inj (Option.some.inj (ha.symm.trans hm))
    obtain rfl := Option.some.inj (hsp.symm.trans hn)
    rw [if_neg (by simp [hu])]
    rfl
  next hm => exact absurd hsp (hm l word sp ha)

theorem carried_repairAlert (st : Status) (kind unit spare : Nat) (s : State) : carried (repairAlert st kind unit spare s) = carried s :=
  carried_raiseAlert ..

theorem signalIbi_spare (st : Status) (s : State) : (signalIbi st s).spare = s.spare := by
  unfold signalIbi
  split <;> rfl

theorem raiseAlert_spare (st : Status) (x : Word) (s : State) : (raiseAlert st x s).spare = s.spare :=
  signalIbi_spare ..

theorem repairAlert_lastKind (st : Status) (kind unit spare : Nat) (s : State) :
    (repairAlert st kind unit spare s).spare.lastKind = BitVec.ofNat 8 kind :=
  congrArg Spare.lastKind (raiseAlert_spare ..)

/-- A mask gains the bit of a place that it does not hold. -/
theorem getLsbD_mask_add {n : Nat} {a : Nat} {l : Fin n} (h : (BitVec.ofNat n a).getLsbD l.val = false) (m : Fin n) :
    (BitVec.ofNat n (a + 2 ^ l.val)).getLsbD m.val = ((BitVec.ofNat n a).getLsbD m.val || decide (l = m)) := by
  have hpow : BitVec.ofNat n (2 ^ l.val) = BitVec.twoPow n l.val := BitVec.eq_of_toNat_eq (by rw [BitVec.toNat_ofNat, BitVec.toNat_twoPow])
  have hdisj : BitVec.ofNat n a &&& BitVec.twoPow n l.val = 0#n := by
    rw [BitVec.and_twoPow, h]
    rfl
  rw [BitVec.ofNat_add, hpow, BitVec.add_eq_or_of_and_eq_zero _ _ hdisj, BitVec.getLsbD_or, BitVec.getLsbD_twoPow]
  simp [l.isLt, Fin.ext_iff]

theorem getLsbD_foldl_mask {n : Nat} (ls : List (Fin n)) (m : Fin n) : ∀ a : Nat, (∀ l ∈ ls, (BitVec.ofNat n a).getLsbD l.val = false) →
    ls.Nodup → (BitVec.ofNat n (ls.foldl (fun a l => a + 2 ^ l.val) a)).getLsbD m.val =
      ((BitVec.ofNat n a).getLsbD m.val || decide (m ∈ ls)) := by
  induction ls with
  | nil => intro a _ _; simp
  | cons l r ih =>
    intro a ha hn
    obtain ⟨hl, hr⟩ := List.nodup_cons.1 hn
    have hal := ha l List.mem_cons_self
    have hfree : ∀ i ∈ r, (BitVec.ofNat n (a + 2 ^ l.val)).getLsbD i.val = false := fun i hi => by
      have hne : l ≠ i := fun e => hl (e ▸ hi)
      rw [getLsbD_mask_add hal, ha i (List.mem_cons_of_mem _ hi)]
      simp [hne]
    rw [List.foldl_cons, ih _ hfree hr, getLsbD_mask_add hal]
    simp [List.mem_cons, eq_comm, Bool.or_assoc]

/-- A mask holds the lanes of its list. -/
theorem getLsbD_laneMask {ls : List (Fin 9)} (h : ls.Nodup) (m : Fin 9) : (laneMask ls).getLsbD m.val = true ↔ m ∈ ls := by
  unfold laneMask
  rw [getLsbD_foldl_mask ls m 0 (by simp) h]
  simp

/-- The lanes once the spare carries a failed lane's symbols. -/
theorem switched_lanes {q : Port} {l sp : Fin 9} (hsp : spareLane q = some sp) (m : Fin 9) :
    (switched l sp q).lanes.getLsbD m.val = true ↔ (q.lanes.getLsbD m.val = true ∧ m ≠ l) ∨ m = sp := by
  have hidle : q.lanes.getLsbD sp.val = false := by simpa using List.find?_some hsp
  have hn : (((List.finRange 9).filter (fun m => q.lanes.getLsbD m.val && decide (m ≠ l))) ++ [sp]).Nodup := by
    refine List.nodup_append.2 ⟨List.Pairwise.filter _ (List.nodup_finRange 9), List.pairwise_singleton _ sp, fun a ha b hb e => ?_⟩
    rw [List.mem_singleton] at hb
    rw [List.mem_filter, e, hb, hidle] at ha
    exact absurd ha.2 (by simp)
  refine (getLsbD_laneMask hn m).trans ?_
  simp [List.mem_filter]

/-! ### Flits -/

/-- A port after a flit that is discarded (R293). -/
theorem flitReceive_of_bad {p : PortId} {bytes : List Byte} {marked : Bool} {corrected : Nat} {s : State} (hu : portUp s p = true)
    (hb : flitBad bytes marked = true) : flitReceive p bytes marked corrected s = setPort s p { portAt s p with
      fecCorr := BitVec.ofNat 32 (satAdd 32 (portAt s p).fecCorr.toNat corrected)
      crcFail := BitVec.ofNat 16 (satAdd 16 (portAt s p).crcFail.toNat 1)
      rxGap := (portAt s p).rxGap || decide (fieldOf (leNat (bytes.take 4)) 0 2 = 1)
      nakDue := (portAt s p).nakDue || decide (fieldOf (leNat (bytes.take 4)) 0 2 = 1) } := by
  unfold flitReceive
  dsimp only
  rw [if_pos hu, if_pos hb]
  simp only [modPort, setPort, portAt, get_set_self, Vector.set_set]

/-- One more of a class in a vector of counts. -/
theorem set_eq_ofFn {n : Nat} (v : Vector Nat n) (i : Fin n) (x : Nat) :
    v.set i.val x i.isLt = Vector.ofFn (fun c => if c.val = i.val then x else v.get c) := by
  ext j hj
  simp only [Vector.getElem_set, Vector.getElem_ofFn, eq_comm (a := j)]
  rfl

/-- A data flit in order at a port that holds nothing (R293 to R295). -/
theorem flitTake_of_next {p : PortId} {h : Nat} {s : State} (hq : (portAt s p).queue = []) (hr : (portAt s p).replay = [])
    (hd : fieldOf h 0 2 = 1) (hc : fieldOf h 27 3 < 4) (hn : BitVec.ofNat 12 (fieldOf h 2 12) = (portAt s p).rxNum + 1) :
    flitTake p h s = setPort s p { portAt s p with
      rxNum := (portAt s p).rxNum + 1, rxGap := false, nakDue := false, nakGot := (portAt s p).nakGot || bitOf h 26
      owed := Vector.ofFn (fun c => if c.val = fieldOf h 27 2 then (portAt s p).owed.get c + 1 else (portAt s p).owed.get c) } := by
  have hlt : fieldOf h 27 2 < 4 := Nat.mod_lt _ (by decide)
  have hcls : (Fin.ofNat 4 (fieldOf h 27 2)).val = fieldOf h 27 2 := Nat.mod_eq_of_lt hlt
  have howed : (portAt s p).owed.set (Fin.ofNat 4 (fieldOf h 27 2)).val ((portAt s p).owed.get (Fin.ofNat 4 (fieldOf h 27 2)) + 1)
      (Fin.ofNat 4 (fieldOf h 27 2)).isLt =
      Vector.ofFn (fun c => if c.val = fieldOf h 27 2 then (portAt s p).owed.get c + 1 else (portAt s p).owed.get c) := by
    rw [set_eq_ofFn, hcls]
    refine congrArg Vector.ofFn (funext fun c => ?_)
    split
    next e => rw [show Fin.ofNat 4 (fieldOf h 27 2) = c from Fin.ext (hcls.trans e.symm)]
    next => rfl
  have writes {f : Port → Port} {x : Port} (e : f (portAt s p) = x) (hx : x.queue = []) : pump p (modPort s p f) = setPort s p x :=
    (pump_modPort_of_empty (e ▸ hx)).trans (congrArg (setPort s p) e)
  unfold flitTake
  refine writes ?_ hq
  simpa [hd, hc, hn, hr, ackReplay] using howed

/-- A flit that is taken at a port that holds nothing. -/
theorem flitReceive_of_next {p : PortId} {bytes : List Byte} {marked : Bool} {corrected : Nat} {s : State} (hu : portUp s p = true)
    (hb : flitBad bytes marked = false) (hq : (portAt s p).queue = []) (hr : (portAt s p).replay = [])
    (hd : fieldOf (leNat (bytes.take 4)) 0 2 = 1) (hc : fieldOf (leNat (bytes.take 4)) 27 3 < 4)
    (hn : BitVec.ofNat 12 (fieldOf (leNat (bytes.take 4)) 2 12) = (portAt s p).rxNum + 1) :
    flitReceive p bytes marked corrected s = setPort s p { portAt s p with
      fecCorr := BitVec.ofNat 32 (satAdd 32 (portAt s p).fecCorr.toNat corrected)
      rxNum := (portAt s p).rxNum + 1, rxGap := false, nakDue := false
      nakGot := (portAt s p).nakGot || bitOf (leNat (bytes.take 4)) 26
      owed := Vector.ofFn (fun c =>
        if c.val = fieldOf (leNat (bytes.take 4)) 27 2 then (portAt s p).owed.get c + 1 else (portAt s p).owed.get c) } := by
  let s1 := modPort s p (fun q => { q with fecCorr := BitVec.ofNat 32 (satAdd 32 q.fecCorr.toNat corrected) })
  have h1 : portAt s1 p = { portAt s p with fecCorr := BitVec.ofNat 32 (satAdd 32 (portAt s p).fecCorr.toNat corrected) } :=
    portAt_modPort ..
  have htake := flitTake_of_next (p := p) (s := s1) (by rw [h1]; exact hq) (by rw [h1]; exact hr) hd hc (by rw [h1]; exact hn)
  rw [h1] at htake
  have hrecv : flitReceive p bytes marked corrected s = flitTake p (leNat (bytes.take 4)) s1 := by
    unfold flitReceive
    dsimp only
    rw [if_pos hu, if_neg (by simp [hb])]
  rw [hrecv, htake]
  simp only [s1, modPort, setPort, Vector.set_set]

/-- A replay below the eighth (R294). -/
theorem nakReplay_of_few {p : PortId} {s : State} (hu : portUp s p = true) (hn : (portAt s p).nakGot = true)
    (h : (portAt s p).replays < 7) : nakReplay p s = setPort s p { portAt s p with
      nakGot := false, replays := (portAt s p).replays + 1
      replayCnt := BitVec.ofNat 16 (satAdd 16 (portAt s p).replayCnt.toNat 1) } := by
  unfold nakReplay
  dsimp only
  rw [if_pos (by simp [hu, hn]), if_neg (by omega)]
  rfl

/-- The eighth replay without an advance takes the port down (R294). -/
theorem nakReplay_of_eighth {p : PortId} {s : State} (hu : portUp s p = true) (hn : (portAt s p).nakGot = true)
    (h : 7 ≤ (portAt s p).replays) : wentDown p 3 s (nakReplay p s) := by
  unfold nakReplay
  dsimp only
  rw [if_pos (by simp [hu, hn]), if_pos (by omega)]
  exact portDown_wentDown 3 (fun q hq => portAt_modPort_ne _ _ _ _ hq) rfl

/-- A class without credit takes the port down, unless the peer's mark says why (R295). -/
theorem creditStop_of_stopped {p : PortId} {c : Fin 4} {s : State} (hu : portUp s p = true) (hc : (portAt s p).credits.get c = 0)
    (hx : ∃ y ∈ (portAt s p).queue, y.cls = c) (hm : c ≠ 1 ∨ markFresh s (portAt s p) = false) :
    creditStop p c s = portDown p 4 s := by
  have hmark : (decide (c = 1) && markFresh s (portAt s p)) = false := by
    rcases hm with hm | hm
    · rw [decide_eq_false hm, Bool.false_and]
    · rw [hm, Bool.and_false]
  have hany : (portAt s p).queue.any (fun x => decide (x.cls = c)) = true := by simpa using hx
  exact if_pos (by rw [hu, hc, hany, hmark]; rfl)

/-- A port that the peer's control flit gave credits and a mark (R295). -/
def credited (credits : Vector Nat 4) (mark : Bool) (s : State) (q : Port) : Port :=
  { q with credits := Vector.ofFn (fun c => q.credits.get c + credits.get c), markAt := if mark then some s.mgtPeriods else q.markAt }

theorem controlFlit_of_empty {p : PortId} {credits : Vector Nat 4} {mark : Bool} {s : State} (hu : portUp s p = true)
    (hq : (portAt s p).queue = []) :
    controlFlit p credits mark s = sendControl p (setPort s p (credited credits mark s (portAt s p))) :=
  (if_pos hu).trans (congrArg (sendControl p) (pump_modPort_of_empty hq))

theorem portUp_setPort {s : State} {p : PortId} {q : Port} (hu : portUp s p = true) (hs : q.state = (portAt s p).state) :
    portUp (setPort s p q) p = true := by
  obtain ⟨hr, hup⟩ := portUp_iff.1 hu
  exact portUp_iff.2 ⟨hr, by rw [portAt_setPort, hs, hup]⟩

theorem sendControl_of_lost {p : PortId} {s : State} (h : s.power.lost = true) : sendControl p s = s :=
  if_neg (by simp [controlFlits, h])

theorem sendControl_of_up {p : PortId} {q : Port} {s : State} (hu : portUp (setPort s p q) p = true) (h : s.power.lost = false) :
    sendControl p (setPort s p q) = setPort s p { q with
      owed := Vector.ofFn (fun c => q.owed.get c - (creditsDue s q).get c), returned := creditsDue s q
      sentMark := marksPeer (setPort s p q) p } := by
  unfold sendControl
  rw [if_pos (controlFlits_of_up hu h)]
  simp only [modPort, portAt_setPort]
  simp only [setPort, Vector.set_set]
  rfl

/-- A worker takes its parent's time over the link (R304). -/
theorem timeExchange_of_parent {p : PortId} {sent recv peerSent peerRecv : Word} {s : State} (hc : controlFlits s p = true)
    (hm : s.fabric.mgr = false) (hi : s.fabric.idValid = true) (hp : s.fabric.parent.toNat = p.val) :
    timeExchange p sent recv peerSent peerRecv s = modFabric s (fun f => { f with
      time := peerSent + BitVec.ofNat 64 (((recv - sent) - (peerSent - peerRecv)).toNat / 2), tsync := true }) :=
  if_pos (by rw [hc, hm, hi]; simp [hp])

/-- Settles O54: each clause is the rule of its command, a port that goes down by `portDown_wentDown`. -/
theorem portEvents : Obligations.PortEvents := by
  unfold Obligations.PortEvents
  intro b p x l counts lanes word corrected bytes marked cl credits sent recv peerSent peerRecv s
  have next {t u : State} (h : t = u) : (.next t : Host.Outcome State Fault Refusal) = .next u := congrArg _ h
  have falls {t : State} {n : Nat} (h : t = portDown p n s) :
      ∃ u, (.next t : Host.Outcome State Fault Refusal) = .next u ∧ wentDown p n s u :=
    ⟨t, rfl, h ▸ portDown_wentDown n (fun _ _ => rfl) rfl⟩
  intro q trains up ctl seen plain h fec
  refine ⟨fun ht h8 => next (portTrain_of_few ht h8), fun ht hq h8 hall => next (portTrain_of_all ht hq h8 hall),
    fun ht => next (trainRetry_of_trains ht), fun hs hr he hlow => ?_, fun hs hu he => ?_, fun hu hall => ?_,
    fun hu ⟨hsp, hask, hagr⟩ hl => ?_, fun m hu hne hm hl hcm hcl => ?_, fun hu ⟨hsp, hask, hagr⟩ hl hone => ?_, fun hu hl hone => ?_,
    fun m hu hne hm hl => ?_, fun ⟨hu, hlost⟩ hl hsp => next (laneSwitchRequest_of_healthy (controlFlits_of_up hu hlost) hl hsp),
    fun ⟨hu, hlost⟩ hask => next (laneSwitchAccept_of_asked (controlFlits_of_up hu hlost) hask),
    fun w ⟨hu, hlost⟩ hask => next (laneSwitchRetry_of_asked (controlFlits_of_up hu hlost) hask),
    fun sp hu ha hsp hgone => falls ((laneSwitchAtCount_of_agreed hu ha hsp).trans (if_pos hgone)), fun sp hu ha hsp hgone => ?_,
    fun hu hb => next (flitReceive_of_bad hu hb), fun hu hb hq hr hd hc hn => next (flitReceive_of_next hu hb hq hr hd hc hn),
    fun hu hn h7 => next (nakReplay_of_few hu hn h7), fun hu hn h7 => ⟨_, rfl, nakReplay_of_eighth hu hn h7⟩,
    fun hu hc hy hm => falls (creditStop_of_stopped hu hc hy hm), fun hu hq => ⟨fun hlost => ?_, fun hlost => ?_⟩,
    fun ⟨hu, hlost⟩ hm hi hp => next (timeExchange_of_parent (controlFlits_of_up hu hlost) hm hi hp)⟩
  · exact next ((barWrite_of_served hs _).trans (portRetrain_of_low (s := written s) hr he hlow))
  · obtain ⟨_, hreason, hqueue, _, _, _, ⟨a, ha, hst, _⟩, _⟩ :=
      portDown_wentDown (p := p) 1 (s := written s) (fun _ _ => rfl) rfl
    refine ⟨_, next ((barWrite_of_served hs _).trans (portRetrain_of_up (s := written s) hu he)), ?_, ?_, ?_, a, ha, hst⟩
    · rw [portAt_modPort]
    · rw [portAt_modPort]
      exact hreason
    · rw [portAt_modPort]
      exact hqueue
  · refine next (laneWindow_of_none (List.filter_eq_nil_iff.2 fun m _ hm => ?_))
    obtain ⟨ha, hc⟩ := overThreshold_iff.1 hm
    exact absurd hc (Nat.not_lt.2 (hall m ha))
  · exact next ((laneWindow_of_single hu (filter_finRange_eq_single fun m => overThreshold_iff.trans (hl m))).trans
      (laneFails_of_plain hsp hask hagr))
  · obtain ⟨a, c, r, hr⟩ := filter_finRange_two (overThreshold_iff.2 ⟨hl, hcl⟩) (overThreshold_iff.2 ⟨hm, hcm⟩) hne
    exact falls (laneWindow_of_two hu hr)
  · exact next (((signalLost_of_single hu (filter_finRange_eq_single fun m => losesSignal_iff.trans (hone m))).trans (if_pos hl)).trans
      (laneFails_of_plain hsp hask hagr))
  · exact next ((signalLost_of_single hu (filter_finRange_eq_single fun m => losesSignal_iff.trans (hone m))).trans
      (if_neg (by rw [hl]; decide)))
  · obtain ⟨a, c, r, hr⟩ := filter_finRange_two (losesSignal_iff.2 hl) (losesSignal_iff.2 hm) hne
    exact falls (signalLost_of_two hu hr)
  · have hrun := (laneSwitchAtCount_of_agreed hu ha hsp).trans (if_neg (by rw [hgone]; decide))
    obtain ⟨hports, hrest⟩ := Prod.ext_iff.1 (carried_repairAlert .ok 7 p.val l.val (modPort s p (switched l sp)))
    have hself : portAt (repairAlert .ok 7 p.val l.val (modPort s p (switched l sp))) p = switched l sp q :=
      (congrArg (·.get p) hports).trans (portAt_modPort ..)
    refine ⟨_, next hrun, ?_, ?_, fun m => ?_, ?_, repairAlert_lastKind .., congrArg Prod.fst hrest⟩
    · rw [hself]; rfl
    · rw [hself]; rfl
    · rw [hself]; exact switched_lanes hsp m
    · rw [hself]; rfl
  · exact next ((controlFlit_of_empty hu hq).trans (sendControl_of_lost hlost))
  · exact next ((controlFlit_of_empty hu hq).trans (sendControl_of_up (portUp_setPort hu rfl) hlost))

end Sys2Proof.Machine

/-! SUPPORT. Register writes with an effect of their own: the clock control of a region, channel commands of the host, the clearing of
supply faults and sleep requests (R19, R26, R39, R172, R224, R339, R350, R375). -/

namespace Sys2Proof.Machine

/-! ### Clock control -/

theorem avsSend_avsReq (mv : Nat) (s : State) : (avsSend mv s).power.avsReq = BitVec.ofNat 12 mv := rfl

theorem neededMv_of_awake {s : State} (h : awakeRegions s ≠ []) (f : RegionId → Nat) :
    neededMv s f = (awakeRegions s).foldl (fun m r => Nat.max m (clkMv (f r))) 0 + guardMv s (awakeRegions s) := by
  unfold neededMv
  split
  next h' => exact absurd h' h
  next => rfl

/-- What a voltage is needed for does not change when it is asked for. -/
theorem neededMv_avsSend (mv : Nat) {s : State} (h : awakeRegions s ≠ []) (f : RegionId → Nat) :
    neededMv (avsSend mv s) f = neededMv s f := by
  rw [neededMv_of_awake h, neededMv_of_awake (s := avsSend mv s) h]
  rfl

/-- After the update the voltage asked for is the one needed (R345). -/
theorem avsUpdate_avsReq (s : State) :
    (avsUpdate s).power.avsReq.toNat = neededMv (avsUpdate s) (needEntry (avsUpdate s)) % 4096 := by
  unfold avsUpdate
  dsimp only
  split
  next h => rw [h, Nat.mod_eq_of_lt s.power.avsReq.isLt]
  next h =>
    have hawake : awakeRegions s ≠ [] := fun e => h (by unfold neededMv; rw [e])
    rw [avsSend_avsReq, BitVec.toNat_ofNat, neededMv_avsSend _ hawake]
    rfl

theorem avsUpdate_regions (s : State) : (avsUpdate s).regions = s.regions := by
  unfold avsUpdate
  dsimp only
  split <;> rfl

theorem avsUpdate_cores (s : State) : (avsUpdate s).cores = s.cores := by
  unfold avsUpdate
  dsimp only
  split <;> rfl

/-! ### Channel commands of the host -/

/-- What an item that goes its way leaves of an endpoint, beside the messages in transit, and of its core and DRAM. -/
def settledEnd (c : CoreId) (e : Fin 32) (s : State) : Endpoint × Seq × ByteMem :=
  ({ epOf (coreAt s c) e with transit := [] }, (coreAt s c).seq, s.dram)

theorem settledEnd_setEp {f : Endpoint → Endpoint} (hf : ∀ y, { f y with transit := [] } = { y with transit := [] }) (c p : CoreId)
    (e x : Fin 32) (s : State) : settledEnd c e (setEp p x f s) = settledEnd c e s := by
  by_cases hc : c = p
  · subst hc
    unfold settledEnd
    rw [coreAt_setEp]
    by_cases hx : e = x
    · subst hx
      rw [epOf_modEp, hf]
      rfl
    · rw [epOf_modEp_ne _ _ hx]
      rfl
  · have hcore : coreAt (setEp p x f s) c = coreAt s c := coreAt_modCore_ne _ _ _ _ hc
    unfold settledEnd
    rw [hcore]
    rfl

theorem settledEnd_modRegion (c : CoreId) (e : Fin 32) (r : RegionId) (f : Region → Region) (s : State) :
    settledEnd c e (modRegion s r f) = settledEnd c e s := rfl

theorem settledEnd_setTransit (c p : CoreId) (e x : Fin 32) (l : List ChMsg) (s : State) :
    settledEnd c e (setEp p x (fun y => { y with transit := y.transit ++ l }) s) = settledEnd c e s :=
  settledEnd_setEp (f := fun y => { y with transit := y.transit ++ l }) (fun _ => rfl) c p e x s

theorem settledEnd_sendItem (c d : CoreId) (e x : Fin 32) (w : BitVec 29) (gen : BitVec 4) (kind : ChMsgKind) (s : State) :
    settledEnd c e (sendItem d x w gen kind s) = settledEnd c e s := by
  unfold sendItem
  split
  · rfl
  · dsimp only
    rw [apply_ite (settledEnd c e), settledEnd_modRegion, settledEnd_setTransit, ite_self]

theorem settledEnd_openCredits (c : CoreId) (e : Fin 32) (w : BitVec 29) (s : State) :
    settledEnd c e (openCredits c e w s) = settledEnd c e s := by
  unfold openCredits
  split
  · exact settledEnd_sendItem ..
  · rfl

/-- An endpoint with the same settled part: what is told of it, its core and DRAM carries over. -/
theorem settledEnd_eq {c : CoreId} {e : Fin 32} {s t : State} (h : settledEnd c e t = settledEnd c e s) :
    { epOf (coreAt t c) e with transit := [] } = { epOf (coreAt s c) e with transit := [] } ∧ (coreAt t c).seq = (coreAt s c).seq ∧
      t.dram = s.dram := by
  obtain ⟨he, hr⟩ := Prod.ext_iff.1 h
  obtain ⟨hs, hd⟩ := Prod.ext_iff.1 hr
  exact ⟨he, hs, hd⟩

/-- CH_CMD's value for an operation on an endpoint. -/
theorem chCmdBits_fields (op : Nat) (b : BarAcc) (hb : b.lanes = .all) (e : Fin 32) (hop : op < 8) :
    Fin.ofNat 32 (fieldOf (chCmdBits b op e) 0 5) = e ∧ fieldOf (chCmdBits b op e) 5 3 = op := by
  have hbits : chCmdBits b op e = e.val + op * 32 := by
    simp only [chCmdBits, strobes, lanesOf, hb, packFields, List.foldl_cons, List.foldl_nil, BitVec.toNat_ofNat]
    omega
  rw [hbits]
  simp only [fieldOf, Fin.ext_iff, Fin.val_ofNat]
  omega

section
variable {c : CoreId} {e : Fin 32} {x : Nat} {s : State} (hr : regionRuns s (regionOf c) = true) (hh : coreHalted s c = false)
include hr hh

/-- A core that takes a command of the host opens, closes or pops the endpoint named (R224). -/
theorem chCmdWrite_open (hend : Fin.ofNat 32 (fieldOf x 0 5) = e) (hop : fieldOf x 5 3 = 1) : chCmdWrite c x s = chOpenCfg c e s := by
  unfold chCmdWrite
  dsimp only
  rw [if_neg (by simp [hr, hh])]
  simp only [hop, hend]

theorem chCmdWrite_close (hend : Fin.ofNat 32 (fieldOf x 0 5) = e) (hop : fieldOf x 5 3 = 2) (hb : coreBusy (coreAt s c) = false) :
    chCmdWrite c x s = closeEp c e s := by
  unfold chCmdWrite
  dsimp only
  rw [if_neg (by simp [hr, hh]), hop, hend]
  exact if_neg (by rw [hb]; decide)

theorem chCmdWrite_pop (hend : Fin.ofNat 32 (fieldOf x 0 5) = e) (hop : fieldOf x 5 3 = 3) : chCmdWrite c x s = chPop c e s := by
  unfold chCmdWrite
  dsimp only
  rw [if_neg (by simp [hr, hh])]
  simp only [hop, hend]

end

/-- An endpoint once it has been opened with the word `w` (R207). -/
def openedEnd (w : BitVec 29) (y : Endpoint) : Endpoint :=
  { y with
    word := w, isOpen := true, credits := 0, occ := 0, gen := if chRecv w then y.gen + 1#4 else y.gen
    creditGen := 0, peerClosed := false, pos := 0, flag := 0, held := [] }

theorem seq_setEp (c : CoreId) (e : Fin 32) (f : Endpoint → Endpoint) (s : State) :
    (coreAt (setEp c e f s) c).seq = (coreAt s c).seq := by rw [coreAt_setEp]; rfl

/-- A receive end that opens from its configuration (R207, R224). -/
theorem settledEnd_chOpenCfg {c : CoreId} {e : Fin 32} {s : State} (hb : coreBusy (coreAt s c) = false)
    (hr : chRecv (epOf (coreAt s c) e).word = true) (hf : openFault s c e (epOf (coreAt s c) e).word.toNat = none) :
    ∃ u, settledEnd c e u = settledEnd c e s ∧ chOpenCfg c e s = openEp c e (epOf (coreAt s c) e).word u :=
  ⟨openCredits c e (epOf (coreAt s c) e).word s, settledEnd_openCredits .., if_pos (by rw [hb, hr, hf]; rfl)⟩

/-- An endpoint that closes: what it held is gone (R210, R224). -/
theorem settledEnd_closeEp {c : CoreId} {e : Fin 32} {s : State} (h : (epOf (coreAt s c) e).isOpen = true) :
    settledEnd c e (closeEp c e s) =
      settledEnd c e (setEp c e (fun y => { y with isOpen := false, credits := 0, occ := 0, held := [] }) s) := by
  unfold closeEp
  dsimp only
  rw [if_pos h]
  split
  · rw [foldl_keeps (settledEnd c e) _ (fun _ _ => settledEnd_sendItem ..), settledEnd_sendItem]
  · rfl

/-- A register-mode endpoint that is popped gives its oldest message away (R224). -/
theorem settledEnd_chPop {c : CoreId} {e : Fin 32} {d : Desc} {rest : List Desc} {s : State} (ho : (epOf (coreAt s c) e).isOpen = true)
    (hr : chRecv (epOf (coreAt s c) e).word = true) (hl : chLand (epOf (coreAt s c) e).word = 0)
    (hh : (epOf (coreAt s c) e).held = d :: rest) :
    settledEnd c e (chPop c e s) = settledEnd c e (setEp c e (fun y => { y with held := rest, occ := y.occ - 1 }) s) := by
  unfold chPop
  dsimp only
  rw [hh]
  dsimp only
  rw [if_pos (by rw [ho, hr, hl]; rfl)]
  exact settledEnd_sendItem ..

/-! ### Sleep requests and supply faults -/

theorem powAt_setPow (s : State) (n : Fin 28) (p : RegPower) : powAt (setPow s n p) n = p := get_set_self ..

theorem powAt_setPow_ne (s : State) {m n : Fin 28} (p : RegPower) (h : m ≠ n) : powAt (setPow s n p) m = powAt s m := get_set_other _ _ _ _ h

/-- Changes of the power unit alone that leave the sleep requests. -/
def unpowered (s : State) : BitVec 26 × Vector Region 17 × Vector Core 68 × ByteMem := (s.power.sleepReq, s.regions, s.cores, s.dram)

theorem unpowered_wakeQueue (n : Fin 28) (s : State) : unpowered (wakeQueue n s) = unpowered s := by
  unfold wakeQueue
  split <;> rfl

theorem unpowered_sleepAsk (old new : Nat) (s : State) (n : Fin 26) : unpowered (sleepAsk old new s n) = unpowered s := by
  unfold sleepAsk
  dsimp only
  split
  · exact unpowered_wakeQueue ..
  · split <;> rfl

theorem powAt_wakeQueue_ne {m n : Fin 28} (h : m ≠ n) (s : State) : powAt (wakeQueue n s) m = powAt s m := by
  unfold wakeQueue
  split
  · exact powAt_setPow_ne _ _ h
  · rfl

theorem powAt_wakeQueue_of_asleep {n : Fin 28} {s : State} (h : powAt s n = .asleep) : powAt (wakeQueue n s) n = .queued := by
  rw [wakeQueue, if_pos h]
  exact powAt_setPow ..

/-- One region's part of a sleep request says nothing of another region. -/
theorem powAt_sleepAsk_ne {old new : Nat} {s : State} {m n : Fin 26} (h : m ≠ n) :
    powAt (sleepAsk old new s n) ⟨m.val, by omega⟩ = powAt s ⟨m.val, by omega⟩ := by
  have hne : (⟨m.val, by omega⟩ : Fin 28) ≠ ⟨n.val, by omega⟩ := fun e => h (Fin.ext (Fin.mk.inj e))
  unfold sleepAsk
  dsimp only
  split
  · exact powAt_wakeQueue_ne hne s
  · split
    · exact powAt_setPow_ne _ _ hne
    · rfl

/-- A bit of the requests that is cleared wakes its region (R341). -/
theorem sleepAsk_of_cleared {old new : Nat} {n : Fin 26} (ho : bitOf old n.val = true) (hn : bitOf new n.val = false) (s : State) :
    sleepAsk old new s n = wakeQueue ⟨n.val, by omega⟩ s := if_pos (by rw [ho, hn]; rfl)

theorem sleepWrite_wakes {req : Nat} {n : Fin 26} {s : State} (ho : s.power.sleepReq.getLsbD n.val = true) (hn : bitOf req n.val = false)
    (ha : powAt s ⟨n.val, by omega⟩ = .asleep) : powAt (sleepWrite req s) ⟨n.val, by omega⟩ = .queued := by
  have hold : bitOf s.power.sleepReq.toNat n.val = true := (bitOf_toNat ..).trans ho
  refine foldl_reaches (inv := fun u => powAt u ⟨n.val, by omega⟩ = .asleep ∨ powAt u ⟨n.val, by omega⟩ = .queued)
    (done := fun u => powAt u ⟨n.val, by omega⟩ = .queued) (List.mem_finRange n) (.inl ha) (fun u x _ hu => ?_) (fun u hu => ?_)
    (fun u x _ hu => ?_)
  · by_cases hx : n = x
    · subst hx
      rw [sleepAsk_of_cleared hold hn]
      rcases hu with hu | hu
      · exact .inr (powAt_wakeQueue_of_asleep hu)
      · rw [wakeQueue, if_neg (by rw [hu]; decide)]
        exact .inr hu
    · rw [powAt_sleepAsk_ne hx]
      exact hu
  · rw [sleepAsk_of_cleared hold hn]
    rcases hu with hu | hu
    · exact powAt_wakeQueue_of_asleep hu
    · rw [wakeQueue, if_neg (by rw [hu]; decide)]
      exact hu
  · by_cases hx : n = x
    · subst hx
      rw [sleepAsk_of_cleared hold hn, wakeQueue, if_neg (by rw [hu]; decide)]
      exact hu
    · rw [powAt_sleepAsk_ne hx]
      exact hu

theorem unpowered_sleepWrite (req : Nat) (s : State) :
    unpowered (sleepWrite req s) = (BitVec.ofNat 26 req, s.regions, s.cores, s.dram) :=
  foldl_keeps unpowered _ (fun _ _ => unpowered_sleepAsk ..) _ _

/-- Bit `i` of a field of five flags. -/
theorem getLsbD_flags (f : Nat → Bool) {i : Nat} (h : i < 5) :
    (BitVec.ofNat 5 (packFields ((List.range 5).map (fun i => (i, bitNat (f i)))))).getLsbD i = f i := by
  have hlist : (List.range 5).map (fun i => (i, bitNat (f i))) =
      [(0, bitNat (f 0)), (1, bitNat (f 1)), (2, bitNat (f 2)), (3, bitNat (f 3)), (4, bitNat (f 4))] := rfl
  have hall : ∀ (a b c d e : Bool) (i : Fin 5),
      (BitVec.ofNat 5 (packFields [(0, bitNat a), (1, bitNat b), (2, bitNat c), (3, bitNat d), (4, bitNat e)])).getLsbD i.val =
        #v[a, b, c, d, e].get i := by decide
  rw [hlist, hall _ _ _ _ _ ⟨i, h⟩]
  have hcases : i = 0 ∨ i = 1 ∨ i = 2 ∨ i = 3 ∨ i = 4 := by omega
  rcases hcases with rfl | rfl | rfl | rfl | rfl <;> rfl

/-- The faults that a write clears: those whose bit is set and whose rails are all within their windows again (R350). -/
theorem supplyBitFree_eq (s : State) (levels : Vector (BitVec 12) 7) (i : Nat) : supplyBitFree s levels i =
    (decide (i ≠ 2) && (allRails.zip levels.toList).all (fun z => decide (railBit z.1 = i → inWindow s z.1 z.2 = true))) := by
  unfold supplyBitFree
  refine congrArg (decide (i ≠ 2) && ·) (congrArg (List.all _) (funext fun z => ?_))
  by_cases h : railBit z.1 = i <;> simp [h]

/-! ### Wheels, wide tiles and AUX_CTL -/

theorem wheelApply_of_applied {b : BarAcc} {k : StackId} {v : Word} {s : State} (hx : bitOf (strobes b v) 0 = true) :
    wheelApply b k v s =
      if wheelShape s (memAt s k).wheelN = true ∧ wheelSnapBad s (memAt s k).wheelN = false ∧ wheelChanges s k (memAt s k).wheelN = false
      then modMem s k (fun m => { m with wheelNext := some m.wheelN, wheelErr := false })
      else modMem s k (fun m => { m with wheelErr := true }) := by
  unfold wheelApply
  rw [if_pos hx]
  exact ite_congr (by simp only [Bool.and_eq_true, Bool.not_eq_true', and_assoc]) (fun _ => rfl) (fun _ => rfl)

/-- A load of a wide tile's register that clears it (R172). -/
theorem coreWrite_wabCtl {b : BarAcc} {c : CoreId} {w : Bool} {v : Word} {s : State} (hr : regionRuns s (regionOf c) = true)
    (hb : coreBusy (coreAt s c) = false) (hh : coreHalted s c = false) (hw : hasWide s = true) :
    coreWrite b c (if w then 0x8008 else 0x8000) v s =
      setCore s c (modWide (coreAt s c) w (fun t => wabWrite t (merged b (coreRegRead s c (.wabCtl w)) v))) := by
  have hreg : coreRegAt (if w then 0x8008 else 0x8000) = some (.wabCtl w) := by cases w <;> rfl
  have hmask : coreRwMask (.wabCtl w) ≠ 0 := by change 1 + onesAt 2 11 ≠ 0; decide
  unfold coreWrite
  rw [if_pos hr, hreg]
  dsimp only
  rw [if_neg hmask]
  unfold coreSoftWrite
  dsimp only
  rw [if_neg (by rw [hh]; decide), if_neg (by rw [hb]; exact Bool.false_ne_true), modCore]
  exact congrArg (setCore s c) (if_pos hw)

theorem wabWrite_of_clearing {t : WideTile} {v : Nat} (h : bitOf v 12 = true ∨ bitOf v 0 ≠ t.mode) :
    wabWrite t v = wideClear (bitOf v 0) (BitVec.ofNat 10 (fieldOf v 2 10)) := if_pos (by simpa using h)

theorem modWide_congr {k : Core} {w : Bool} {f g : WideTile → WideTile} (h : f (wideOf k w) = g (wideOf k w)) :
    modWide k w f = modWide k w g := by
  unfold modWide wideOf at *
  cases w <;> simp_all

/-- The fused version follows the image's in the production state alone (R360). -/
theorem svnAdvance_eq (s : State) : svnAdvance s = { s with ident := { s.ident with
    svnFused := if s.ident.lcState = 2 ∧ s.ident.svnFused.toNat < s.ident.svnImage.toNat then s.ident.svnImage else s.ident.svnFused } } := by
  unfold svnAdvance
  by_cases h : s.ident.lcState = 2
  · have hfused : (if s.ident.lcState = 2 ∧ s.ident.svnFused.toNat < s.ident.svnImage.toNat then s.ident.svnImage else s.ident.svnFused) =
        if s.ident.svnFused.toNat < s.ident.svnImage.toNat then s.ident.svnImage else s.ident.svnFused :=
      ite_congr (propext (and_iff_right h)) (fun _ => rfl) (fun _ => rfl)
    rw [if_pos h, hfused]
    rfl
  · rw [if_neg h, if_neg fun hand => h hand.1]

/-- AUX_CTL's two refusals as a Bool of the model. -/
theorem auxClash_iff (x : Nat) (s : State) : (bitOf x 0 && bitOf x 1 || s.fabric.barm.toList.any (fun m => decide (m.mode ≠ 0))) = true ↔
    (bitOf x 0 = true ∧ bitOf x 1 = true) ∨ ∃ y ∈ s.fabric.barm.toList, y.mode ≠ 0 := by
  rw [Bool.or_eq_true, Bool.and_eq_true, List.any_eq_true]
  simp only [decide_eq_true_eq]

/-- Settles O45: each write on the state with the host's request answered. -/
theorem registerWriteEffects : Obligations.RegisterWriteEffects := by
  unfold Obligations.RegisterWriteEffects
  intro b v r k c w e mv s hs u g x idle
  have next {t y : State} (h : t = y) : (.next t : Host.Outcome State Fault Refusal) = .next y := congrArg _ h
  have write (f : State → State) : barWrite b f s = f u := barWrite_of_served hs f
  refine ⟨fun hx => next ((write _).trans (if_pos hx)), ?_, fun hq => next ((write _).trans (if_pos hq)),
    fun hq => next ((write _).trans (if_neg (by rw [show deviceQuiet u = false from hq]; decide))),
    fun hx => ⟨fun hok => next ((write _).trans ((wheelApply_of_applied hx).trans (if_pos hok))),
      fun hok => next ((write _).trans ((wheelApply_of_applied hx).trans (if_neg hok)))⟩,
    fun sh hn hr => ?_, fun hidle hw hclr => ?_, fun hall => ⟨fun hidle hrecv hopen => ?_, fun hidle hopen => ?_,
      fun d rest hr hh hopen hrecv hland hheld => ?_⟩,
    fun ht => next (congrArg serveWaits ((write _).trans (if_pos ht))),
    fun ht => next (congrArg serveWaits ((write _).trans (if_neg (Nat.not_lt.2 ht)))),
    fun ht => next ((write _).trans (if_pos ht)), fun ht => next ((write _).trans (if_neg (Nat.not_lt.2 ht))), ?_, ?_, ?_,
    next (write _), fun hclash => ?_, fun hclash => ?_⟩
  · refine ⟨_, next (write _), ?_, fun q hq => ?_, avsUpdate_avsReq _, avsUpdate_cores _⟩
    · unfold regionAt cgClkctlWrite
      dsimp only
      rw [avsUpdate_regions]
      exact regionAt_modRegion ..
    · unfold regionAt cgClkctlWrite
      dsimp only
      rw [avsUpdate_regions]
      exact regionAt_modRegion_ne _ _ _ _ hq
  · refine next (congrArg serveWaits ?_)
    unfold wheelEffect
    rw [hn]
    exact if_pos hr
  · obtain ⟨hr, hb, hh⟩ := hidle
    refine next ((write _).trans ((coreWrite_wabCtl (s := u) hr hb hh hw).trans (congrArg (setCore u c) (modWide_congr ?_))))
    exact wabWrite_of_clearing hclr
  · obtain ⟨hr, hb, hh⟩ := hidle
    obtain ⟨hend, hop⟩ := chCmdBits_fields 1 b hall e (by decide)
    obtain ⟨y, hy, hcfg⟩ := settledEnd_chOpenCfg (s := u) hb hrecv hopen
    obtain ⟨hep, hseq, hdram⟩ := settledEnd_eq hy
    have hrun := (write (chCmdWrite c (chCmdBits b 1 e))).trans (chCmdWrite_open (s := u) hr hh hend hop)
    have hgen := congrArg Endpoint.gen hep
    have hepOf : epOf (coreAt (openEp c e (epOf (coreAt u c) e).word y) c) e =
        openedEnd (epOf (coreAt u c) e).word (epOf (coreAt y c) e) := epOf_setEp ..
    refine ⟨_, next (hrun.trans hcfg), ?_, ?_, ?_, ?_, ?_, (seq_setEp ..).trans hseq, hdram⟩
    · rw [hepOf]; rfl
    · rw [hepOf]
      exact (if_pos hrecv).trans (congrArg (· + 1#4) hgen)
    · rw [hepOf]; rfl
    · rw [hepOf]; rfl
    · rw [hepOf]; rfl
  · obtain ⟨hr, hb, hh⟩ := hidle
    obtain ⟨hend, hop⟩ := chCmdBits_fields 2 b hall e (by decide)
    have hrun := (write (chCmdWrite c (chCmdBits b 2 e))).trans (chCmdWrite_close (s := u) hr hh hend hop hb)
    obtain ⟨hep, hseq, hdram⟩ := settledEnd_eq (settledEnd_closeEp (s := u) hopen)
    rw [epOf_setEp] at hep
    exact ⟨_, next hrun, congrArg Endpoint.isOpen hep,
      congrArg Endpoint.held hep, hseq.trans (seq_setEp ..), hdram⟩
  · obtain ⟨hend, hop⟩ := chCmdBits_fields 3 b hall e (by decide)
    have hrun := (write (chCmdWrite c (chCmdBits b 3 e))).trans (chCmdWrite_pop (s := u) hr hh hend hop)
    obtain ⟨hep, hseq, hdram⟩ := settledEnd_eq (settledEnd_chPop (s := u) hopen hrecv hland hheld)
    rw [epOf_setEp] at hep
    exact ⟨_, next hrun, congrArg Endpoint.held hep, congrArg Endpoint.occ hep, hseq.trans (seq_setEp ..), hdram⟩
  · refine ⟨_, next (write _), fun i hi => ?_⟩
    rw [BitVec.getLsbD_and, BitVec.getLsbD_not, getLsbD_flags _ hi, supplyBitFree_eq, decide_eq_true hi, Bool.true_and,
      ← Bool.and_assoc (bitOf _ i)]
    rfl
  · have hkeep := unpowered_sleepWrite (fieldOf (merged b s.power.sleepReq.toNat v) 0 26) u
    simp only [unpowered, Prod.mk.injEq] at hkeep
    obtain ⟨hreq, hregions, hcores, hdram⟩ := hkeep
    exact ⟨_, next (write _), hreq, fun n ho hn ha => sleepWrite_wakes (s := u) ho hn ha, hregions, hcores, hdram⟩
  · exact next ((write _).trans (svnAdvance_eq u))
  · exact next ((write _).trans (if_pos ((auxClash_iff _ u).2 hclash)))
  · exact next ((write _).trans (if_neg (mt (auxClash_iff _ u).1 hclash)))

end Sys2Proof.Machine

/-! SUPPORT. Power states of the regions: a core of a region that sleeps, the governor's window, and what a region that runs finds
waiting (R338 to R344). -/

namespace Sys2Proof.Machine

/-! ### Power states -/

@[simp] theorem powAt_modPower (s : State) (n : Fin 28) (f : Power → Power) (h : (f s.power).regs = s.power.regs) :
    powAt (modPower s f) n = powAt s n := congrArg (·.get n) h

theorem powAt_govDrop (m n : Fin 28) (s : State) : powAt (govDrop n s) m = powAt s m := rfl

theorem powAt_regionCleared (r : RegionId) (n : Fin 28) (s : State) : powAt (regionCleared r s) n = powAt s n :=
  foldl_keeps (fun u => powAt u n) (fun u c => modCore u c coreCleared) (fun _ _ => rfl) _ _

/-! ### Sleep -/

theorem coreAt_regionCleared (r : RegionId) (s : State) (c : CoreId) :
    coreAt (regionCleared r s) c = if regionOf c = r then coreCleared (coreAt s c) else coreAt s c :=
  (foldl_update (get := coreAt) (put := fun u c => modCore u c coreCleared) (g := fun _ => coreCleared) (fun _ _ => coreAt_modCore ..)
    (fun _ _ _ h => coreAt_modCore_ne _ _ _ _ h) (coresOf_nodup r) s c).trans (ite_congr (propext mem_coresOf) (fun _ => rfl) (fun _ => rfl))

theorem regionCleared_regions (r : RegionId) (s : State) (q : RegionId) :
    (q = r → (regionAt (regionCleared r s) q).tick = 0) ∧ (q ≠ r → regionAt (regionCleared r s) q = regionAt s q) := by
  have hfold : ((coresOf r).foldl (fun u c => modCore u c coreCleared) s).regions = s.regions :=
    foldl_keeps State.regions (fun u c => modCore u c coreCleared) (fun _ _ => rfl) _ s
  refine ⟨fun e => ?_, fun e => ?_⟩
  · subst e
    unfold regionCleared
    rw [regionAt_modRegion]
  · unfold regionCleared
    rw [regionAt_modRegion_ne _ _ _ _ e]
    exact congrArg (·.get q) hfold

theorem regionCleared_dram (r : RegionId) (s : State) : (regionCleared r s).dram = s.dram :=
  foldl_keeps State.dram (fun u c => modCore u c coreCleared) (fun _ _ => rfl) _ s

theorem regionCleared_jobs (r : RegionId) (s : State) : (regionCleared r s).jobs = s.jobs :=
  foldl_keeps State.jobs (fun u c => modCore u c coreCleared) (fun _ _ => rfl) _ s

theorem coreCleared_tile (k : Core) (u : Fin 32) : (tileOf (coreCleared k) u).empty = true :=
  congrArg Tile.empty (get_replicate (a := resetTile) u)

/-- A compute region that sleeps loses its power and its cores' state (R339). -/
theorem sleepNow_of_compute (r : RegionId) (s : State) :
    sleepNow (powCg r) s = regionCleared r (govDrop (powCg r) (setPow s (powCg r) .asleep)) := dif_pos r.isLt

/-! ### The governor's window (R342, R343) -/

/-- The head of the queue alone is admitted, whatever its charge. -/
theorem govAdmit_singleton (budget : Nat) (x : GovReq) : govAdmit budget 0 [x] = ([x], []) := by
  unfold govAdmit
  rw [if_pos (.inr rfl)]
  rfl

theorem govGrant_of_noncompute {m : Fin 28} (h : 17 ≤ m.val) (s : State) : govGrant s (.wake m) = setPow s m .waking := if_neg (Nat.not_lt.2 h)

/-- A window outside a reset with one request of a region that is no compute region. -/
theorem governorWindow_of_single {m : Fin 28} {s : State} (ha : s.power.aon = true) (hr : s.power.resetLow = false)
    (hf : s.power.refStop = false) (hs : s.power.step = 0) (hw : wakesAllowed s = true) (hq : s.power.queue = [.wake m]) (hm : 17 ≤ m.val) :
    governorWindow s = setPow (modPower s (fun w => { w with queue := [] })) m .waking := by
  have hstep : (decide (1 ≤ s.power.step.toNat ∧ s.power.step.toNat ≤ 2) && !s.power.warm) = false := by rw [hs]; rfl
  unfold governorWindow
  rw [if_pos (by rw [ha, hr, hf]; rfl), hstep]
  dsimp only
  rw [if_neg Bool.false_ne_true, hq, govAdmit_singleton, if_pos hw]
  exact govGrant_of_noncompute hm _

/-! ### Running -/

/-- What a region that starts to run leaves: cores, jobs, DRAM, and the accesses that wait. -/
def unwoken (s : State) : Vector Core 68 × List (Nat × Job) × ByteMem × List HostWait × List (Nat × RestoreOp) × Vector (List LinkIn) 2 :=
  (s.cores, s.jobs, s.dram, s.host.waiting, s.snap.restores, s.fabric.inbound)

theorem unwoken_resetTests (r : RegionId) (s : State) : unwoken (resetTests r s) = unwoken s ∧ (resetTests r s).power = s.power := by
  unfold resetTests
  split <;> exact ⟨rfl, rfl⟩

theorem unwoken_resetWipe (s : State) : unwoken (resetWipe s) = unwoken s ∧ (resetWipe s).power.regs = s.power.regs := by
  unfold resetWipe
  split <;> exact ⟨rfl, rfl⟩

/-- The ports of IO1 at their reset values. -/
theorem unwoken_ports (s : State) :
    let t := (List.finRange 10).foldl (fun u p => if p.val < 5 then u else modPort u p (fun _ => resetPort)) s
    unwoken t = unwoken s ∧ t.power = s.power := by
  intro t
  have hstep (u : State) (p : PortId) : (unwoken (if p.val < 5 then u else modPort u p (fun _ => resetPort)),
      (if p.val < 5 then u else modPort u p (fun _ => resetPort)).power) = (unwoken u, u.power) := by split <;> rfl
  have ht : (unwoken t, t.power) = (unwoken s, s.power) := foldl_keeps (fun u : State => (unwoken u, u.power)) _ hstep _ s
  exact Prod.ext_iff.1 ht

/-- A waking region runs, and the rest of a step is its own block's. -/
theorem regionRunning_of_waking {m : Fin 28} {s : State} (hw : powAt s m = .waking) (hf : s.power.refStop = false) :
    unwoken (regionRunning m s) = unwoken s ∧ (regionRunning m s).power.regs = s.power.regs.set m.val .running m.isLt := by
  let s1 := modPower (govDrop m (setPow s m .running)) (fun w => { w with woken := w.woken ||| BitVec.ofNat 28 (2 ^ m.val) })
  have hkeep {t : State} (h : unwoken t = unwoken s1) (hp : t.power.regs = s1.power.regs) :
      unwoken t = unwoken s ∧ t.power.regs = s.power.regs.set m.val .running m.isLt := ⟨h, hp⟩
  unfold regionRunning
  rw [if_pos ⟨hw, hf⟩]
  dsimp only
  split
  · obtain ⟨hu, hp⟩ := unwoken_resetTests ⟨m.val, by assumption⟩ s1
    exact hkeep hu (congrArg Power.regs hp)
  · split
    · obtain ⟨hu, hp⟩ := unwoken_resetWipe s1
      exact hkeep hu hp
    · split
      · split
        · obtain ⟨hu, hp⟩ := unwoken_ports s1
          exact hkeep hu (congrArg Power.regs hp)
        · exact hkeep rfl rfl
      · split <;> exact hkeep rfl rfl

/-! ### Nothing that waits -/

theorem hostServe_of_none {s : State} (h : s.host.waiting = []) : hostServe s = s := by
  unfold hostServe
  rw [h]
  exact congrArg (fun l => { s with host := { s.host with waiting := l } }) h.symm

theorem restoreServe_of_none {s : State} (h : s.snap.restores = []) : restoreServe s = s := by
  unfold restoreServe
  rw [h]
  exact congrArg (fun l => { s with snap := { s.snap with restores := l } }) h.symm

theorem linkServe_of_none {via : Bool} {s : State} (h : inboundIo s via = []) : linkServe via s = s := by
  unfold linkServe
  rw [h]
  cases via
  · have hset : s.fabric.inbound.set 0 [] = s.fabric.inbound := h ▸ set_get_self s.fabric.inbound 0
    exact congrArg (fun v => { s with fabric := { s.fabric with inbound := v } }) hset
  · have hset : s.fabric.inbound.set 1 [] = s.fabric.inbound := h ▸ set_get_self s.fabric.inbound 1
    exact congrArg (fun v => { s with fabric := { s.fabric with inbound := v } }) hset

/-- Where nothing waits, serving what waits changes nothing. -/
theorem serveWaits_of_none {s : State} (h : nothingWaits s) : serveWaits s = s := by
  obtain ⟨hh, hr, hl⟩ := h
  unfold serveWaits
  rw [hostServe_of_none hh, linkServe_of_none (hl false), linkServe_of_none (hl true), restoreServe_of_none hr]

theorem nothingWaits_of_unwoken {s t : State} (h : unwoken t = unwoken s) (hs : nothingWaits s) : nothingWaits t := by
  simp only [unwoken, Prod.mk.injEq] at h
  obtain ⟨-, -, -, hh, hr, hi⟩ := h
  obtain ⟨hsh, hsr, hsl⟩ := hs
  exact ⟨hh.trans hsh, hr.trans hsr, fun via => (congrArg (fun v : Vector (List LinkIn) 2 => v.get (if via then 1 else 0)) hi).trans (hsl via)⟩

/-- Settles O49: a region that sleeps by `coreAt_regionCleared`, a window by its one request, a region that runs by what it leaves. -/
theorem regionPower : Obligations.RegionPower := by
  unfold Obligations.RegionPower
  intro n m r quiet s
  have next {t y : State} (h : t = y) : (.next t : Host.Outcome State Fault Refusal) = .next y := congrArg _ h
  refine ⟨fun hn hreq hrun htaken hsleep => ?_, fun ha hr hf _ hs hw hq hm => ?_, fun hw _ hf hnone => ?_⟩
  · have hnm : (⟨n.val, by omega⟩ : Fin 28) = powCg r := Fin.ext hn
    have hgo : regionSleep n quiet s = sleepNow (powCg r) s := by
      unfold regionSleep
      dsimp only
      rw [hnm]
      exact if_pos (by rw [hreq, hrun, htaken, hsleep]; rfl)
    have hcore := coreAt_regionCleared r (govDrop (powCg r) (setPow s (powCg r) .asleep))
    refine ⟨_, next (hgo.trans (sleepNow_of_compute r s)), ?_, fun c hc => ?_, fun c hc => ?_, (regionCleared_regions ..).1 rfl,
      fun q hq => (regionCleared_regions r _ q).2 hq, regionCleared_dram .., regionCleared_jobs ..⟩
    · rw [powAt_regionCleared, powAt_govDrop]
      exact get_set_self ..
    · rw [hcore, if_pos hc]
      exact ⟨rfl, rfl, coreCleared_tile _⟩
    · rw [hcore, if_neg hc]
      rfl
  · exact ⟨_, next (governorWindow_of_single ha hr hf hs hw hq hm), get_set_self .., rfl, fun k hk => get_set_other _ _ _ _ hk, rfl, rfl⟩
  · obtain ⟨hu, hp⟩ := regionRunning_of_waking hw hf
    have hserve := serveWaits_of_none (nothingWaits_of_unwoken hu hnone)
    simp only [unwoken, Prod.mk.injEq] at hu
    obtain ⟨hcores, hjobs, hdram, -⟩ := hu
    exact ⟨_, next hserve, (congrArg (·.get m) hp).trans (get_set_self ..),
      fun k hk => (congrArg (·.get k) hp).trans (get_set_other _ _ _ _ hk), hcores, hjobs, hdram⟩

end Sys2Proof.Machine

/-! SUPPORT. Temperature, supplies, the regulator and the reference: a device-wide fence, what an alert and the clock's moves leave, and a
clock request with nothing to switch (R345 to R353, R378, R379). -/

namespace Sys2Proof.Machine

/-! ### Jobs that a predicate finds -/

theorem cellGet_of_mem {β : Type} [DecidableEq β] {d v : β} {m : List (Nat × β)} {k : Nat} (h : cellWf d m = true) (hm : (k, v) ∈ m) :
    cellGet d m k = v := by
  have hpair := pairwise_of_cellWf h
  clear h
  induction m with
  | nil => cases hm
  | cons e r ih =>
    obtain ⟨a, w⟩ := e
    obtain ⟨hlt, hr⟩ := List.pairwise_cons.1 hpair
    rcases List.mem_cons.1 hm with he | hm
    · obtain ⟨rfl, rfl⟩ := Prod.mk.inj he
      exact if_pos rfl
    · have hne : k ≠ a := fun e => Nat.lt_irrefl a (e ▸ hlt _ hm)
      exact (if_neg hne).trans (ih hm hr)

/-- In a canonical job table what is found satisfies the predicate. -/
theorem of_mem_jobsWhere {s : State} {p : Job → Bool} {j : JobId} (h : cellWf freeJob s.jobs = true) (hj : j ∈ jobsWhere s p) :
    p (jobAt s j) = true := by
  obtain ⟨⟨k, v⟩, hm, he⟩ := List.mem_filterMap.1 hj
  dsimp only at he
  split at he
  · split at he
    next hp =>
      obtain rfl := Option.some.inj he
      rw [jobAt, cellGet_of_mem h hm]
      exact hp
    next => cases he
  · cases he

theorem ne_freeJob_of_canFence {b : Job} (h : canFence b = true) : b ≠ freeJob := fun e => by
  rw [e] at h
  cases h

/-! ### A device-wide fence (R353) -/

/-- Has a job been fenced with a status. -/
def fencedWith (st : Status) (b : Job) : Prop := b.state = .fencing ∧ b.status = st

/-- Every job of `s` that could be fenced has been, with a status. -/
def allFenced (st : Status) (s t : State) : Prop := ∀ j, canFence (jobAt s j) = true → fencedWith st (jobAt t j)

theorem state_ne_free_of_canFence {b : Job} (h : canFence b = true) : b.state ≠ .free := fun e => by
  unfold canFence at h
  rw [e] at h
  cases h

/-- The fence of one job among all, with the AON period. -/
def fenceWide (st : Status) (now : Option Nat) (u : State) (j : JobId) : State :=
  modJob (fenceJob j (unitFault st 0xFF 0 0) u) j (fun b => { b with wideAt := now })

theorem fencedWith_fenceWide {st : Status} {now : Option Nat} {u : State} {j : JobId}
    (h : canFence (jobAt u j) = true ∨ fencedWith st (jobAt u j)) : fencedWith st (jobAt (fenceWide st now u j) j) := by
  have hfence : fencedWith st (jobAt (fenceJob j (unitFault st 0xFF 0 0) u) j) := by
    rcases fenceJob_cases j (unitFault st 0xFF 0 0) u with ⟨hc, he⟩ | ⟨-, hentry, -⟩
    · rw [he]
      exact h.resolve_left (by rw [hc]; decide)
    · rw [hentry]
      exact ⟨rfl, rfl⟩
  have hfree : (jobAt (fenceJob j (unitFault st 0xFF 0 0) u) j).state ≠ .free := by rw [hfence.1]; decide
  unfold fenceWide
  rw [jobAt_modJob _ _ _ hfree]
  exact hfence

theorem jobAt_fenceWide_ne {st : Status} {now : Option Nat} {u : State} {j n : JobId} (h : n ≠ j) :
    jobAt (fenceWide st now u j) n = jobAt u n := by
  unfold fenceWide
  rw [jobAt_modJob_ne _ _ _ _ h]
  rcases fenceJob_cases j (unitFault st 0xFF 0 0) u with ⟨-, he⟩ | ⟨-, -, hn, -⟩
  · rw [he]
  · exact hn n h

/-- A job that another device-wide event fenced takes the first event's record. -/
def retold (st : Status) (s u : State) (j : JobId) : State :=
  modJob u j (fun b => { b with status := st, fence := fenceRecOf s (unitFault st 0xFF 0 0) })

/-- The jobs of another device-wide event in the same period take the first event's record. -/
def widened (st : Status) (s : State) : State :=
  (jobsWhere s (fun b => b.state == .fencing && decide (b.wideAt = some (aonPeriod s)) && decide (wideRank st < wideRank b.status))).foldl
    (retold st s) s

theorem fenceAll_eq (st : Status) (s : State) :
    fenceAll st s = (jobsWhere (widened st s) canFence).foldl (fenceWide st (some (aonPeriod s))) (widened st s) := rfl

theorem canFence_widened {st : Status} {s : State} {j : JobId} (h : canFence (jobAt s j) = true) : canFence (jobAt (widened st s) j) = true := by
  refine foldl_inv (fun u => canFence (jobAt u j) = true) _ (fun u n hu => ?_) _ s h
  by_cases hn : j = n
  · subst hn
    rw [retold, jobAt_modJob _ _ _ (state_ne_free_of_canFence hu)]
    exact hu
  · rw [retold, jobAt_modJob_ne _ _ _ _ hn]
    exact hu

theorem fenceAll_fences (st : Status) (s : State) : allFenced st s (fenceAll st s) := by
  intro j hj
  have hw := canFence_widened (st := st) hj
  rw [fenceAll_eq]
  refine foldl_reaches (inv := fun u => canFence (jobAt u j) = true ∨ fencedWith st (jobAt u j)) (done := fun u => fencedWith st (jobAt u j))
    (mem_jobsWhere hw (ne_freeJob_of_canFence hw)) (.inl hw) (fun u n _ hu => ?_) (fun u hu => fencedWith_fenceWide hu) (fun u n _ hu => ?_)
  · by_cases hn : j = n
    · subst hn
      exact .inr (fencedWith_fenceWide hu)
    · rw [jobAt_fenceWide_ne hn]
      exact hu
  · by_cases hn : j = n
    · subst hn
      exact fencedWith_fenceWide (.inr hu)
    · rw [jobAt_fenceWide_ne hn]
      exact hu

/-- A device-wide fence leaves everything but jobs, cores and regions. -/
theorem fenceAll_unfenced (z : State) (st : Status) (s : State) : unfenced z (fenceAll st s) = unfenced z s := by
  have hone (now : Option Nat) (u : State) (j : JobId) : unfenced z (fenceWide st now u j) = unfenced z u :=
    (rfl : unfenced z (fenceWide st now u j) = unfenced z (fenceJob j (unitFault st 0xFF 0 0) u)).trans (fenceJob_unfenced ..)
  rw [fenceAll_eq, foldl_keeps (unfenced z) _ (hone _)]
  exact foldl_keeps (unfenced z) (retold st s) (fun _ _ => rfl) _ s

theorem fenceAll_power (st : Status) (s : State) : (fenceAll st s).power = s.power := by
  have h := congrArg State.power (fenceAll_unfenced s st s)
  exact h

theorem fenceAll_dram (st : Status) (s : State) : (fenceAll st s).dram = s.dram := by
  have h := congrArg State.dram (fenceAll_unfenced s st s)
  exact h

theorem cellWf_modJob {u : State} (h : cellWf freeJob u.jobs = true) (j : JobId) (f : Job → Job) :
    cellWf freeJob (modJob u j f).jobs = true := cellWf_cellSet _ _ _ _ h

theorem cellWf_fenceJob {u : State} (h : cellWf freeJob u.jobs = true) (j : JobId) (i : FaultInfo) :
    cellWf freeJob (fenceJob j i u).jobs = true := by
  unfold fenceJob
  split
  · exact cellWf_cellSet freeJob _ _ _ h
  · exact h

/-- A device-wide fence keeps the canonical form of the job table. -/
theorem cellWf_fenceAll {st : Status} {s : State} (h : cellWf freeJob s.jobs = true) : cellWf freeJob (fenceAll st s).jobs = true := by
  have hwide : cellWf freeJob (widened st s).jobs = true :=
    foldl_inv (fun u : State => cellWf freeJob u.jobs = true) (retold st s) (fun u j hu => cellWf_modJob hu j _) _ s h
  rw [fenceAll_eq]
  exact foldl_inv (fun u : State => cellWf freeJob u.jobs = true) (fenceWide st (some (aonPeriod s)))
    (fun u j hu => cellWf_modJob (cellWf_fenceJob hu j _) j _) _ _ hwide

/-! ### Jobs that wait are cancelled (R347) -/

/-- Has a job not started. -/
def unstarted (b : Job) : Bool := b.state == .held || b.state == .waiting || b.state == .ready

theorem cancelWaiting_eq (s : State) : cancelWaiting s = (jobsWhere s unstarted).foldl (fun u j => cancelJob j 0xFFFF u) s := rfl

theorem jobAt_cancelWaiting_of_started {s : State} {j : JobId} (h : cellWf freeJob s.jobs = true) (hj : unstarted (jobAt s j) = false) :
    jobAt (cancelWaiting s) j = jobAt s j := by
  rw [cancelWaiting_eq]
  refine List.foldlRecOn (motive := fun u => jobAt u j = jobAt s j) _ _ rfl fun u hu n hn => ?_
  have hne : j ≠ n := fun e => by
    have hp := of_mem_jobsWhere h (e ▸ hn)
    rw [hj] at hp
    cases hp
  rw [jobAt_cancelJob_ne _ _ hne, hu]

theorem ne_freeJob_of_unstarted {b : Job} (h : unstarted b = true) : b ≠ freeJob := fun e => by
  rw [e] at h
  cases h

theorem jobAt_cancelWaiting_of_unstarted {s : State} {j : JobId} (hj : unstarted (jobAt s j) = true) :
    (jobAt (cancelWaiting s) j).state = .cancelled := by
  rw [cancelWaiting_eq]
  refine foldl_reaches (inv := fun _ => True) (done := fun u => (jobAt u j).state = .cancelled)
    (mem_jobsWhere hj (ne_freeJob_of_unstarted hj)) trivial (fun _ _ _ _ => trivial) (fun u _ => ?_) (fun u n _ hu => ?_)
  · rw [jobAt_cancelJob]
    rfl
  · by_cases hn : j = n
    · subst hn
      rw [jobAt_cancelJob]
      rfl
    · rw [jobAt_cancelJob_ne _ _ hn]
      exact hu

/-- After it no job waits to start. -/
theorem unstarted_cancelWaiting {s : State} (h : cellWf freeJob s.jobs = true) (j : JobId) :
    unstarted (jobAt (cancelWaiting s) j) = false := by
  cases hj : unstarted (jobAt s j)
  · rw [jobAt_cancelWaiting_of_started h hj, hj]
  · simp [unstarted, jobAt_cancelWaiting_of_unstarted hj]

theorem unstarted_of_fencedWith {st : Status} {b : Job} (h : fencedWith st b) : unstarted b = false := by
  unfold unstarted
  rw [h.1]
  rfl

/-! ### What alerts and the clock's moves leave -/

/-- What a change of rings and of the Waton target keeps, an alert keeps. -/
theorem raiseAlert_keeps {γ : Type} (p : State → γ) (hr : ∀ u f, p (modRings u f) = p u) (hw : ∀ (u : State) (w : Waton), p { u with wtn := w } = p u)
    (st : Status) (x : Word) (s : State) : p (raiseAlert st x s) = p s := by
  have hs (u : State) : p (signalIbi st u) = p u := by
    unfold signalIbi
    split
    · exact hw ..
    · rfl
  exact (hs _).trans (hr ..)

/-- The power unit without what belongs to clock requests and the regulator. -/
def offClock (p : Power) : Power :=
  { p with
    clk := none, queue := [], clkStatus := 0, avsReq := 0, avsBusy := false, avsLower := false, avsAcked := false, avsTail := 0, avsLo := 0
    avsHi := 0 }

/-- What neither an entry of a region, nor a reply, nor a clock request, nor the regulator changes. -/
structure ClockFree {γ : Type} (p : State → γ) : Prop where
  region : ∀ (u : State) (r : RegionId) (f : Region → Region), p (modRegion u r f) = p u
  power : ∀ (u : State) (f : Power → Power), offClock (f u.power) = offClock u.power → p (modPower u f) = p u
  rings : ∀ (u : State) (f : Rings → Rings), p (modRings u f) = p u

section
variable {γ : Type} {p : State → γ} (h : ClockFree p)
include h

theorem ClockFree.avsSend (mv : Nat) (s : State) : p (avsSend mv s) = p s := by
  unfold Machine.avsSend
  exact h.power _ _ rfl

theorem ClockFree.avsUpdate (s : State) : p (avsUpdate s) = p s := by
  unfold Machine.avsUpdate
  dsimp only
  split
  · rfl
  · exact h.avsSend ..

theorem ClockFree.queueRaises (s : State) : p (queueRaises s) = p s := by
  unfold Machine.queueRaises
  split
  · rfl
  · exact foldl_keeps p (fun u (x : RegionId × Nat) => modPower u (fun w => { w with queue := govInsert (.raise x.1 x.2) w.queue }))
      (fun _ _ => h.power _ _ rfl) _ _

theorem ClockFree.clkBegin (b : ClockBy) (mask : BitVec 17) (idx : BitVec 4) (s : State) : p (clkBegin b mask idx s) = p s := by
  unfold Machine.clkBegin
  extract_lets q0 tgt s1 left s2 need
  have h1 : p s1 = p s := by
    refine foldl_keeps p _ (fun u r => ?_) _ s
    split
    · exact h.region ..
    · rfl
  have h2 : p s2 = p s := (h.power _ _ rfl).trans h1
  clear_value need s2
  split
  · exact (h.avsSend ..).trans ((h.power _ _ rfl).trans h2)
  · exact (h.queueRaises s2).trans h2

/-- The end of a request keeps what the end of a recovery keeps. -/
theorem ClockFree.clkEnd {st : Status} (hrec : ∀ u, p (recoverEnd st u) = p u) (s : State) : p (clkEnd st s) = p s := by
  have hs : p (Machine.avsUpdate (modPower s (fun w => { w with clk := none, queue := w.queue.filter (fun x => !isRaise x) }))) = p s :=
    (h.avsUpdate _).trans (h.power _ _ rfl)
  unfold Machine.clkEnd
  split
  · rfl
  · dsimp only
    split
    · exact (answer_keeps p (fun f u => h.rings u f) ..).trans ((h.power _ _ rfl).trans hs)
    · exact (h.power _ _ rfl).trans hs
    · exact (hrec _).trans hs
    · exact hs

/-- A request of the device's own ends no recovery. -/
theorem ClockFree.clkEnd_device {st : Status} {q : ClockReq} {s : State} (hq : s.power.clk = some q) (hb : q.by_ = .device) :
    p (Machine.clkEnd st s) = p s := by
  unfold Machine.clkEnd
  rw [hq]
  simp only [hb]
  exact (h.avsUpdate _).trans (h.power _ _ rfl)

theorem ClockFree.clkIfDone (hrec : ∀ u, p (recoverEnd .ok u) = p u) (s : State) : p (clkIfDone s) = p s := by
  unfold Machine.clkIfDone
  split
  · split
    · exact h.clkEnd hrec s
    · rfl
  · rfl

end

theorem queueRaises_clk (s : State) : (queueRaises s).power.clk = s.power.clk := by
  unfold queueRaises
  split
  · rfl
  · exact foldl_keeps (fun u : State => u.power.clk)
      (fun u (x : RegionId × Nat) => modPower u (fun w => { w with queue := govInsert (.raise x.1 x.2) w.queue })) (fun _ _ => rfl) _ _

/-- The regions that a request which begins has to switch (R43). -/
def clkLeft (b : ClockBy) (mask : BitVec 17) (idx : BitVec 4) (s : State) : BitVec 17 :=
  maskOf (fun r => inMask mask r && regionRuns s r &&
    decide (clkTarget s { mask := mask, idx := idx, waitsVolt := false, admitted := [], by_ := b, ends := none, busy := none } r ≠
      (regionAt s r).freqIdx))

/-- A request that begins is in progress, with what it has to switch. -/
theorem clkBegin_clk (b : ClockBy) (mask : BitVec 17) (idx : BitVec 4) (s : State) : ∃ w, (clkBegin b mask idx s).power.clk =
    some { mask := clkLeft b mask idx s, idx := idx, waitsVolt := w, admitted := [], by_ := b, ends := none, busy := none } := by
  unfold clkBegin
  extract_lets q0 tgt s1 left s2 need
  split
  · exact ⟨true, rfl⟩
  · exact ⟨false, queueRaises_clk s2⟩

/-- The slowest entry everywhere keeps what the clock's moves keep. -/
theorem ClockFree.clkSlow {γ : Type} {p : State → γ} (h : ClockFree p) (s : State) : p (clkSlow s) = p s := by
  obtain ⟨w, hq⟩ := clkBegin_clk .device (maskOf (fun _ => true)) (BitVec.ofNat 4 clkLast) s
  unfold Machine.clkSlow Machine.clkIfDone
  rw [hq]
  dsimp only
  split
  · exact (h.clkEnd_device hq rfl).trans (h.clkBegin ..)
  · exact h.clkBegin ..

theorem ClockFree.clkSlowDown {γ : Type} {p : State → γ} (h : ClockFree p) {st : Status} (hrec : ∀ u, p (recoverEnd st u) = p u)
    (s : State) : p (clkSlowDown st s) = p s := by
  unfold Machine.clkSlowDown
  split
  · split
    · rfl
    · unfold clkSettle
      dsimp only [modPower]
      split
      · exact h.power s (fun w => { w with clk := _ }) rfl
      · exact (h.clkSlow _).trans ((h.clkEnd hrec _).trans (h.power s (fun w => { w with clk := _ }) rfl))
  · exact h.clkSlow s

theorem ClockFree.clkCut {γ : Type} {p : State → γ} (h : ClockFree p) (hrec : ∀ st u, p (recoverEnd st u) = p u) (s : State) :
    p (clkCut s) = p s := by
  unfold Machine.clkCut
  split
  · split
    · exact (h.clkSlow _).trans (h.clkEnd (hrec _) s)
    · refine (h.clkEnd (hrec _) _).trans (foldl_keeps p _ (fun u r => ?_) _ s)
      split
      · exact h.region ..
      · rfl
  · rfl

/-! ### The end of a recovery -/

/-- A port that is down trains again, and nothing else changes. -/
theorem retrainDown_keeps {γ : Type} (p : State → γ) (hp : ∀ u n f, p (modPort u n f) = p u) (s : State) : p (retrainDown s) = p s := by
  refine foldl_keeps p _ (fun u n => ?_) _ s
  split
  next hdown =>
    unfold portRetrain
    dsimp only
    split
    · rw [if_neg (by rw [hdown]; decide)]
      exact hp ..
    · rfl
  next => rfl

theorem retrainDown_power (s : State) : (retrainDown s).power = s.power := retrainDown_keeps State.power (fun _ _ _ => rfl) s

theorem retrainDown_regions (s : State) : (retrainDown s).regions = s.regions := retrainDown_keeps State.regions (fun _ _ _ => rfl) s

theorem recoverEnd_keeps {γ : Type} (p : State → γ) (hp : ∀ u n f, p (modPort u n f) = p u)
    (hl : ∀ u b, p (modPower u (fun w => { w with lost := false, recover := b })) = p u)
    (hr : ∀ u b, p (modPower u (fun w => { w with recover := b })) = p u) (st : Status) (s : State) : p (recoverEnd st s) = p s := by
  unfold recoverEnd
  split
  · exact (retrainDown_keeps p hp _).trans (hl ..)
  · exact hr ..

theorem recoverEnd_of_failed {st : Status} (h : st ≠ .ok) (s : State) :
    recoverEnd st s = modPower s (fun w => { w with recover := false }) := if_neg h

theorem recoverEnd_ok (s : State) :
    recoverEnd .ok s = retrainDown (modPower s (fun p => { p with lost := false, recover := false })) := if_pos rfl

/-- Jobs, DRAM and the power unit but for clock requests, the regulator and a recovery in progress. -/
def tripView (s : State) : List (Nat × Job) × ByteMem × Power := (s.jobs, s.dram, { offClock s.power with recover := false })

theorem clockFree_tripView : ClockFree tripView where
  region _ _ _ := rfl
  power u _ h := by
    have e := congrArg (fun x : Power => (u.jobs, u.dram, { x with recover := false })) h
    exact e
  rings _ _ := rfl

theorem tripView_recoverEnd {st : Status} (h : st ≠ .ok) (s : State) : tripView (recoverEnd st s) = tripView s := by
  rw [recoverEnd_of_failed h]
  rfl

/-- Jobs, DRAM, and of the power unit the supply faults and the power states. -/
def cutView (s : State) : List (Nat × Job) × ByteMem × BitVec 5 × Vector RegPower 28 := (s.jobs, s.dram, s.power.supply, s.power.regs)

theorem clockFree_cutView : ClockFree cutView where
  region _ _ _ := rfl
  power u _ h := by
    have e := congrArg (fun x : Power => (u.jobs, u.dram, x.supply, x.regs)) h
    exact e
  rings _ _ := rfl

theorem cutView_recoverEnd (st : Status) (s : State) : cutView (recoverEnd st s) = cutView s :=
  recoverEnd_keeps cutView (fun _ _ _ => rfl) (fun _ _ => rfl) (fun _ _ => rfl) st s

/-- Jobs, DRAM, and whether a write of RECOVER was refused. -/
def recView (s : State) : List (Nat × Job) × ByteMem × Bool := (s.jobs, s.dram, s.power.recErr)

theorem clockFree_recView : ClockFree recView where
  region _ _ _ := rfl
  power u _ h := by
    have e := congrArg (fun x : Power => (u.jobs, u.dram, x.recErr)) h
    exact e
  rings _ _ := rfl

theorem recView_recoverEnd (st : Status) (s : State) : recView (recoverEnd st s) = recView s :=
  recoverEnd_keeps recView (fun _ _ _ => rfl) (fun _ _ => rfl) (fun _ _ => rfl) st s

/-- The loss of the reference and the recovery from it. -/
def lossView (s : State) : Bool × Bool := (s.power.lost, s.power.recover)

theorem clockFree_lossView : ClockFree lossView where
  region _ _ _ := rfl
  power _ _ h := by
    have e := congrArg (fun x : Power => (x.lost, x.recover)) h
    exact e
  rings _ _ := rfl

/-! ### Clock requests with nothing to switch -/

theorem maskOf_getLsbD (p : RegionId → Bool) (r : RegionId) : inMask (maskOf p) r = p r := by
  have hn : (allRegions.filter p).Nodup := (List.nodup_finRange 17).filter _
  unfold inMask maskOf
  rw [getLsbD_foldl_mask _ _ _ (by simp) hn]
  simp [allRegions]

theorem maskOf_eq_zero {p : RegionId → Bool} (h : ∀ r, p r = false) : maskOf p = 0 := by
  have hnil : allRegions.filter p = [] := List.filter_eq_nil_iff.2 fun r _ hr => by simp [h r] at hr
  unfold maskOf
  rw [hnil]
  rfl

theorem inMask_zero (r : RegionId) : inMask 0 r = false := BitVec.getLsbD_zero

/-- Entries that stand already: what a request writes changes nothing. -/
theorem modRegion_sameEntry {s : State} {r : RegionId} {x : BitVec 4} (h : x = (regionAt s r).freqIdx) :
    modRegion s r (fun g => { g with freqIdx := x }) = s := by
  subst h
  exact congrArg (fun v => { s with regions := v }) (set_get_self s.regions r)

/-- A request of `b` with nothing left to switch. -/
def idleReq (b : ClockBy) (idx : BitVec 4) : ClockReq :=
  { mask := 0, idx := idx, waitsVolt := false, admitted := [], by_ := b, ends := none, busy := none }

/-- The request of `b` as it begins. -/
def newReq (b : ClockBy) (mask : BitVec 17) (idx : BitVec 4) : ClockReq :=
  { mask := mask, idx := idx, waitsVolt := false, admitted := [], by_ := b, ends := none, busy := none }

theorem neededMv_congr {s t : State} (ha : awakeRegions t = awakeRegions s) (hv : t.power.avsReq = s.power.avsReq)
    (hr : t.regions = s.regions) (f : RegionId → Nat) : neededMv t f = neededMv s f := by
  have hg (rs : List RegionId) : guardMv t rs = guardMv s rs :=
    congrArg (fun g : Vector Region 17 =>
      rs.foldl (fun m r => if (g.get r).lockstep then Nat.max m (5 * (g.get r).guard.toNat) else m) 0) hr
  unfold neededMv
  rw [ha, hv]
  split
  · rfl
  · rw [hg]

theorem queueRaises_of_zero {q : ClockReq} {s : State} (hq : s.power.clk = some q) (hm : q.mask = 0) : queueRaises s = s := by
  have hnil : allRegions.filter (fun r => inMask q.mask r) = [] :=
    List.filter_eq_nil_iff.2 fun r _ hr => Bool.false_ne_true ((inMask_zero r).symm.trans (hm ▸ hr))
  have hraise : raisesOf s q = [] := by
    unfold raisesOf
    rw [hnil]
    rfl
  unfold queueRaises
  rw [hq]
  dsimp only
  rw [hraise]
  rfl

/-- A request that finds every region at its entry, and the voltage as needed, has nothing to switch (R43, R346). -/
theorem clkBegin_of_idle {b : ClockBy} {mask : BitVec 17} {idx : BitVec 4} {s : State}
    (h : ∀ r, inMask mask r = true → clkTarget s (newReq b mask idx) r = (regionAt s r).freqIdx)
    (hv : neededMv s (entryOf s) = s.power.avsReq.toNat) :
    clkBegin b mask idx s = modPower s (fun w => { w with clk := some (idleReq b idx) }) := by
  have hleft : clkLeft b mask idx s = 0 := maskOf_eq_zero fun r => by
    cases hm : inMask mask r
    · rfl
    · have ht := h r hm
      simp only [newReq] at ht
      simp [ht]
  unfold clkBegin
  extract_lets q0 tgt s1 left s2 need
  have h1 : s1 = s := by
    refine List.foldlRecOn (motive := fun u => u = s) _ _ rfl fun u hu r _ => ?_
    subst hu
    split
    next hr => exact modRegion_sameEntry (h r (Bool.and_eq_true_iff.1 hr).1)
    next => rfl
  have h2 : s2 = modPower s (fun w => { w with clk := some (idleReq b idx) }) := by
    dsimp only [s2]
    rw [h1, show left = 0 from hleft]
    rfl
  have hneed : need = s.power.avsReq.toNat := by
    dsimp only [need]
    rw [h2]
    refine Eq.trans ?_ hv
    have hentry : needEntry (modPower s (fun w => { w with clk := some (idleReq b idx) })) = entryOf s := funext fun r => by
      unfold needEntry
      dsimp only [modPower, idleReq]
      rw [inMask_zero]
      rfl
    rw [hentry]
    exact neededMv_congr rfl rfl rfl _
  have hsent : s2.power.avsReq.toNat = s.power.avsReq.toNat := by rw [h2]; rfl
  rw [if_neg (by rw [hsent, hneed]; exact Nat.lt_irrefl _), h2]
  exact queueRaises_of_zero rfl rfl

/-- A request that ends where the voltage is as needed. -/
def unrequested (s : State) : State := modPower s (fun w => { w with clk := none, queue := w.queue.filter (fun x => !isRaise x) })

theorem avsUpdate_unrequested {s : State} (hv : neededMv s (entryOf s) = s.power.avsReq.toNat) :
    avsUpdate (unrequested s) = unrequested s :=
  if_pos ((neededMv_congr (s := s) rfl rfl rfl (entryOf s)).trans hv)

theorem clkEnd_recover {q : ClockReq} {st : Status} {s : State} (hq : s.power.clk = some q) (hb : q.by_ = .recover)
    (hv : neededMv s (entryOf s) = s.power.avsReq.toNat) : clkEnd st s = recoverEnd st (unrequested s) := by
  unfold clkEnd
  rw [hq]
  simp only [hb]
  exact congrArg (recoverEnd st) (avsUpdate_unrequested hv)

theorem clkEnd_register {q : ClockReq} {st : Status} {s : State} (hq : s.power.clk = some q) (hb : q.by_ = .register)
    (hv : neededMv s (entryOf s) = s.power.avsReq.toNat) :
    clkEnd st s = modPower (unrequested s) (fun w => { w with clkStatus := BitVec.ofNat 16 (statusCode st) }) := by
  unfold clkEnd
  rw [hq]
  simp only [hb]
  exact congrArg (modPower · _) (avsUpdate_unrequested hv)

theorem clkIfDone_idle {b : ClockBy} {idx : BitVec 4} {s : State} (hq : s.power.clk = some (idleReq b idx)) :
    clkIfDone s = clkEnd .ok s := by
  unfold clkIfDone
  rw [hq]
  rfl

/-- A request that has something to switch is not over. -/
theorem clkIfDone_of_left {q : ClockReq} {s : State} (hq : s.power.clk = some q) (hm : q.mask ≠ 0) : clkIfDone s = s := by
  unfold clkIfDone
  rw [hq]
  exact if_neg fun e => hm (of_decide_eq_true (Bool.and_eq_true_iff.1 e).1)

/-! ### Temperature -/

theorem allFenced_of_jobs {st : Status} {s s' t t' : State} (hs : s'.jobs = s.jobs) (ht : t.jobs = t'.jobs) (h : allFenced st s' t') :
    allFenced st s t := by
  have hsAt (j : JobId) : jobAt s' j = jobAt s j := congrArg (cellGet freeJob · j.val) hs
  have htAt (j : JobId) : jobAt t j = jobAt t' j := congrArg (cellGet freeJob · j.val) ht
  intro j hj
  rw [htAt]
  exact h j (by rw [hsAt]; exact hj)

/-- What the warning of R349 leaves: jobs, DRAM, and the power unit but for the warning. -/
def heatView (s : State) : List (Nat × Job) × ByteMem × Power := (s.jobs, s.dram, { s.power with warned := false, warnSent := false })

theorem heatView_thermWarn (s : State) : heatView (thermWarn s) = heatView s := by
  unfold thermWarn
  dsimp only
  split
  · exact raiseAlert_keeps heatView (fun _ _ => rfl) (fun _ _ => rfl) ..
  · rfl

/-- The state once the logic die's temperature has been read. -/
def heated (tmp : Byte) (hot : BitVec 5) (s : State) : State := modPower s (fun p => { p with temp := tmp, hot := hot })

theorem logicTemp_of_awake {tmp : Byte} {hot : BitVec 5} {s : State} (ha : s.power.aon = true) (hr : s.power.resetLow = false) :
    logicTemp tmp hot s =
      if 115 ≤ tmp.toNat ∧ (s.power.temp.toNat < 115 ∨ s.power.hard = false) then
        thermHard (if 105 ≤ tmp.toNat ∧ s.power.trip = false then thermTrip (thermWarn (heated tmp hot s)) else thermWarn (heated tmp hot s))
      else (if 105 ≤ tmp.toNat ∧ s.power.trip = false then thermTrip (thermWarn (heated tmp hot s)) else thermWarn (heated tmp hot s)) :=
  if_pos (by rw [ha, hr]; rfl)

theorem thermWarn_of_cool {s : State} (h : s.power.temp.toNat < warnLevel s) : thermWarn s =
    modPower s (fun p => { p with warned := false, warnSent := p.warnSent && decide (warnLevel s ≤ s.power.temp.toNat + 5) }) := by
  unfold thermWarn
  dsimp only
  rw [if_neg (fun e => Nat.not_lt.2 e.1 h), decide_eq_false (Nat.not_le.2 h)]

/-- The trip of the logic die fences every job, and leaves DRAM and the power unit but for the clock's moves (R350). -/
theorem thermTrip_trips (s : State) : allFenced .thermalTrip s (thermTrip s) ∧ (thermTrip s).dram = s.dram ∧
    (thermTrip s).power.trip = true ∧ (thermTrip s).power.temp = s.power.temp ∧ (thermTrip s).power.hard = s.power.hard := by
  let s1 := modPower s (fun p => { p with trip := true })
  have hview : tripView (thermTrip s) = tripView (fenceAll .thermalTrip s1) :=
    (raiseAlert_keeps tripView (fun _ _ => rfl) (fun _ _ => rfl) ..).trans
      (clockFree_tripView.clkSlowDown (tripView_recoverEnd (by decide)) _)
  simp only [tripView, Prod.mk.injEq] at hview
  obtain ⟨hjobs, hdram, hpower⟩ := hview
  rw [fenceAll_power] at hpower
  have htrip := congrArg Power.trip hpower
  have htemp := congrArg Power.temp hpower
  have hhard := congrArg Power.hard hpower
  exact ⟨allFenced_of_jobs (s' := s1) rfl hjobs (fenceAll_fences .thermalTrip s1), hdram.trans (fenceAll_dram ..), htrip, htemp, hhard⟩

/-! ### Sleep of every region -/

/-- Jobs, DRAM and supply faults, which no sleep changes. -/
def sleepView (s : State) : List (Nat × Job) × ByteMem × BitVec 5 := (s.jobs, s.dram, s.power.supply)

theorem sleepView_sleepNow (n : Fin 28) (s : State) : sleepView (sleepNow n s) = sleepView s := by
  unfold sleepNow
  dsimp only
  split
  · exact foldl_keeps sleepView (fun u c => modCore u c coreCleared) (fun _ _ => rfl) _ _
  · rfl

theorem powAt_sleepNow (n : Fin 28) (s : State) : powAt (sleepNow n s) n = .asleep := by
  unfold sleepNow
  dsimp only
  split
  · rw [powAt_regionCleared, powAt_govDrop]
    exact powAt_setPow ..
  · rw [powAt_govDrop]
    exact powAt_setPow ..

theorem powAt_sleepNow_ne {m n : Fin 28} (h : m ≠ n) (s : State) : powAt (sleepNow n s) m = powAt s m := by
  unfold sleepNow
  dsimp only
  split
  · rw [powAt_regionCleared, powAt_govDrop]
    exact powAt_setPow_ne _ _ h
  · rw [powAt_govDrop]
    exact powAt_setPow_ne _ _ h

theorem sleepView_sleepAll (s : State) : sleepView (sleepAll s) = sleepView s :=
  foldl_keeps sleepView _ (fun _ _ => sleepView_sleepNow ..) _ s

theorem powAt_sleepAll (s : State) {n : Fin 28} (h : n.val < 26) : powAt (sleepAll s) n = .asleep := by
  refine foldl_reaches (inv := fun _ => True) (done := fun u => powAt u n = .asleep) (List.mem_finRange (⟨n.val, h⟩ : Fin 26)) trivial
    (fun _ _ _ _ => trivial) (fun u _ => powAt_sleepNow n u) (fun u x _ hu => ?_)
  by_cases hx : n = ⟨x.val, by omega⟩
  · rw [← hx]
    exact powAt_sleepNow ..
  · rw [powAt_sleepNow_ne hx]
    exact hu

theorem powAt_sleepAll_of_fixed (s : State) {n : Fin 28} (h : 26 ≤ n.val) : powAt (sleepAll s) n = powAt s n :=
  foldl_keeps (fun u => powAt u n) _ (fun u x => powAt_sleepNow_ne (fun e => by
    have hv := congrArg Fin.val e
    have hx := x.isLt
    simp only at hv
    omega) u) _ s

/-- The hard trip fences every job and puts every region but MGT and IO0 to sleep (R351). -/
theorem thermHard_trips (s : State) : allFenced .thermalTrip s (thermHard s) ∧ (thermHard s).dram = s.dram ∧
    (thermHard s).power.hard = true ∧ (∀ n : Fin 28, n.val < 26 → powAt (thermHard s) n = .asleep) ∧
      ∀ n : Fin 28, 26 ≤ n.val → powAt (thermHard s) n = powAt s n := by
  have hview : cutView (thermHard s) = cutView (sleepAll (fenceAll .thermalTrip s)) :=
    clockFree_cutView.clkCut cutView_recoverEnd (sleepAll (fenceAll .thermalTrip s))
  have hsleep := sleepView_sleepAll (fenceAll .thermalTrip s)
  simp only [cutView, sleepView, Prod.mk.injEq] at hview hsleep
  obtain ⟨hjobs, hdram, -, hregs⟩ := hview
  obtain ⟨hjobs', hdram', -⟩ := hsleep
  have hpow (n : Fin 28) : powAt (thermHard s) n = powAt (sleepAll (fenceAll .thermalTrip s)) n := congrArg (·.get n) hregs
  refine ⟨allFenced_of_jobs rfl (hjobs.trans hjobs') (fenceAll_fences .thermalTrip s), (hdram.trans hdram').trans (fenceAll_dram ..), rfl,
    fun n hn => (hpow n).trans (powAt_sleepAll _ hn), fun n hn => ?_⟩
  rw [hpow, powAt_sleepAll_of_fixed _ hn]
  exact congrArg (fun x : Power => x.regs.get n) (fenceAll_power ..)

/-! ### Supplies -/

theorem supplyFault_of_inside {x : Rail} {mv : BitVec 12} {s : State} (h : inWindow s x mv = true) : supplyFault x mv s = s :=
  if_neg (by rw [h]; simp)

/-- The state with a rail's fault noted. -/
def faulted (x : Rail) (s : State) : State := modPower s (fun p => { p with supply := p.supply ||| BitVec.ofNat 5 (2 ^ railBit x) })

theorem supplyFault_of_outside {x : Rail} {mv : BitVec 12} {s : State} (ha : s.power.aon = true) (hr : s.power.resetLow = false)
    (h : inWindow s x mv = false) : supplyFault x mv s = raiseAlert .supplyFault 0 (supplyEffect x (faulted x s)) :=
  if_pos (by rw [ha, hr, h]; rfl)

/-- The compute regions that a fault of VDD_CORE or VDD_SRAM puts to sleep. -/
theorem sleepView_sleepCompute (s : State) :
    sleepView (allRegions.foldl (fun u r => if powAt u (powCg r) = .queued then u else sleepNow (powCg r) u) s) = sleepView s := by
  refine foldl_keeps sleepView _ (fun u r => ?_) _ s
  split
  · rfl
  · exact sleepView_sleepNow ..

theorem clockFree_sleepView : ClockFree sleepView where
  region _ _ _ := rfl
  power u _ h := by
    have e := congrArg (fun x : Power => (u.jobs, u.dram, x.supply)) h
    exact e
  rings _ _ := rfl

theorem sleepView_recoverEnd (st : Status) (s : State) : sleepView (recoverEnd st s) = sleepView s :=
  recoverEnd_keeps sleepView (fun _ _ _ => rfl) (fun _ _ => rfl) (fun _ _ => rfl) st s

/-- A fault of a core, SRAM or DRAM rail fences every job, and jobs, DRAM and the fault stand as the fence left them (R352). -/
theorem supplyEffect_fences {x : Rail} (h : x ∈ [Rail.core, .sram, .dram]) (s : State) :
    sleepView (supplyEffect x s) = sleepView (fenceAll .supplyFault s) := by
  have hcut : sleepView (clkCut (allRegions.foldl (fun u r => if powAt u (powCg r) = .queued then u else sleepNow (powCg r) u)
      (fenceAll .supplyFault s))) = sleepView (fenceAll .supplyFault s) :=
    (clockFree_sleepView.clkCut sleepView_recoverEnd _).trans (sleepView_sleepCompute _)
  simp only [List.mem_cons, List.not_mem_nil, or_false] at h
  rcases h with rfl | rfl | rfl
  · exact hcut
  · exact hcut
  · rfl

theorem portPowerLost_of_up {p : PortId} {s : State} (h : (portAt s p).state = pUp) : portPowerLost p s = portDown p 5 s :=
  if_neg (by rw [h]; decide)

theorem portPowerLost_ne {p q : PortId} (h : q ≠ p) (s : State) : portAt (portPowerLost p s) q = portAt s q := by
  unfold portPowerLost
  split
  · rfl
  · obtain ⟨-, -, -, -, -, hothers, -⟩ := portDown_wentDown (p := p) 5 (s := s) (fun _ _ => rfl) rfl
    exact hothers q h

theorem portPowerLost_power (p : PortId) (s : State) : (portPowerLost p s).power = s.power := by
  unfold portPowerLost
  split
  · rfl
  · exact portDown_power ..

/-- The ports of IOD0 lose their power. -/
def iod0Lost (s : State) : State := (List.finRange 10).foldl (fun u p => if p.val < 5 then portPowerLost p u else u) s

theorem iod0Lost_power (s : State) : (iod0Lost s).power = s.power := by
  refine foldl_keeps State.power _ (fun u p => ?_) _ s
  split
  · exact portPowerLost_power ..
  · rfl

/-- A port that is down for want of power. -/
def powerless (q : Port) : Prop := q.state = pDown ∧ q.reason = 5

theorem powerless_portPowerLost {p : PortId} {s : State} (h : (portAt s p).state = pUp ∨ powerless (portAt s p)) :
    powerless (portAt (portPowerLost p s) p) := by
  rcases h with h | h
  · rw [portPowerLost_of_up h]
    obtain ⟨hs, hr, -⟩ := portDown_wentDown (p := p) 5 (s := s) (fun _ _ => rfl) rfl
    exact ⟨hs, hr⟩
  · unfold portPowerLost
    rw [if_pos (.inr h.1)]
    exact h

theorem iod0Lost_powerless {s : State} {p : PortId} (hp : p.val < 5) (h : (portAt s p).state = pUp) : powerless (portAt (iod0Lost s) p) := by
  have hstep (u : State) (n : PortId) (hu : (portAt u p).state = pUp ∨ powerless (portAt u p)) :
      (n = p → powerless (portAt (if n.val < 5 then portPowerLost n u else u) p)) ∧
        (n ≠ p → portAt (if n.val < 5 then portPowerLost n u else u) p = portAt u p) := by
    refine ⟨fun e => ?_, fun e => ?_⟩
    · subst e
      rw [if_pos hp]
      exact powerless_portPowerLost hu
    · split
      · exact portPowerLost_ne (Ne.symm e) u
      · rfl
  refine foldl_reaches (inv := fun u => (portAt u p).state = pUp ∨ powerless (portAt u p)) (done := fun u => powerless (portAt u p))
    (List.mem_finRange p) (.inl h) (fun u n _ hu => ?_) (fun u hu => (hstep u p hu).1 rfl) (fun u n _ hu => ?_)
  · by_cases hn : n = p
    · exact .inr ((hstep u n hu).1 hn)
    · rw [(hstep u n hu).2 hn]
      exact hu
  · by_cases hn : n = p
    · exact (hstep u n (.inr hu)).1 hn
    · rw [(hstep u n (.inr hu)).2 hn]
      exact hu

/-! ### The reference (R347, R348) -/

/-- The state once the reference is lost, before the clocks slow down and jobs are fenced. -/
def refGone (s : State) : State :=
  modPower s (fun p => { p with lost := true, refOk := false, entryBefore := entries s, refStop := p.refStop || !p.ready })

theorem refLost_of_ready {s : State} (ha : s.power.aon = true) (hr : s.power.resetLow = false) (hl : s.power.lost = false)
    (hy : s.power.ready = true) : refLost s =
      raiseAlert .refLost 0 (snapFail .refLost (cancelWaiting (fenceAll .refLost (clkSlowDown .refLost (refGone s))))) := by
  unfold refLost
  rw [if_neg (by rw [ha, hr, hl]; decide), if_pos (by rw [ha, hr]; rfl)]
  exact if_pos hy

/-- Jobs, DRAM and the power unit. -/
def endView (s : State) : List (Nat × Job) × ByteMem × Power := (s.jobs, s.dram, s.power)

theorem endView_snapFail (st : Status) (s : State) : endView (snapFail st s) = endView s := by
  unfold snapFail
  split
  · exact answer_keeps endView (fun _ _ => rfl) ..
  · rfl

theorem cancelWaiting_dram (s : State) : (cancelWaiting s).dram = s.dram :=
  foldl_keeps State.dram (fun u j => cancelJob j 0xFFFF u) (fun _ _ => rfl) _ s

theorem cancelWaiting_power (s : State) : (cancelWaiting s).power = s.power :=
  foldl_keeps State.power (fun u j => cancelJob j 0xFFFF u) (fun _ _ => rfl) _ s

/-- The loss of the reference fences what runs and cancels what waits (R347). -/
theorem refLost_loses {s : State} (ha : s.power.aon = true) (hr : s.power.resetLow = false) (hl : s.power.lost = false)
    (hy : s.power.ready = true) (hwf : cellWf freeJob s.jobs = true) :
    (refLost s).power.lost = true ∧ (refLost s).power.refOk = false ∧ allFenced .refLost s (refLost s) ∧
      (∀ j, unstarted (jobAt (refLost s) j) = false) ∧ (refLost s).power.entryBefore = entries s ∧ (refLost s).dram = s.dram := by
  let c := clkSlowDown .refLost (refGone s)
  let f := fenceAll .refLost c
  have hslow : tripView c = tripView (refGone s) := clockFree_tripView.clkSlowDown (tripView_recoverEnd (by decide)) _
  have hend : endView (refLost s) = endView (cancelWaiting f) := by
    rw [refLost_of_ready ha hr hl hy]
    exact (raiseAlert_keeps endView (fun _ _ => rfl) (fun _ _ => rfl) ..).trans (endView_snapFail ..)
  simp only [tripView, endView, Prod.mk.injEq] at hslow hend
  obtain ⟨hcjobs, hcdram, hcpower⟩ := hslow
  obtain ⟨hjobs, hdram, hpower⟩ := hend
  have hfwf : cellWf freeJob f.jobs = true := cellWf_fenceAll (by rw [hcjobs]; exact hwf)
  have hat (j : JobId) : jobAt (refLost s) j = jobAt (cancelWaiting f) j := congrArg (cellGet freeJob · j.val) hjobs
  have hpow : (refLost s).power = c.power := (hpower.trans (cancelWaiting_power f)).trans (fenceAll_power ..)
  have hlost := congrArg Power.lost hcpower
  have hok := congrArg Power.refOk hcpower
  have hbefore := congrArg Power.entryBefore hcpower
  rw [hpow]
  refine ⟨hlost, hok, fun j hj => ?_, fun j => ?_, hbefore, ((hdram.trans (cancelWaiting_dram f)).trans (fenceAll_dram ..)).trans hcdram⟩
  · have hcat : jobAt c j = jobAt s j := congrArg (cellGet freeJob · j.val) hcjobs
    have hf : fencedWith .refLost (jobAt f j) := fenceAll_fences .refLost c j (by rw [hcat]; exact hj)
    rw [hat, jobAt_cancelWaiting_of_started hfwf (unstarted_of_fencedWith hf)]
    exact hf
  · rw [hat]
    exact unstarted_cancelWaiting hfwf j

theorem entries_get (s : State) (r : RegionId) : (entries s).get r = (regionAt s r).freqIdx := get_vmap ..

/-- The state in which a recovery has been asked for. -/
def recovering (s : State) : State := modPower s (fun p => { p with recErr := false, recover := true })

/-- The regions that a recovery brings back: all of them. -/
def everyRegion : BitVec 17 := maskOf (fun _ => true)

theorem refRecover_of_lost {s : State} (hl : s.power.lost = true) (ho : s.power.refOk = true) (hr : s.power.recover = false)
    (hc : s.power.clk = none) : refRecover s = clkIfDone (clkBegin .recover everyRegion 0 (recovering s)) := by
  unfold refRecover
  rw [if_pos (by rw [hl, ho]; rfl), if_neg (by rw [hr]; decide)]
  exact if_pos (by simp [modPower, hc])

/-- A recovery that finds every region at its entry is over at once. -/
theorem refRecover_of_idle {s : State} (hl : s.power.lost = true) (ho : s.power.refOk = true) (hr : s.power.recover = false)
    (hc : s.power.clk = none) (he : ∀ r, (regionAt s r).freqIdx = s.power.entryBefore.get r)
    (hv : neededMv s (entryOf s) = s.power.avsReq.toNat) :
    (refRecover s).power.lost = false ∧ (refRecover s).power.recover = false ∧ (refRecover s).regions = s.regions := by
  have hv1 : neededMv (recovering s) (entryOf (recovering s)) = (recovering s).power.avsReq.toNat :=
    (neededMv_congr (s := s) rfl rfl rfl _).trans hv
  let w := modPower (recovering s) (fun p => { p with clk := some (idleReq .recover 0) })
  have hv2 : neededMv w (entryOf w) = w.power.avsReq.toNat := (neededMv_congr (s := s) rfl rfl rfl _).trans hv
  have hidle : ∀ r, inMask everyRegion r = true →
      clkTarget (recovering s) (newReq .recover everyRegion 0) r = (regionAt (recovering s) r).freqIdx := fun r _ => (he r).symm
  have hrun : refRecover s = recoverEnd .ok (unrequested w) := by
    rw [refRecover_of_lost hl ho hr hc, clkBegin_of_idle hidle hv1, clkIfDone_idle rfl]
    exact clkEnd_recover (q := idleReq .recover 0) (st := .ok) (s := w) rfl rfl hv2
  rw [hrun, recoverEnd_ok]
  rw [retrainDown_power, retrainDown_regions]
  refine ⟨rfl, rfl, ?_⟩
  simp only [unrequested, w, recovering, modPower_regions]

/-- A recovery with a region to bring back goes on. -/
theorem refRecover_of_left {s : State} (hl : s.power.lost = true) (ho : s.power.refOk = true) (hr : s.power.recover = false)
    (hc : s.power.clk = none) {r : RegionId} (hrun : regionRuns s r = true) (he : s.power.entryBefore.get r ≠ (regionAt s r).freqIdx) :
    (refRecover s).power.lost = true ∧ (refRecover s).power.recover = true := by
  obtain ⟨w, hq⟩ := clkBegin_clk .recover everyRegion 0 (recovering s)
  have hleft : clkLeft .recover everyRegion 0 (recovering s) ≠ 0 := fun e => by
    have hbit : inMask (clkLeft .recover everyRegion 0 (recovering s)) r = true := by
      unfold clkLeft
      rw [maskOf_getLsbD]
      refine Bool.and_eq_true_iff.2 ⟨Bool.and_eq_true_iff.2 ⟨maskOf_getLsbD _ r, hrun⟩, decide_eq_true he⟩
    rw [e, inMask_zero] at hbit
    cases hbit
  rw [refRecover_of_lost hl ho hr hc, clkIfDone_of_left hq hleft]
  have hview : lossView (clkBegin .recover everyRegion 0 (recovering s)) = lossView (recovering s) := clockFree_lossView.clkBegin ..
  simp only [lossView, Prod.mk.injEq] at hview
  exact ⟨hview.1.trans hl, hview.2⟩

/-! ### Writes of CLK_REQ (R346) -/

theorem bitOf_eq_testBit (x i : Nat) : bitOf x i = x.testBit i := by
  rw [Nat.testBit_eq_decide_div_mod_eq]
  exact Bool.eq_iff_iff.2 (beq_iff_eq.trans decide_eq_true_iff.symm)

theorem inMask_ofNat (x : Nat) (r : RegionId) : inMask (BitVec.ofNat 17 x) r = bitOf x r.val := by
  rw [inMask, BitVec.getLsbD_ofNat, decide_eq_true r.isLt, Bool.true_and, bitOf_eq_testBit]

/-- The value that a write of CLK_REQ leaves in the register. -/
def clkReqValue (b : BarAcc) (v : Word) (p : Power) : Nat := merged b (packFields [(0, p.clkMask.toNat), (17, p.clkIdx.toNat)]) v

/-- The state with MASK and IDX written. -/
def clkReqSet (x : Nat) (s : State) : State :=
  modPower s (fun w => { w with clkMask := BitVec.ofNat 17 x, clkIdx := BitVec.ofNat 4 (fieldOf x 17 4) })

theorem clkReqWrite_of_idle {b : BarAcc} {v : Word} {s : State} (h : bitOf (strobes b v) 21 = false) :
    clkReqWrite b v s = clkReqSet (clkReqValue b v s.power) s := if_neg (by rw [h]; decide)

theorem clkIdx_toNat (x : Nat) : (BitVec.ofNat 4 (fieldOf x 17 4)).toNat = fieldOf x 17 4 :=
  (BitVec.toNat_ofNat ..).trans (Nat.mod_eq_of_lt (Nat.mod_lt _ (by decide)))

theorem clkReqWrite_of_refused {b : BarAcc} {v : Word} {st : Status} {s : State} (h : bitOf (strobes b v) 21 = true)
    (hr : clkRefusal s (fieldOf (clkReqValue b v s.power) 17 4) = some st) : clkReqWrite b v s =
      modPower (clkReqSet (clkReqValue b v s.power) s) (fun w => { w with clkErr := true, clkStatus := BitVec.ofNat 16 (statusCode st) }) := by
  have hr' : clkRefusal (clkReqSet (clkReqValue b v s.power) s) (BitVec.ofNat 4 (fieldOf (clkReqValue b v s.power) 17 4)).toNat = some st := by
    rw [clkIdx_toNat]
    exact hr
  unfold clkReqSet clkReqValue at *
  unfold clkReqWrite
  dsimp only
  rw [if_pos h, hr']

theorem clkReqWrite_of_begun {b : BarAcc} {v : Word} {s : State} (h : bitOf (strobes b v) 21 = true)
    (hr : clkRefusal s (fieldOf (clkReqValue b v s.power) 17 4) = none) : clkReqWrite b v s =
      clkSettle (clkBegin .register (BitVec.ofNat 17 (clkReqValue b v s.power)) (BitVec.ofNat 4 (fieldOf (clkReqValue b v s.power) 17 4))
        (modPower (clkReqSet (clkReqValue b v s.power) s) (fun w => { w with clkErr := false }))) := by
  have hr' : clkRefusal (clkReqSet (clkReqValue b v s.power) s) (BitVec.ofNat 4 (fieldOf (clkReqValue b v s.power) 17 4)).toNat = none := by
    rw [clkIdx_toNat]
    exact hr
  unfold clkReqSet clkReqValue at *
  unfold clkReqWrite
  dsimp only
  rw [if_pos h, hr']

theorem clkRefusal_of_calm {n : Nat} {s : State} (hn : n ≤ 7) (hl : s.power.lost = false) (ht : s.power.trip = false) :
    clkRefusal s n = if s.power.clk.isSome then some .resourceConflict else none := by
  unfold clkRefusal
  rw [if_neg (show ¬clkLast < n from Nat.not_lt.2 hn), if_neg (by rw [hl]; decide), if_neg (by rw [ht]; simp)]

theorem clkSettle_idle {b : ClockBy} {idx : BitVec 4} {s : State} (hq : s.power.clk = some (idleReq b idx)) :
    clkSettle s = clkRecover (clkIfDone s) := by
  unfold clkSettle
  rw [hq]
  rfl

/-- A request of the register with nothing to switch ends at once. -/
theorem clkSettle_register_idle {mask : BitVec 17} {idx : BitVec 4} {s : State} (hrec : s.power.recover = false)
    (h : ∀ r, inMask mask r = true → idx = (regionAt s r).freqIdx) (hv : neededMv s (entryOf s) = s.power.avsReq.toNat) :
    clkSettle (clkBegin .register mask idx s) =
      modPower (unrequested (modPower s (fun w => { w with clk := some (idleReq .register idx) }))) (fun w => { w with clkStatus := 0 }) := by
  let w := modPower s (fun w => { w with clk := some (idleReq .register idx) })
  have hv1 : neededMv w (entryOf w) = w.power.avsReq.toNat := (neededMv_congr (s := s) rfl rfl rfl _).trans hv
  rw [clkBegin_of_idle h hv, clkSettle_idle rfl, clkIfDone_idle rfl, clkEnd_register (q := idleReq .register idx) (s := w) rfl rfl hv1]
  exact if_neg (by simp [unrequested, modPower, w, hrec])

/-! ### The clauses -/

theorem logicTemp_cool {tmp : Byte} {hot : BitVec 5} {s : State} (ha : s.power.aon = true) (hr : s.power.resetLow = false)
    (hw : tmp.toNat < warnLevel s) (h105 : tmp.toNat < 105) : logicTemp tmp hot s =
      modPower (heated tmp hot s) (fun p => { p with warned := false, warnSent := p.warnSent && decide (warnLevel s ≤ tmp.toNat + 5) }) := by
  have hrun := (logicTemp_of_awake (tmp := tmp) (hot := hot) ha hr).trans (if_neg fun h => by omega)
  exact (hrun.trans (if_neg fun h => by omega)).trans (thermWarn_of_cool (s := heated tmp hot s) hw)

/-- What the reading of a temperature with its warning leaves, beside jobs and DRAM. -/
theorem thermWarn_heated (tmp : Byte) (hot : BitVec 5) (s : State) :
    (thermWarn (heated tmp hot s)).jobs = s.jobs ∧ (thermWarn (heated tmp hot s)).dram = s.dram ∧
      (thermWarn (heated tmp hot s)).power.temp = tmp ∧ (thermWarn (heated tmp hot s)).power.hard = s.power.hard ∧
      (thermWarn (heated tmp hot s)).power.regs = s.power.regs := by
  have hheat := heatView_thermWarn (heated tmp hot s)
  simp only [heatView, Prod.mk.injEq] at hheat
  obtain ⟨hjobs, hdram, hpower⟩ := hheat
  have htemp := congrArg Power.temp hpower
  have hhard := congrArg Power.hard hpower
  have hregs := congrArg Power.regs hpower
  exact ⟨hjobs, hdram, htemp, hhard, hregs⟩

theorem logicTemp_trip {tmp : Byte} {hot : BitVec 5} {s : State} (ha : s.power.aon = true) (hr : s.power.resetLow = false)
    (h105 : 105 ≤ tmp.toNat) (h115 : tmp.toNat < 115) (ht : s.power.trip = false) :
    (logicTemp tmp hot s).power.trip = true ∧ (logicTemp tmp hot s).power.temp = tmp ∧
      allFenced .thermalTrip s (logicTemp tmp hot s) ∧ (logicTemp tmp hot s).power.hard = s.power.hard ∧
      (logicTemp tmp hot s).dram = s.dram := by
  have hrun := (logicTemp_of_awake (tmp := tmp) (hot := hot) ha hr).trans (if_neg fun h => by omega)
  obtain ⟨hjobs, hdram, htemp, hhard, -⟩ := thermWarn_heated tmp hot s
  obtain ⟨hfence, hd, htrip, htmp, hh⟩ := thermTrip_trips (thermWarn (heated tmp hot s))
  rw [hrun.trans (if_pos ⟨h105, ht⟩)]
  exact ⟨htrip, htmp.trans htemp, allFenced_of_jobs hjobs rfl hfence, hh.trans hhard, hd.trans hdram⟩

theorem logicTemp_hard {tmp : Byte} {hot : BitVec 5} {s : State} (ha : s.power.aon = true) (hr : s.power.resetLow = false)
    (h115 : 115 ≤ tmp.toNat) (ht : s.power.trip = true) (hh : s.power.hard = false) :
    (logicTemp tmp hot s).power.hard = true ∧ allFenced .thermalTrip s (logicTemp tmp hot s) ∧
      (∀ n : Fin 28, n.val < 26 → powAt (logicTemp tmp hot s) n = .asleep) ∧
      (∀ n : Fin 28, 26 ≤ n.val → powAt (logicTemp tmp hot s) n = powAt s n) ∧ (logicTemp tmp hot s).dram = s.dram := by
  have hnotrip : ¬(105 ≤ tmp.toNat ∧ s.power.trip = false) := fun h => Bool.false_ne_true (h.2.symm.trans ht)
  have hrun := (logicTemp_of_awake (tmp := tmp) (hot := hot) ha hr).trans (if_pos ⟨h115, .inr hh⟩)
  obtain ⟨hjobs, hdram, -, -, hregs⟩ := thermWarn_heated tmp hot s
  obtain ⟨hfence, hd, hhard, hasleep, hfixed⟩ := thermHard_trips (thermWarn (heated tmp hot s))
  rw [hrun.trans (congrArg thermHard (if_neg hnotrip))]
  exact ⟨hhard, allFenced_of_jobs hjobs rfl hfence, hasleep, fun n hn => (hfixed n hn).trans (congrArg (·.get n) hregs), hd.trans hdram⟩

theorem supplyFault_fences {x : Rail} {mv : BitVec 12} {s : State} (ha : s.power.aon = true) (hr : s.power.resetLow = false)
    (hx : x ∈ [Rail.core, .sram, .dram]) (hout : inWindow s x mv = false) :
    (supplyFault x mv s).power.supply = s.power.supply ||| BitVec.ofNat 5 (2 ^ railBit x) ∧
      allFenced .supplyFault s (supplyFault x mv s) ∧ (supplyFault x mv s).dram = s.dram := by
  have hview : sleepView (supplyFault x mv s) = sleepView (fenceAll .supplyFault (faulted x s)) := by
    rw [supplyFault_of_outside ha hr hout]
    exact (raiseAlert_keeps sleepView (fun _ _ => rfl) (fun _ _ => rfl) ..).trans (supplyEffect_fences hx _)
  simp only [sleepView, Prod.mk.injEq] at hview
  obtain ⟨hjobs, hdram, hsupply⟩ := hview
  rw [fenceAll_power] at hsupply
  exact ⟨hsupply, allFenced_of_jobs (s' := faulted x s) rfl hjobs (fenceAll_fences .supplyFault (faulted x s)),
    hdram.trans (fenceAll_dram ..)⟩

theorem supplyEffect_iod0 {x : Rail} (hx : x ∈ [Rail.iod0, .vdda0]) (s : State) :
    supplyEffect x s = pcieDown (iod0Lost s) ∧ railBit x = 3 := by
  simp only [List.mem_cons, List.not_mem_nil, or_false] at hx
  rcases hx with rfl | rfl <;> exact ⟨rfl, rfl⟩

/-- The link to the host is down, and an alert tells of it. -/
theorem pcieDown_alert (st : Status) (x : Word) (s : State) :
    (raiseAlert st x (pcieDown s)).power = s.power ∧ (raiseAlert st x (pcieDown s)).host.linkUp = false ∧
      ∀ q, portAt (raiseAlert st x (pcieDown s)) q = portAt s q := by
  have hview : ((raiseAlert st x (pcieDown s)).power, (raiseAlert st x (pcieDown s)).host, (raiseAlert st x (pcieDown s)).ports) =
      ((pcieDown s).power, (pcieDown s).host, (pcieDown s).ports) :=
    raiseAlert_keeps (fun u : State => (u.power, u.host, u.ports)) (fun _ _ => rfl) (fun _ _ => rfl) st x (pcieDown s)
  simp only [Prod.mk.injEq] at hview
  obtain ⟨hpower, hhost, hports⟩ := hview
  refine ⟨hpower, ?_, fun q => congrArg (·.get q) hports⟩
  rw [hhost]
  rfl

theorem supplyFault_iod0 {x : Rail} {mv : BitVec 12} {s : State} (ha : s.power.aon = true) (hr : s.power.resetLow = false)
    (hx : x ∈ [Rail.iod0, .vdda0]) (hout : inWindow s x mv = false) :
    (supplyFault x mv s).power.supply = s.power.supply ||| 0b01000 ∧ (supplyFault x mv s).host.linkUp = false ∧
      ∀ q : PortId, q.val < 5 → (portAt s q).state = pUp → powerless (portAt (supplyFault x mv s) q) := by
  obtain ⟨heffect, hbit⟩ := supplyEffect_iod0 hx (faulted x s)
  obtain ⟨hpower, hlink, hports⟩ := pcieDown_alert .supplyFault 0 (iod0Lost (faulted x s))
  rw [supplyFault_of_outside ha hr hout, heffect]
  refine ⟨?_, hlink, fun q hq hup => ?_⟩
  · rw [hpower, iod0Lost_power, faulted, hbit]
    rfl
  · rw [hports]
    exact iod0Lost_powerless (s := faulted x s) hq hup

theorem avsAck_of_read {mv : BitVec 12} {s : State} (hb : s.power.avsBusy = true) (hlo : s.power.avsReq.toNat ≤ mv.toNat + 5)
    (hhi : mv.toNat ≤ s.power.avsReq.toNat + 5) (hc : s.power.clk = none) :
    avsAck mv s = modPower s (fun w => { w with avsRead := mv, avsBusy := false, avsAcked := true, avsTail := 10000 }) := by
  unfold avsAck
  rw [if_pos (by simp [hb, hlo, hhi])]
  dsimp only
  split
  next q hq => exact absurd (hc.symm.trans hq) (by simp)
  next => rfl

theorem avsTimeout_of_lowering {s : State} (hb : s.power.avsBusy = true) (hlow : s.power.avsLower = true) :
    avsTimeout s = raiseAlert .supplyFault 0 (modPower s (fun w => { w with avsBusy := false, avsErr := true })) :=
  (if_pos hb).trans (if_pos hlow)

/-- A recovery that is asked for changes no job and no byte of DRAM. -/
theorem refRecover_view {s : State} (hl : s.power.lost = true) (ho : s.power.refOk = true) (hr : s.power.recover = false)
    (hc : s.power.clk = none) : (refRecover s).jobs = s.jobs ∧ (refRecover s).dram = s.dram ∧ (refRecover s).power.recErr = false := by
  have hview : recView (refRecover s) = recView (recovering s) := by
    rw [refRecover_of_lost hl ho hr hc]
    exact (clockFree_recView.clkIfDone (recView_recoverEnd .ok) _).trans (clockFree_recView.clkBegin ..)
  simp only [recView, Prod.mk.injEq] at hview
  exact hview

theorem refRecover_of_present {s : State} (h : s.power.lost = false ∨ s.power.refOk = false) :
    refRecover s = modPower s (fun p => { p with recErr := true }) :=
  if_neg (by rcases h with h | h <;> simp [h])

/-- The state that a request of the register with nothing to switch leaves. -/
def clkReqEnded (b : BarAcc) (v : Word) (s : State) : State :=
  let x := clkReqValue b v s.power
  modPower (unrequested (modPower (modPower (clkReqSet x s) (fun w => { w with clkErr := false }))
    (fun w => { w with clk := some (idleReq .register (BitVec.ofNat 4 (fieldOf x 17 4))) }))) (fun w => { w with clkStatus := 0 })

theorem clkReqWrite_of_settled {b : BarAcc} {v : Word} {s : State} (hgo : bitOf (strobes b v) 21 = true) (hc : s.power.clk = none)
    (hn : fieldOf (clkReqValue b v s.power) 17 4 ≤ 7) (hrec : s.power.recover = false) (hl : s.power.lost = false)
    (ht : s.power.trip = false)
    (he : ∀ r : RegionId, bitOf (clkReqValue b v s.power) r.val = true →
      (regionAt s r).freqIdx.toNat = fieldOf (clkReqValue b v s.power) 17 4)
    (hv : neededMv s (entryOf s) = s.power.avsReq.toNat) : clkReqWrite b v s = clkReqEnded b v s := by
  have href : clkRefusal s (fieldOf (clkReqValue b v s.power) 17 4) = none :=
    (clkRefusal_of_calm hn hl ht).trans (if_neg (by rw [hc]; decide))
  let w := modPower (clkReqSet (clkReqValue b v s.power) s) (fun w => { w with clkErr := false })
  have hentry : ∀ r, inMask (BitVec.ofNat 17 (clkReqValue b v s.power)) r = true →
      BitVec.ofNat 4 (fieldOf (clkReqValue b v s.power) 17 4) = (regionAt w r).freqIdx := fun r hm =>
    BitVec.eq_of_toNat_eq ((clkIdx_toNat _).trans (he r ((inMask_ofNat _ r).symm.trans hm)).symm)
  have hv' : neededMv w (entryOf w) = w.power.avsReq.toNat := (neededMv_congr (s := s) rfl rfl rfl _).trans hv
  exact (clkReqWrite_of_begun hgo href).trans (clkSettle_register_idle (s := w) hrec hentry hv')

theorem clkReqEnded_frame (b : BarAcc) (v : Word) (s : State) :
    (clkReqEnded b v s).power.clk = none ∧ (clkReqEnded b v s).power.clkErr = false ∧ (clkReqEnded b v s).power.clkStatus = 0 ∧
      (clkReqEnded b v s).regions = s.regions ∧ (clkReqEnded b v s).rings = s.rings ∧ (clkReqEnded b v s).cores = s.cores := by
  unfold clkReqEnded unrequested clkReqSet
  simp only [modPower_regions, modPower_rings, modPower_cores]
  exact ⟨rfl, rfl, rfl, trivial, trivial, trivial⟩

/-- Settles O48: each clause by what the shared steps leave: the device-wide fence, the clock's moves, alerts and sleep. -/
theorem thermalSupplyAndReference : Obligations.ThermalSupplyAndReference := by
  unfold Obligations.ThermalSupplyAndReference
  intro b v tmp hot mv s ha hr p fencedAll
  have next {t y : State} (h : t = y) : (.next t : Host.Outcome State Fault Refusal) = .next y := congrArg _ h
  have write (hs : served b s) (f : State → State) : barWrite b f s = f (written s) := barWrite_of_served hs f
  refine ⟨fun hw h105 => next (logicTemp_cool ha hr hw h105), fun h105 h115 ht => ⟨_, rfl, logicTemp_trip ha hr h105 h115 ht⟩,
    fun h115 ht hh => ⟨_, rfl, logicTemp_hard ha hr h115 ht hh⟩, fun rail hin => next (supplyFault_of_inside hin),
    fun rail hrail hout => ⟨_, rfl, supplyFault_fences ha hr hrail hout⟩,
    fun rail hrail hout => ⟨_, rfl, supplyFault_iod0 ha hr hrail hout⟩,
    fun hb hlo hhi hc => next (avsAck_of_read hb hlo hhi hc), fun hb hlow => ?_, fun hl hy hwf => ?_,
    fun hst => next ((if_pos (by rw [ha, hr]; rfl)).trans (if_neg (by rw [show s.power.refStop = false from hst]; decide))),
    fun hs hl ho hrec hc => ?_, fun hs hl => next ((write hs _).trans (refRecover_of_present (s := written s) hl)),
    fun hs => ⟨fun hgo => next ((write hs _).trans (clkReqWrite_of_idle (s := written s) hgo)), fun hgo hc hn hl ht => ?_,
      fun hgo hc hn hrec hl ht he _ hv => ?_⟩⟩
  · obtain ⟨a, ha, hst, -⟩ := mem_alertJoin .supplyFault 0 s.rings.alerts
    refine ⟨_, next (avsTimeout_of_lowering hb hlow), raiseAlert_keeps State.power (fun _ _ => rfl) (fun _ _ => rfl) .., ⟨a, ?_, hst⟩,
      raiseAlert_keeps State.cores (fun _ _ => rfl) (fun _ _ => rfl) .., raiseAlert_keeps State.jobs (fun _ _ => rfl) (fun _ _ => rfl) ..⟩
    rw [raiseAlert_alerts]
    exact ha
  · obtain ⟨hlost, hok, hfence, hwait, hbefore, hdram⟩ := refLost_loses ha hr hl hy hwf
    refine ⟨_, rfl, hlost, hok, hfence, fun j => ?_, fun r => (congrArg (·.get r) hbefore).trans (entries_get s r), hdram⟩
    have hj := hwait j
    simp only [unstarted, Bool.or_eq_false_iff, beq_eq_false_iff_ne] at hj
    exact ⟨hj.1.1, hj.1.2, hj.2⟩
  · obtain ⟨hjobs, hdram, herr⟩ := refRecover_view (s := written s) hl ho hrec hc
    exact ⟨_, next (write hs _), herr, hjobs, hdram, fun he hv => refRecover_of_idle (s := written s) hl ho hrec hc he hv,
      fun ⟨_, hrun, he⟩ => refRecover_of_left (s := written s) hl ho hrec hc hrun he⟩
  · have href : clkRefusal (written s) (fieldOf (clkReqValue b v s.power) 17 4) = some .resourceConflict :=
      (clkRefusal_of_calm (s := written s) hn hl ht).trans (if_pos hc)
    exact next ((write hs _).trans (clkReqWrite_of_refused (s := written s) hgo href))
  · exact ⟨_, next ((write hs _).trans (clkReqWrite_of_settled (s := written s) hgo hc hn hrec hl ht he hv)),
      clkReqEnded_frame b v (written s)⟩

end Sys2Proof.Machine

/-! SUPPORT. Link commands and their packets: what the sending of packets leaves, the landing of an arriving packet's bytes, contributions,
flags and acknowledgements (R297, R309 to R315). -/

namespace Sys2Proof.Machine

/-! ### What sending leaves -/

/-- What neither a port, nor the count of packets without a route, nor the note that a command has been sent changes. -/
structure SendFree {γ : Type} (p : State → γ) : Prop where
  port : ∀ (u : State) (n : PortId) (f : Port → Port), p (modPort u n f) = p u
  drop : ∀ u : State, p (dropPkt u) = p u
  sent : ∀ (o : Option (CoreId × Nat)) (u : State), p (markSent o u) = p u

section
variable {γ : Type} {p : State → γ} (h : SendFree p)
include h

theorem SendFree.pumpPort (fuel : Nat) (n : PortId) (s : State) : p (pumpPort fuel n s) = p s := by
  induction fuel generalizing s with
  | zero => rfl
  | succ fuel ih =>
    unfold Machine.pumpPort
    dsimp only
    split
    · split
      · split
        · exact (ih _).trans (h.port ..)
        · rfl
      · exact (ih _).trans ((foldl_keeps p _ (fun u o => h.sent (some o) u) _ _).trans (h.port ..))
    · rfl

theorem SendFree.pump (n : PortId) (s : State) : p (pump n s) = p s := h.pumpPort ..

theorem SendFree.routePkt (came : Option PortId) (x : LinkPkt) (owner : Option (CoreId × Nat)) (final : Bool) (s : State) :
    p (routePkt came x owner final s) = p s := by
  unfold Machine.routePkt
  split
  · split
    · exact h.sent ..
    · rfl
  · split
    · exact (h.pump ..).trans (h.port ..)
    · exact h.drop s

theorem SendFree.sendPkt (x : LinkPkt) (owner : Option (CoreId × Nat)) (final : Bool) (s : State) : p (sendPkt x owner final s) = p s :=
  h.routePkt ..

theorem SendFree.sendAck (dst : BitVec 14) (core : Fin 64) (cmd : BitVec 19) (st : Status) (progress : Bool) (s : State) :
    p (sendAck dst core cmd st progress s) = p s := h.sendPkt ..

theorem SendFree.reportSent (src : BitVec 14) (slot : Nat) (s : State) : p (reportSent src slot s) = p s := h.sendPkt ..

theorem SendFree.sendAll (owner : Option (CoreId × Nat)) (l : List LinkPkt) (s : State) : p (sendAll owner l s) = p s := by
  induction l generalizing s with
  | nil => rfl
  | cons x r ih =>
    cases r with
    | nil => exact h.sendPkt ..
    | cons y r => exact (ih _).trans (h.sendPkt ..)

end

/-! ### Views that sending leaves -/

/-- A core's commands without the note that they have been sent. -/
def unsent (k : Core) : Core := { k with links := k.links.map (fun l => { l with sent := false }) }

theorem coreAt_modCore_view {γ : Type} (v : Core → γ) (c d : CoreId) (f : Core → Core) (hf : ∀ k, v (f k) = v k) (s : State) :
    v (coreAt (modCore s d f) c) = v (coreAt s c) := by
  by_cases e : c = d
  · subst e
    rw [coreAt_modCore, hf]
  · rw [coreAt_modCore_ne _ _ _ _ e]

theorem unsent_markSent (o : Option (CoreId × Nat)) (c : CoreId) (s : State) :
    unsent (coreAt (markSent o s) c) = unsent (coreAt s c) := by
  cases o with
  | none => rfl
  | some o =>
    refine coreAt_modCore_view unsent c o.1 _ (fun k => ?_) s
    have hmap : (k.links.map (fun l => if l.seqNo = o.2 then { l with sent := true } else l)).map (fun l => { l with sent := false }) =
        k.links.map (fun l => { l with sent := false }) := by
      rw [List.map_map]
      refine List.map_congr_left fun l _ => ?_
      simp only [Function.comp]
      split <;> rfl
    exact congrArg (fun ls => { k with links := ls }) hmap

/-- The fabric without the count of packets that had no route. -/
def undropped (f : Fabric) : Fabric := { f with dropped := 0 }

/-- What the sending of packets leaves: all but ports, the count of packets without a route, and what has been sent. -/
def unsentView (s : State) : (CoreId → Core) × List (Nat × Job) × ByteMem × Fabric × Bool × BitVec 8 × Snap :=
  (fun c => unsent (coreAt s c), s.jobs, s.dram, undropped s.fabric, s.stackLocal, s.memcFailed, s.snap)

theorem sendFree_unsentView : SendFree unsentView where
  port _ _ _ := rfl
  drop _ := rfl
  sent o u := by
    have hcore : (fun c => unsent (coreAt (markSent o u) c)) = fun c => unsent (coreAt u c) := funext fun c => unsent_markSent o c u
    have hrest : ((markSent o u).jobs, (markSent o u).dram, undropped (markSent o u).fabric, (markSent o u).stackLocal,
        (markSent o u).memcFailed, (markSent o u).snap) = (u.jobs, u.dram, undropped u.fabric, u.stackLocal, u.memcFailed, u.snap) := by
      cases o <;> rfl
    exact Prod.ext hcore hrest

/-- The jobs, the bytes of DRAM and how addresses name them. -/
def landView (s : State) : List (Nat × Job) × ByteMem × Bool := (s.jobs, s.dram, s.stackLocal)

theorem sendFree_landView : SendFree landView where
  port _ _ _ := rfl
  drop _ := rfl
  sent o _ := by cases o <;> rfl

/-! ### Forwarded packets -/

theorem packetForward_of_unrouted {p : PortId} {x : LinkPkt} {s : State} (hu : portUp s p = true) (ho : isOwnId s x.dst = false)
    (hr : routeOf s x.dst = none) : packetForward p x s = dropPkt s := by
  unfold packetForward routePkt
  rw [if_pos (by rw [hu, ho]; rfl), if_neg (by rw [ho]; decide), hr]

/-- A port that is not up sends nothing. -/
theorem pump_of_down {p : PortId} {s : State} (h : portUp s p = false) : pump p s = s := by
  unfold pump pumpPort
  dsimp only
  rw [h]
  rfl

theorem routePkt_of_down {came : Option PortId} {x : LinkPkt} {q : PortId} {o : Option (CoreId × Nat)} {final : Bool} {s : State}
    (ho : isOwnId s x.dst = false) (hr : routeOf s x.dst = some q) (hq : portUp s q = false) :
    routePkt came x o final s = queuePkt q came x o final s := by
  have hdown : portUp (queuePkt q came x o final s) q = false := by
    have hstate : (portAt (queuePkt q came x o final s) q).state = (portAt s q).state := by
      unfold queuePkt
      rw [portAt_modPort]
    unfold portUp at *
    rw [hstate]
    exact hq
  unfold routePkt
  rw [if_neg (by rw [ho]; decide), hr]
  exact pump_of_down hdown

theorem packetForward_of_down {p q : PortId} {x : LinkPkt} {s : State} (hu : portUp s p = true) (ho : isOwnId s x.dst = false)
    (hr : routeOf s x.dst = some q) (hq : portUp s q = false) : packetForward p x s = queuePkt q (some p) x none false s :=
  (if_pos (by rw [hu, ho]; rfl)).trans (routePkt_of_down ho hr hq)

/-! ### Commands -/

/-- A core with the command of number `n` taken by its I/O region. -/
def takenCore (n : Nat) (k : Core) : Core :=
  { k with links := k.links.map (fun m => if m.seqNo = n then { m with taken := true } else m) }

section
variable {c : CoreId} {l : LinkCmd} {chks : List (Nat × PieceCheck)} {s : State} (hn : nextLink s c = some l) (hl : s.power.lost = false)
  (ho : outstanding (coreAt s c) < 64) (hf : coreFencing (coreAt s c) = false)
include hn hl ho hf

theorem linkTake_of_fault {st : Status} (h : lcFault s c l.words = some st) :
    linkTake c chks s = fenceCore c (linkFault st c (linkVia l.words)) s := by
  unfold linkTake
  dsimp only
  rw [hn]
  dsimp only
  rw [if_pos (by simp [hl, ho, hf]), h]

theorem linkTake_of_unserved (h : lcFault s c l.words = none) (hr : lcReads l.words = true)
    (hs : rangeServed s (linkOwner (linkVia l.words)) (fieldOf l.words.word1.toNat 0 48) (lcBytes l.words) = false) :
    linkTake c chks s = nudgeStacks (fieldOf l.words.word1.toNat 0 48) (lcBytes l.words) s := by
  unfold linkTake
  dsimp only
  rw [hn]
  dsimp only
  rw [if_pos (by simp [hl, ho, hf]), h]
  exact if_pos (by rw [hr, hs]; rfl)

theorem linkTake_of_served (h : lcFault s c l.words = none) (hs : lcReads l.words = true →
      rangeServed s (linkOwner (linkVia l.words)) (fieldOf l.words.word1.toNat 0 48) (lcBytes l.words) = true) :
    linkTake c chks s = linkSend c l chks s := by
  have hno : ¬(lcReads l.words && !rangeServed s (linkOwner (linkVia l.words)) (fieldOf l.words.word1.toNat 0 48) (lcBytes l.words)) = true := by
    intro e
    obtain ⟨hr, hns⟩ := Bool.and_eq_true_iff.1 e
    rw [hs hr] at hns
    cases hns
  unfold linkTake
  dsimp only
  rw [hn]
  dsimp only
  rw [if_pos (by simp [hl, ho, hf]), h]
  exact if_neg hno

end

/-- A wake that the link engine asks for leaves all but the power unit. -/
theorem nudgeStacks_keeps {γ : Type} (p : State → γ) (h : ∀ u f, p (modPower u f) = p u) (a n : Nat) (s : State) :
    p (nudgeStacks a n s) = p s := by
  refine foldl_keeps p _ (fun u k => ?_) _ s
  unfold wakeQueue
  split
  · exact (h _ _).trans (h _ _)
  · rfl

/-- Where no piece of DRAM stands uncorrected, a command's packets are sent in order. -/
theorem linkSend_of_clean {c : CoreId} {l : LinkCmd} {s : State} (h : badAddrs s = []) : linkSend c l [] s =
    sendAll (some (c, l.seqNo)) (lcPackets s c l (lcData s c l.words)) (modCore s c (takenCore l.seqNo)) := by
  unfold linkSend
  dsimp only
  rw [accessRange_clean h, ite_self]
  rfl

/-- A command that is carried out is taken, and nothing else of its core, no job and no byte changes. -/
theorem linkSend_takes {c : CoreId} {l : LinkCmd} {s : State} (h : badAddrs s = []) :
    (∀ m ∈ (coreAt (linkSend c l [] s) c).links, m.seqNo = l.seqNo → m.taken = true) ∧
      (coreAt (linkSend c l [] s) c).links.length = (coreAt s c).links.length ∧
      (coreAt (linkSend c l [] s) c).store = (coreAt s c).store ∧ (linkSend c l [] s).jobs = s.jobs ∧ (linkSend c l [] s).dram = s.dram := by
  have hview : unsentView (linkSend c l [] s) = unsentView (modCore s c (takenCore l.seqNo)) := by
    rw [linkSend_of_clean h]
    exact sendFree_unsentView.sendAll ..
  simp only [unsentView, Prod.mk.injEq] at hview
  obtain ⟨hcores, hjobs, hdram, -⟩ := hview
  have hcore := congrFun hcores c
  rw [coreAt_modCore] at hcore
  have hlinks := congrArg Core.links hcore
  have hstore := congrArg Core.store hcore
  simp only [unsent, takenCore] at hlinks
  refine ⟨fun m hm hno => ?_, ?_, hstore, hjobs, hdram⟩
  · have hm' := List.mem_map_of_mem (f := fun l : LinkCmd => { l with sent := false }) hm
    rw [hlinks, List.map_map] at hm'
    obtain ⟨y, -, hy⟩ := List.mem_map.1 hm'
    simp only [Function.comp] at hy
    split at hy
    · exact (congrArg LinkCmd.taken hy).symm
    next hne => exact absurd ((congrArg LinkCmd.seqNo hy).trans hno) hne
  · have hlen := congrArg List.length hlinks
    simpa using hlen

/-! ### Arrivals -/

theorem inboundIo_setInboundIo (via : Bool) (l : List LinkIn) (s : State) : inboundIo (setInboundIo via l s) via = l := by
  cases via
  · exact get_set_self s.fabric.inbound 0 l
  · exact get_set_self s.fabric.inbound 1 l

/-- A packet that has to wait joins the queue of its I/O region, and nothing else changes but the wakes it asks for (R311, R340). -/
theorem takeIn_of_waiting {via : Bool} {y : LinkIn} {chks : List (Nat × PieceCheck)} {s : State}
    (h : inboundIo s via ≠ [] ∨ inServed s via y = false) :
    inboundIo (takeIn via y chks s) via = inboundIo s via ++ [y] ∧ (takeIn via y chks s).dram = s.dram ∧
      (takeIn via y chks s).cores = s.cores ∧ (takeIn via y chks s).jobs = s.jobs := by
  have hno : ¬((inboundIo s via).isEmpty && inServed s via y) = true := by
    rcases h with h | h
    · simp [h]
    · rw [h]
      simp
  let v := fun u : State => (u.fabric, u.dram, u.cores, u.jobs)
  have hview : v (takeIn via y chks s) = v (setInboundIo via (inboundIo s via ++ [y]) s) := by
    unfold takeIn
    dsimp only
    rw [if_neg hno]
    split
    · exact nudgeStacks_keeps v (fun _ _ => rfl) ..
    · rfl
  simp only [v, Prod.mk.injEq] at hview
  obtain ⟨hfabric, hdram, hcores, hjobs⟩ := hview
  refine ⟨?_, hdram, hcores, hjobs⟩
  have hin := congrArg (fun f : Fabric => f.inbound.get (if via then 1 else 0)) hfabric
  exact hin.trans (inboundIo_setInboundIo ..)

theorem takeIn_of_served {via : Bool} {y : LinkIn} {chks : List (Nat × PieceCheck)} {s : State} (h : inboundIo s via = [])
    (hs : inServed s via y = true) : takeIn via y chks s = carryIn y chks s :=
  if_pos (by rw [h, hs]; rfl)

/-- The bytes of a packet that may land are written; else the command is remembered as refused (R311). -/
theorem landData_of_clean {x : LinkPkt} {area : Option Nat} {final : Bool} {s : State} (h : badAddrs s = []) :
    landData x area final [] s =
      if landAllowed s (landingOf s x area) x then dramWrite (noteLanding (landingOf s x area) final s) x.addr.toNat x.data
      else modFabric (noteLanding (landingOf s x area) final s) (fun f =>
        { f with refused := if f.refused.contains (pktKey x) then f.refused else f.refused ++ [pktKey x] }) := by
  have hbad : badAddrs (noteLanding (landingOf s x area) final s) = [] := h
  unfold landData
  dsimp only
  rw [accessRange_clean hbad]
  rfl

theorem dramRead_congr {s t : State} (hd : t.dram = s.dram) (hl : t.stackLocal = s.stackLocal) (a n : Nat) :
    dramRead t a n = dramRead s a n := by
  simp only [dramRead, dramByte, dramKey, stackOf, offsetOf, hd, hl]

theorem landView_takeLanded (x : LinkPkt) (s : State) : landView (takeLanded x s).2 = landView s := rfl

/-- After its bytes a write packet changes no job and no byte. -/
theorem landView_writeIn (x : LinkPkt) (final : Bool) (chks : List (Nat × PieceCheck)) (s : State) :
    landView (writeIn x final chks s) = landView (landData x none final chks s) := by
  have htake := landView_takeLanded x (landData x none final chks s)
  unfold writeIn
  dsimp only
  generalize takeLanded x (landData x none final chks s) = y at htake ⊢
  rw [← htake]
  cases final
  · exact htake.symm
  · rw [if_pos rfl]
    split
    · exact (sendFree_landView.reportSent ..).trans (sendFree_landView.sendAck ..)
    · exact sendFree_landView.sendAck ..

/-- What an arriving write packet does to DRAM (R311). -/
theorem writeIn_lands {x : LinkPkt} {final : Bool} {s : State} (h : badAddrs s = []) :
    (writeIn x final [] s).jobs = s.jobs ∧
      (landAllowed s (landingOf s x none) x = true →
        ∀ a, (¬∃ b, b < x.data.length ∧ dramKey s (x.addr.toNat + b) = a) → memGet (writeIn x final [] s).dram a = memGet s.dram a) ∧
      (¬landAllowed s (landingOf s x none) x = true → (writeIn x final [] s).dram = s.dram) ∧
      (landAllowed s (landingOf s x none) x = true → memWf s.dram = true →
        dramRead (writeIn x final [] s) x.addr.toNat x.data.length = x.data) := by
  have hview := landView_writeIn x final [] s
  rw [landData_of_clean h] at hview
  by_cases ha : landAllowed s (landingOf s x none) x = true
  · rw [if_pos ha] at hview
    simp only [landView, Prod.mk.injEq] at hview
    obtain ⟨hjobs, hdram, hlocal⟩ := hview
    refine ⟨hjobs, fun _ a hn => ?_, fun hno => absurd ha hno, fun _ hm => ?_⟩
    · rw [hdram]
      exact memGet_dramWrite_ne _ _ _ _ fun b hb he => hn ⟨b, hb, he⟩
    · have hdr : isDram s x.addr.toNat x.data.length = true :=
        (Bool.and_eq_true_iff.1 (Bool.and_eq_true_iff.1 ha).1).1
      rw [dramRead_congr hdram hlocal]
      exact dramRead_dramWrite (s := noteLanding (landingOf s x none) final s) hm hdr
  · rw [if_neg ha] at hview
    simp only [landView, Prod.mk.injEq] at hview
    obtain ⟨hjobs, hdram, -⟩ := hview
    exact ⟨hjobs, fun hyes => absurd hyes ha, fun _ => hdram, fun hyes => absurd hyes ha⟩

/-! ### Contributions -/

/-- The bytes of the rows that a contribution brings. -/
def contribBytes (i : ContribInfo) : Nat := (i.nrowsM1.val + 1) * (if i.wide then 2048 else 512)

/-- A core with one contribution more in its buffer. -/
def bufferedCore (e : LinkEntry) (k : Core) : Core := { k with linkBuf := k.linkBuf ++ [e] }

/-- The contribution that a packet with a command's last rows brings (R312). -/
def broughtEntry (p : PortId) (x : LinkPkt) (i : ContribInfo) (s : State) : LinkEntry :=
  { k := i.rk, rcore := i.rcore
    words := entryWords i (landingOf s x (some (contribBytes i))).base
    src := x.src, core := x.core, cmd := x.cmd, port := p }

theorem takeLanded_of_clean {x : LinkPkt} {s : State} (hr : s.fabric.refused = []) (hb : s.fabric.landBad = []) :
    (takeLanded x s).1 = .ok := by
  unfold takeLanded
  dsimp only
  rw [hr, hb]
  rfl

/-- A contribution that finds its queue and room in its core's buffer waits there (R312). -/
theorem contributionIn_of_room {p : PortId} {x : LinkPkt} {i : ContribInfo} {c : CoreId} {s : State} (h : badAddrs s = [])
    (hf : i.final = true) (href : s.fabric.refused = []) (hbad : s.fabric.landBad = []) (hstore : s.fabric.store = [])
    (harr : s.fabric.arrived = [])
    (ha : landAllowed s (landingOf s x (some (contribBytes i))) x = true)
    (hc : rcoreOf s i.rcore = some c) (hjob : (coreAt s c).seq.job.isSome = true) (hmode : (combOf (coreAt s c) i.rk).mode = true)
    (hroom : (combOf (coreAt s c) i.rk).entries.length < 16) (hbuf : (coreAt s c).linkBuf.length < 16) :
    contributionIn p x i [] s = modCore
      (takeLanded x (dramWrite (noteLanding (landingOf s x (some (contribBytes i))) true s)
        x.addr.toNat x.data)).2 c (bufferedCore (broughtEntry p x i s)) := by
  let s1 := dramWrite (noteLanding (landingOf s x (some (contribBytes i))) true s) x.addr.toNat x.data
  let s2 := (takeLanded x s1).2
  have hland : landData x (some (contribBytes i)) i.final [] s = s1 := by
    rw [landData_of_clean h, if_pos ha, hf]
  have htake : takeLanded x s1 = (.ok, s2) := Prod.ext (takeLanded_of_clean href hbad) rfl
  have htarget : entryTarget s2 (broughtEntry p x i s) = some c := by
    unfold entryTarget
    rw [show rcoreOf s2 (broughtEntry p x i s).rcore = some c from hc]
    exact if_pos (Bool.and_eq_true_iff.2 ⟨hjob, hmode⟩)
  have hbeyond : beyondBuf s2 = [] := by
    change s.fabric.store ++ s.fabric.arrived = []
    rw [hstore, harr]
    rfl
  have hplace : placeEntry (broughtEntry p x i s) s2 = modCore s2 c (bufferedCore (broughtEntry p x i s)) := by
    unfold placeEntry
    rw [show rcoreOf s2 (broughtEntry p x i s).rcore = some c from hc]
    exact if_pos ⟨hbuf, by rw [hbeyond]; rfl⟩
  have hfree : waitsPlaced (modCore s2 c (bufferedCore (broughtEntry p x i s))) (broughtEntry p x i s) = false := by
    have hcomb : combOf (coreAt (modCore s2 c (bufferedCore (broughtEntry p x i s))) c) i.rk =
        combOf (coreAt s c) i.rk := by
      rw [coreAt_modCore]
      rfl
    have hjob' : (coreAt (modCore s2 c (bufferedCore (broughtEntry p x i s))) c).seq.job.isSome = true := by
      rw [coreAt_modCore]
      exact hjob
    have htarget' : entryTarget (modCore s2 c (bufferedCore (broughtEntry p x i s))) (broughtEntry p x i s) =
        some c := by
      unfold entryTarget
      rw [show rcoreOf (modCore s2 c _) (broughtEntry p x i s).rcore = some c from hc]
      exact if_pos (Bool.and_eq_true_iff.2 ⟨hjob', (congrArg CombQ.mode hcomb).trans hmode⟩)
    unfold waitsPlaced entryWaits
    rw [htarget', show beyondBuf (modCore s2 c _) = [] from hbeyond]
    refine Bool.or_eq_false_iff.2 ⟨decide_eq_false ?_, rfl⟩
    rw [show combOf _ (broughtEntry p x i s).k = _ from hcomb]
    omega
  unfold contributionIn
  dsimp only
  rw [if_pos hf, show (i.nrowsM1.val + 1) * (if i.wide then 2048 else 512) = contribBytes i from rfl, hland, htake]
  dsimp only
  rw [show (⟨i.rk, i.rcore, _, x.src, x.core, x.cmd, p⟩ : LinkEntry) = broughtEntry p x i s from rfl, htarget]
  dsimp only
  rw [hplace, hfree]
  rfl

/-- A contribution's packet leaves its entry behind the others of its core, and changes the bytes it carries alone (R311, R312). -/
theorem contributionIn_enters {p : PortId} {x : LinkPkt} {i : ContribInfo} {c : CoreId} {s : State} (h : badAddrs s = [])
    (hf : i.final = true) (href : s.fabric.refused = []) (hbad : s.fabric.landBad = []) (hstore : s.fabric.store = [])
    (harr : s.fabric.arrived = []) (ha : landAllowed s (landingOf s x (some (contribBytes i))) x = true)
    (hc : rcoreOf s i.rcore = some c) (hjob : (coreAt s c).seq.job.isSome = true) (hmode : (combOf (coreAt s c) i.rk).mode = true)
    (hroom : (combOf (coreAt s c) i.rk).entries.length < 16) (hbuf : (coreAt s c).linkBuf.length < 16) :
    coreAt (contributionIn p x i [] s) c = bufferedCore (broughtEntry p x i s) (coreAt s c) ∧
      ∀ a, (¬∃ b, b < x.data.length ∧ dramKey s (x.addr.toNat + b) = a) →
        memGet (contributionIn p x i [] s).dram a = memGet s.dram a := by
  rw [contributionIn_of_room h hf href hbad hstore harr ha hc hjob hmode hroom hbuf]
  refine ⟨coreAt_modCore .., fun a hn => ?_⟩
  rw [modCore_dram]
  have hne := memGet_dramWrite_ne (noteLanding (landingOf s x (some (contribBytes i))) true s) x.addr.toNat a x.data
    fun b hb he => hn ⟨b, hb, he⟩
  exact hne

/-! ### Contributions that enter their queues -/

/-- The combining queues and the buffer of a core, which the Skidder's own tables are no part of. -/
def combView (k : Core) : Vector CombQ 8 × List LinkEntry := (k.combs, k.linkBuf)

theorem combView_modQ (k : Core) (q : QId) (f : StreamQ → StreamQ) : combView (modQ k q f) = combView k := rfl

theorem combView_pairWaiting (k : Core) (x : QId) (list period : Nat) : combView (pairWaiting k x list period) = combView k := by
  unfold pairWaiting
  dsimp only
  split
  · rfl
  · exact (combView_modQ ..).trans (foldl_keeps combView _ (fun k q => combView_modQ k q _) _ _)

theorem combView_releaseDesc (k : Core) (qi : QId) (index : Nat) (words : Option Desc) (avail period : Nat) :
    combView (releaseDesc k qi index words avail period) = combView k := by
  unfold releaseDesc
  dsimp only
  split
  · split <;> rfl
  · split
    · exact combView_pairWaiting ..
    · rfl

/-- A contribution is the last entry of its queue (R313). -/
theorem combEnter_entries (k : Core) (q : Fin 8) (d : Desc) (now period : Nat) :
    (combEnter k q d now period).linkBuf = k.linkBuf ∧
      ∃ y, (combOf (combEnter k q d now period) q).entries = (combOf k q).entries ++ [y] ∧ y.words = d := by
  let y : CombEntry := { words := d, entered := now, rowsDone := 0 }
  have hview : combView (combEnter k q d now period) =
      (k.combs.set q.val { k.combs.get q with entries := (k.combs.get q).entries ++ [y] } q.isLt, k.linkBuf) := by
    unfold combEnter
    dsimp only
    split
    · exact combView_releaseDesc ..
    · rfl
  obtain ⟨hcombs, hbuf⟩ := Prod.mk.inj hview
  refine ⟨hbuf, y, ?_, rfl⟩
  unfold combOf
  rw [hcombs, get_set_self]

theorem fabric_with_nothing_beyond {f : Fabric} (hstore : f.store = []) (harr : f.arrived = []) :
    { f with store := [], arrived := [] } = f := by
  cases f
  cases hstore
  cases harr
  rfl

theorem fabric_with_flags_filtered {f : Fabric} (h : f.flags = []) (keep : FlagWait → Bool) : { f with flags := f.flags.filter keep } = f := by
  cases f
  cases h
  rfl

theorem modFabric_self {s : State} {g : Fabric → Fabric} (h : g s.fabric = s.fabric) : modFabric s g = s := by
  have e := congrArg (fun f => { s with fabric := f }) h
  exact e

/-- With no contribution beyond the cores' buffers and no flag that waits, nothing follows the taking of an entry. -/
theorem settleFlags_refill_of_empty {s : State} (hstore : s.fabric.store = []) (harr : s.fabric.arrived = []) (hflags : s.fabric.flags = []) :
    settleFlags (refill s) = s := by
  have hbeyond : beyondBuf s = [] := by
    unfold beyondBuf
    rw [hstore, harr]
    rfl
  have hrefill : refill s = s := by
    unfold refill
    dsimp only
    rw [hbeyond]
    exact modFabric_self (fabric_with_nothing_beyond hstore harr)
  rw [hrefill]
  unfold settleFlags
  dsimp only
  rw [show s.fabric.flags.filter (flagReady s) = [] by rw [hflags]; rfl]
  exact modFabric_self (fabric_with_flags_filtered hflags _)

/-- The core whose entry goes, after the entry has gone. -/
def tookEntry (e : LinkEntry) (k : Core) : Core := { k with linkBuf := k.linkBuf.erase e }

theorem contributionEntry_of_target {c d : CoreId} {e : LinkEntry} {s : State} (hn : nextEntry s c = some e)
    (ht : entryTarget s e = some d) (hstore : s.fabric.store = []) (harr : s.fabric.arrived = []) (hflags : s.fabric.flags = []) :
    contributionEntry c s = sendAck e.src e.core e.cmd .ok false (modCore (modCore s c (tookEntry e)) d (fun k =>
      combEnter k e.k e.words (nowAt (modCore s c (tookEntry e)) d) (periodAt (modCore s c (tookEntry e)) d))) := by
  have hview (u : State) : undropped (sendAck e.src e.core e.cmd .ok false u).fabric = undropped u.fabric := by
    have h := sendFree_unsentView.sendAck e.src e.core e.cmd .ok false u
    simp only [unsentView, Prod.mk.injEq] at h
    exact h.2.2.2.1
  unfold contributionEntry
  rw [hn]
  dsimp only
  rw [ht]
  exact settleFlags_refill_of_empty ((congrArg Fabric.store (hview _)).trans hstore) ((congrArg Fabric.arrived (hview _)).trans harr)
    ((congrArg Fabric.flags (hview _)).trans hflags)

/-- An entry that finds room leaves its core's buffer and enters its queue (R313). -/
theorem contributionEntry_enters {c d : CoreId} {e : LinkEntry} {s : State} (hn : nextEntry s c = some e)
    (ht : entryTarget s e = some d) (hstore : s.fabric.store = []) (harr : s.fabric.arrived = []) (hflags : s.fabric.flags = []) :
    (coreAt (contributionEntry c s) c).linkBuf = (coreAt s c).linkBuf.erase e ∧
      (∃ y, (combOf (coreAt (contributionEntry c s) d) e.k).entries = (combOf (coreAt s d) e.k).entries ++ [y] ∧ y.words = e.words) ∧
      (contributionEntry c s).dram = s.dram := by
  let s1 := modCore s c (tookEntry e)
  let s2 := modCore s1 d (fun k => combEnter k e.k e.words (nowAt s1 d) (periodAt s1 d))
  have hview : unsentView (contributionEntry c s) = unsentView s2 := by
    rw [contributionEntry_of_target hn ht hstore harr hflags]
    exact sendFree_unsentView.sendAck ..
  simp only [unsentView, Prod.mk.injEq] at hview
  obtain ⟨hcores, -, hdram, -⟩ := hview
  obtain ⟨hbuf, y, hentries, hwords⟩ := combEnter_entries (coreAt s1 d) e.k e.words (nowAt s1 d) (periodAt s1 d)
  have hd : coreAt s2 d = combEnter (coreAt s1 d) e.k e.words (nowAt s1 d) (periodAt s1 d) := coreAt_modCore ..
  have hs1 : (coreAt s1 c).linkBuf = (coreAt s c).linkBuf.erase e := congrArg Core.linkBuf (coreAt_modCore s c (tookEntry e))
  have hs1d : (coreAt s1 d).combs = (coreAt s d).combs := coreAt_modCore_view Core.combs d c (tookEntry e) (fun _ => rfl) s
  have hkept : (coreAt (contributionEntry c s) c).linkBuf = (coreAt s2 c).linkBuf := by
    have e := congrArg Core.linkBuf (congrFun hcores c)
    exact e
  have hgot : (coreAt (contributionEntry c s) d).combs = (coreAt s2 d).combs := by
    have e := congrArg Core.combs (congrFun hcores d)
    exact e
  refine ⟨?_, ⟨y, ?_, hwords⟩, hdram⟩
  · rw [hkept, ← hs1]
    exact coreAt_modCore_view Core.linkBuf c d _ (fun k => (combEnter_entries ..).1) s1
  · unfold combOf at hentries ⊢
    rw [hgot, hd, hentries, hs1d]

/-! ### Flags -/

/-- A flag that no contribution stands before is raised at once (R314). -/
theorem raiseFlag_counts {src : BitVec 14} {core rc : Fin 64} {cmd : BitVec 19} {f : Fin 8} {c : CoreId} {j : JobId} {s : State}
    (hc : rcoreOf s rc = some c) (hj : (coreAt s c).seq.job = some j) (hlive : canFence (jobAt s j) = true) :
    (coreAt (raiseFlag src core cmd rc f s) c).xflags = (coreAt s c).xflags.set f.val ((coreAt s c).xflags.get f + 1) f.isLt ∧
      (coreAt (raiseFlag src core cmd rc f s) c).seq = (coreAt s c).seq ∧ (raiseFlag src core cmd rc f s).jobs = s.jobs ∧
      (raiseFlag src core cmd rc f s).dram = s.dram := by
  have hraise : raiseFlag src core cmd rc f s = sendAck src core cmd .ok false
      (modCore s c (fun k => { k with xflags := k.xflags.set f.val (k.xflags.get f + 1) f.isLt })) := by
    unfold raiseFlag
    dsimp only
    rw [hc]
    simp only [hj, hlive, if_true]
  have hview : unsentView (raiseFlag src core cmd rc f s) =
      unsentView (modCore s c (fun k => { k with xflags := k.xflags.set f.val (k.xflags.get f + 1) f.isLt })) := by
    rw [hraise]
    exact sendFree_unsentView.sendAck ..
  simp only [unsentView, Prod.mk.injEq] at hview
  obtain ⟨hcores, hjobs, hdram, -⟩ := hview
  have hcore := congrFun hcores c
  rw [coreAt_modCore] at hcore
  have hflags := congrArg Core.xflags hcore
  have hseq := congrArg Core.seq hcore
  exact ⟨hflags, hseq, hjobs, hdram⟩

/-! ### Acknowledgements -/

section
variable {x : LinkPkt} {c : CoreId} {s : State} (ho : isOwnId s x.dst = true) (h18 : x.cmd.getLsbD 18 = false)
  (hc : rcoreOf s x.core = some c)
include ho h18

theorem linkAck_of_core : linkAck x s = coreAck x s := by
  unfold linkAck
  rw [if_pos ho, if_neg (by rw [h18]; decide)]

include hc

/-- An acknowledgement of a command whose job was fenced is discarded (R315). -/
theorem linkAck_of_late (hlate : (coreAt s c).lateAcks.contains (x.src, x.cmd.toNat) = true) (h0 : x.addr.getLsbD 0 = false) :
    linkAck x s = modCore s c (fun k => { k with lateAcks := k.lateAcks.erase (x.src, x.cmd.toNat) }) := by
  rw [linkAck_of_core ho h18]
  unfold coreAck
  rw [hc]
  dsimp only
  rw [if_pos hlate, h0]
  rfl

variable {l : LinkCmd} {j : JobId} (hlate : (coreAt s c).lateAcks.contains (x.src, x.cmd.toNat) = false)
  (hl : (coreAt s c).links.find? (fun m => m.taken && !m.acked && decide (m.index = x.cmd.toNat)) = some l)
  (hj : (coreAt s c).seq.job = some j) (hlive : canFence (jobAt s j) = true) (h0 : x.addr.getLsbD 0 = false)
include hlate hl hj hlive h0

/-- An acknowledgement of a live job's command ends the command or fences the job (R315). -/
theorem linkAck_of_live : linkAck x s =
    if x.status = 0 then modCore s c (fun k => countDone (setAcked l.seqNo k))
    else fenceCore c (linkFault (statusOf x.status.toNat) c (linkVia l.words)) s := by
  rw [linkAck_of_core ho h18]
  unfold coreAck
  rw [hc]
  dsimp only
  rw [hlate, hl, hj]
  dsimp only
  rw [h0, hlive]
  rfl

end

theorem ackTimeout_of_sent {c : CoreId} {n : Nat} {l : LinkCmd} {s : State}
    (hl : (coreAt s c).links.find? (fun m => decide (m.index = n) && m.sent && !m.acked) = some l) :
    ackTimeout c n s = fenceCore c (linkFault .peerLost c (linkVia l.words)) s := by
  unfold ackTimeout
  rw [hl]

theorem progressAcks_of_one {c : CoreId} {e : LinkEntry} {s : State} (hbuf : (coreAt s c).linkBuf = [e]) (hbeyond : beyondBuf s = [])
    (hflags : s.fabric.flags = []) : progressAcks c s = sendAck e.src e.core e.cmd .ok true s := by
  unfold progressAcks
  dsimp only
  rw [hbuf, hbeyond, hflags]
  rfl

/-! ### The clauses about arrivals -/

theorem linkWrite_lands {p : PortId} {x : LinkPkt} {final : Bool} {s : State} (harrive : arrives s p x = true)
    (hin : inboundIo s (portVia p) = []) (hserved : inServed s (portVia p) (.write p x final) = true) :
    linkWrite p x final [] s = writeIn x final [] s :=
  (if_pos harrive).trans (takeIn_of_served hin hserved)

theorem linkContribution_lands {p : PortId} {x : LinkPkt} {i : ContribInfo} {s : State} (harrive : arrives s p x = true)
    (hin : inboundIo s (portVia p) = []) (hserved : inServed s (portVia p) (.contribution p x i) = true) :
    linkContribution p x i [] s = contributionIn p x i [] s :=
  (if_pos harrive).trans (takeIn_of_served hin hserved)

theorem linkFlag_raises {p : PortId} {x : LinkPkt} {rc : Fin 64} {f : Fin 8} {s : State} (harrive : arrives s p x = true)
    (hin : inboundIo s (portVia p) = []) (hahead : entriesAhead s x.src x.core p = []) :
    linkFlag p x rc f s = raiseFlag x.src x.core x.cmd rc f s :=
  (if_pos harrive).trans ((takeIn_of_served hin rfl).trans (if_pos (by rw [hahead]; rfl)))

theorem linkWrite_waits {p : PortId} {x : LinkPkt} {final : Bool} {chks : List (Nat × PieceCheck)} {s : State}
    (harrive : arrives s p x = true) : linkWrite p x final chks s = takeIn (portVia p) (.write p x final) chks s :=
  if_pos harrive

/-- A command that has to wait for its stacks changes nothing but the wakes that are asked for. -/
theorem nudgeStacks_frame (a n : Nat) (s : State) : (nudgeStacks a n s).cores = s.cores ∧ (nudgeStacks a n s).ports = s.ports ∧
    (nudgeStacks a n s).jobs = s.jobs ∧ (nudgeStacks a n s).dram = s.dram := by
  have h := nudgeStacks_keeps (fun u : State => (u.cores, u.ports, u.jobs, u.dram)) (fun _ _ => rfl) a n s
  simpa only [Prod.mk.injEq] using h

/-! ### The obligation -/

/-- Settles O55: the packets that a command or an acknowledgement sends change ports alone, so each clause is what its own arm of the link
engine does before it sends. -/
theorem linkPackets : Obligations.LinkPackets := by
  intro p q c d x final i rc f l e st j n s k hits fresh allows area
  have next {t y : State} (h : t = y) : (.next t : Host.Outcome State Fault Refusal) = .next y := congrArg _ h
  refine ⟨fun hu ho hr => next (packetForward_of_unrouted hu ho hr), fun hu ho hr hq => next (packetForward_of_down hu ho hr hq),
    fun hn hl hout hf => ⟨fun chks h => next (linkTake_of_fault hn hl hout hf h), fun chks h hr hs => ?_, fun h hbad hs => ?_⟩,
    fun chks harr hw => ?_, fun ⟨harr, hin, hserved, hbad⟩ => ?_,
    fun ⟨harr, hin, hserved, hbad⟩ hf href hland hstore harrd ha hc hj hm hroom hbuf => ?_,
    fun hn ht hstore harrd hflags => ⟨_, rfl, contributionEntry_enters hn ht hstore harrd hflags⟩,
    fun harr hin hahead hc hj hlive => ?_, fun hbuf hbeyond hflags => next (progressAcks_of_one hbuf hbeyond hflags),
    fun ho h18 hc hlate h0 => next (linkAck_of_late ho h18 hc hlate h0), fun ho h18 hc hlate hl hj hlive h0 => ?_,
    fun hl => next (ackTimeout_of_sent hl)⟩
  · exact ⟨_, next (linkTake_of_unserved hn hl hout hf h hr hs), nudgeStacks_frame ..⟩
  · exact ⟨_, next (linkTake_of_served hn hl hout hf h hs), linkSend_takes hbad⟩
  · exact ⟨_, next (linkWrite_waits harr), takeIn_of_waiting hw⟩
  · obtain ⟨hjobs, hframe, hrefused, hbytes⟩ := writeIn_lands (x := x) (final := final) hbad
    exact ⟨_, next (linkWrite_lands harr hin hserved), hjobs, hframe, hrefused, hbytes⟩
  · obtain ⟨hcore, hdram⟩ := contributionIn_enters (p := p) hbad hf href hland hstore harrd ha hc hj hm hroom hbuf
    have hcomb := congrArg (fun k => combOf k i.rk) hcore
    exact ⟨_, broughtEntry p x i s, next (linkContribution_lands harr hin hserved), congrArg Core.linkBuf hcore, rfl, rfl, rfl,
      hcomb, hdram⟩
  · exact ⟨_, next (linkFlag_raises harr hin hahead), raiseFlag_counts hc hj hlive⟩
  · have hlive := linkAck_of_live ho h18 hc hlate hl hj hlive h0
    exact ⟨fun hok => next (hlive.trans (if_pos hok)), fun hbad => next (hlive.trans (if_neg hbad))⟩

end Sys2Proof.Machine

/-! SUPPORT. The fabric's protocols: enumeration, barriers, groups of several dies and heartbeats (R300 to R308, R319, R337). -/

namespace Sys2Proof.Machine

/-! ### Messages along the tree -/

/-- What no port's change touches, messages to the children leave. -/
theorem sendDown_keeps {γ : Type} (p : State → γ) (h : ∀ u n f, p (modPort u n f) = p u) (pk params : Nat) (data : List Byte) (s : State) :
    p (sendDown pk params data s) = p s :=
  foldl_keeps p (fun u n => queuePkt n none (ctlPkt s pk 0 params data) none true u) (fun _ _ => h ..) s.fabric.kids s

/-- What no port's change touches, a message to the parent leaves. -/
theorem sendUp_keeps {γ : Type} (p : State → γ) (h : ∀ u n f, p (modPort u n f) = p u) (pk params : Nat) (data : List Byte) (s : State) :
    p (sendUp pk params data s) = p s := by
  unfold sendUp
  split
  · exact h ..
  · rfl

/-- A packet waits last on its port. -/
theorem queuePkt_queue (q : PortId) (came : Option PortId) (x : LinkPkt) (owner : Option (CoreId × Nat)) (final : Bool) (s : State) :
    ∃ m, (portAt (queuePkt q came x owner final s) q).queue = (portAt s q).queue ++ [m] ∧ m.pkt = x := by
  unfold queuePkt
  rw [portAt_modPort]
  exact ⟨_, rfl, rfl⟩

/-- A message to the parent waits last on the parent's port. -/
theorem sendUp_queue {pk params : Nat} {data : List Byte} {s : State} {q : PortId} (h : s.fabric.parent.toNat = q.val) :
    ∃ m, (portAt (sendUp pk params data s) q).queue = (portAt s q).queue ++ [m] ∧ m.pkt = ctlPkt s pk 0 params data := by
  have hlt : s.fabric.parent.toNat < 10 := h ▸ q.isLt
  have hq : (⟨s.fabric.parent.toNat, hlt⟩ : PortId) = q := Fin.ext h
  unfold sendUp
  rw [dif_pos hlt, hq]
  exact queuePkt_queue ..

/-! ### Enumeration (R300 to R303) -/

/-- What the manager takes from the tree that it has found. -/
def treeKnown (cs : List FabLink) (t : FabTree) (f : Fabric) : Fabric :=
  { f with
    routes := routeTable cs t.nodes 0, kids := kidPorts t.nodes 0, known := t.known
    unassigned := BitVec.ofNat 14 (unassignedOf cs t.nodes), enumSt := 2, tsync := true }

section
variable {s : State} (h3 : s.fabric.enumSt ≠ 3) (hrun : mgtRuns s = true)
include h3 hrun

theorem enumStart_of_settled (hm : s.fabric.mgr = true) (hready : s.power.ready = true) (hp : portsSettled s = true)
    (hz : s.fabric.enumSt = 0 ∨ s.fabric.moved = true) : enumStart s = modFabric s (fun f =>
      { f with idValid := true, id := 0, depth := 0, parent := 0xF, enumSt := 1, moved := false }) := by
  have hzero : (decide (s.fabric.enumSt = 0) || s.fabric.moved) = true := by
    rcases hz with h | h
    · rw [decide_eq_true h, Bool.true_or]
    · rw [h, Bool.or_true]
  exact if_pos (by rw [hm, decide_eq_true h3, hrun, hready, hp, hzero]; rfl)

omit h3 hrun in
theorem enumStart_of_unsettled (hp : portsSettled s = false) : enumStart s = s :=
  if_neg (by rw [hp]; simp)

omit h3 hrun in
/-- Enumeration gives the manager its routes, the tree's ports and what it knows, and sends packets alone (R301). -/
theorem enumerate_sets {cs : List FabLink} {t0 : FabTree} (ht : fabTree cs s.fabric.known = t0) :
    (enumerate cs s).fabric.routes = routeTable cs t0.nodes 0 ∧ (enumerate cs s).fabric.kids = kidPorts t0.nodes 0 ∧
      (enumerate cs s).fabric.known = t0.known ∧ (enumerate cs s).fabric.unassigned = BitVec.ofNat 14 (unassignedOf cs t0.nodes) ∧
      (enumerate cs s).fabric.enumSt = 2 ∧ (enumerate cs s).fabric.id = s.fabric.id ∧ (enumerate cs s).dram = s.dram ∧
      (enumerate cs s).jobs = s.jobs := by
  have hview : unsentView (enumerate cs s) = unsentView (modFabric s (treeKnown cs t0)) := by
    unfold enumerate
    dsimp only
    rw [ht]
    exact foldl_keeps unsentView
      (fun u n => if n.dev = 0 then u else
        sendPkt (ctlPkt (modFabric s (treeKnown cs t0)) 6 (BitVec.ofNat 14 n.id) n.depth []) none true u)
      (fun u n => by
        split
        · rfl
        · exact sendFree_unsentView.sendPkt ..) t0.nodes _
  generalize enumerate cs s = u at hview ⊢
  simp only [unsentView, Prod.mk.injEq] at hview
  obtain ⟨-, hjobs, hdram, hfabric, -⟩ := hview
  have hroutes := congrArg Fabric.routes hfabric
  have hkids := congrArg Fabric.kids hfabric
  have hknown := congrArg Fabric.known hfabric
  have hun := congrArg Fabric.unassigned hfabric
  have hst := congrArg Fabric.enumSt hfabric
  have hid := congrArg Fabric.id hfabric
  exact ⟨hroutes, hkids, hknown, hun, hst, hid, hdram, hjobs⟩

theorem enumPacket_heard : ¬(s.fabric.enumSt = 3 ∨ mgtRuns s = false) :=
  fun h => h.elim h3 fun e => Bool.false_ne_true (e.symm.trans hrun)

theorem enumPacket_of_found {x : EnumPkt} {cs : List FabLink} (hm : s.fabric.mgr = true) (h1 : s.fabric.enumSt = 1)
    (ho : x.fromOther = false) (hf : x.found = some cs) : enumPacket x s = enumerate cs s := by
  unfold enumPacket
  rw [if_neg (enumPacket_heard h3 hrun), if_neg (by rw [ho]; simp), if_pos hm, hf]
  exact if_pos h1

theorem enumPacket_of_other {x : EnumPkt} (hm : s.fabric.mgr = true) (ho : x.fromOther = true) :
    enumPacket x s = raiseAlert .resourceConflict 0 (modFabric s (fun f => { f with enumSt := 3 })) := by
  unfold enumPacket
  rw [if_neg (enumPacket_heard h3 hrun)]
  exact if_pos (by rw [hm, ho]; rfl)

theorem enumPacket_of_worker (x : EnumPkt) (hm : s.fabric.mgr = false) : enumPacket x s = enumTake x s := by
  unfold enumPacket
  rw [if_neg (enumPacket_heard h3 hrun), if_neg (by rw [hm]; simp), if_neg (by rw [hm]; decide)]

end

theorem enumTake_of_assigned {x : EnumPkt} {id : BitVec 14} {dep : BitVec 5} {par : BitVec 4} {s : State}
    (ha : x.assign = some (id, dep, par)) (hr : x.routes = []) (hk : x.kids = none) : enumTake x s = { s with fabric := { s.fabric with
      idValid := true, id := id, depth := dep, parent := par, enumSt := if x.done = true then 2 else 1 } } := by
  unfold enumTake
  rw [ha, hr, hk]
  rfl

theorem enumTake_of_unassigned {x : EnumPkt} {s : State} (ha : x.assign = none) :
    (enumTake x s).fabric.routes = x.routes.foldl setRoute s.fabric.routes ∧ (enumTake x s).fabric.kids = x.kids.getD s.fabric.kids ∧
      (enumTake x s).fabric.id = s.fabric.id ∧ (enumTake x s).ports = s.ports := by
  unfold enumTake
  rw [ha]
  exact ⟨rfl, rfl, rfl, rfl⟩

/-! ### Barriers (R306, R307) -/

theorem modBar_modBar (s : State) (b : Fin 8) (f g : Barrier → Barrier) : modBar (modBar s b f) b g = modBar s b (fun x => g (f x)) := by
  have hset : (s.fabric.barm.set b.val (f (s.fabric.barm.get b)) b.isLt).set b.val
      (g ((s.fabric.barm.set b.val (f (s.fabric.barm.get b)) b.isLt).get b)) b.isLt =
        s.fabric.barm.set b.val (g (f (s.fabric.barm.get b))) b.isLt := by
    rw [get_set_self, Vector.set_set]
  exact congrArg (fun v => { s with fabric := { s.fabric with barm := v } }) hset

theorem modBar_congr {s : State} {b : Fin 8} {f : Barrier → Barrier} {y : Barrier} (h : f (barAt s b) = y) :
    modBar s b f = modBar s b (fun _ => y) := by
  have e := congrArg (fun y => modBar s b (fun _ => y)) h
  exact e

/-- A barrier as it is released at `at_`, while fabric time is `now` (R307). -/
def releasedBar (now at_ : Word) (y : Barrier) : Barrier :=
  { y with
    mode := 0, state := 2, late := y.late || decide (at_.toNat < now.toNat), kids := [], selfIn := false
    release := if y.mode = 2 then some at_ else none }

/-- A release changes the barrier and sends messages; no job and no core changes. -/
theorem barRelease_releases {b : Fin 8} {at_ : Word} {s : State} (h : (barAt s b).state = 1) :
    barAt (barRelease b at_ s) b = releasedBar s.fabric.time at_ (barAt s b) ∧ (barRelease b at_ s).jobs = s.jobs ∧
      (barRelease b at_ s).cores = s.cores := by
  let s1 := modBar s b (releasedBar s.fabric.time at_)
  have hview : (fun u : State => (u.fabric, u.jobs, u.cores)) (barRelease b at_ s) = (s1.fabric, s1.jobs, s1.cores) := by
    unfold barRelease
    dsimp only
    rw [if_pos h]
    exact sendDown_keeps (fun u : State => (u.fabric, u.jobs, u.cores)) (fun _ _ _ => rfl) ..
  simp only [Prod.mk.injEq] at hview
  obtain ⟨hfabric, hjobs, hcores⟩ := hview
  have hbar := congrArg (fun f : Fabric => f.barm.get b) hfabric
  exact ⟨hbar.trans (barAt_modBar ..), hjobs, hcores⟩

theorem barArrive_of_met {b : Fin 8} {s : State} (hc : barCondition s b = true) (ha : auxGates s b = false) (hrun : mgtRuns s = true) :
    barArrive b none s = barCheck b (modBar s b (fun x => { x with selfIn := true })) :=
  if_pos (by rw [hc, ha, hrun]; rfl)

theorem barArrive_of_early {b : Fin 8} {s : State} (hc : barCondition s b = true) (ha : auxGates s b = false) (hrun : mgtRuns s = true)
    (hk : ∃ q ∈ s.fabric.kids, q ∉ (barAt s b).kids) :
    barArrive b none s = modBar s b (fun _ => { barAt s b with selfIn := true }) := by
  obtain ⟨q, hq, hn⟩ := hk
  let s1 := modBar s b (fun x => { x with selfIn := true })
  have hbar : barAt s1 b = { barAt s b with selfIn := true } := barAt_modBar ..
  have hstays : barCheck b s1 = s1 := barCheck_of_absent ⟨q, hq, by rw [hbar]; exact hn⟩
  exact (barArrive_of_met hc ha hrun).trans hstays

/-- With its last arrival a manager's barrier is released after the lead time (R306, R307). -/
theorem barArrive_of_last {b : Fin 8} {s : State} (hc : barCondition s b = true) (ha : auxGates s b = false) (hrun : mgtRuns s = true)
    (hk : ∀ q ∈ s.fabric.kids, q ∈ (barAt s b).kids) (h1 : (barAt s b).state ≠ 1) (hm : s.fabric.mgr = true) :
    barArrive b none s = barRelease b (s.fabric.time + leadTime s) (modBar s b (fun y => { y with selfIn := true, state := 1 })) := by
  let s1 := modBar s b (fun x => { x with selfIn := true })
  have hbar : barAt s1 b = { barAt s b with selfIn := true } := barAt_modBar ..
  have hall : s1.fabric.kids.all (fun p => (barAt s1 b).kids.contains p) = true := by
    rw [hbar]
    exact List.all_eq_true.2 fun q hq => by simpa using hk q hq
  have hself : (barAt s1 b).selfIn = true := by rw [hbar]
  have hstate : decide ((barAt s1 b).state ≠ 1) = true := decide_eq_true (by rw [hbar]; exact h1)
  have hmod : modBar s1 b (fun x => { x with state := 1 }) = modBar s b (fun y => { y with selfIn := true, state := 1 }) := modBar_modBar ..
  rw [barArrive_of_met hc ha hrun, ← hmod]
  unfold barCheck
  dsimp only
  rw [if_pos (by rw [hself, hall, hstate]; rfl)]
  exact if_pos hm

/-- A tree child's arrival before the die's own is noted (R306). -/
theorem barArrive_of_child {b : Fin 8} {p : PortId} {s : State} (hk : p ∈ s.fabric.kids) (hu : portUp s p = true)
    (hs : (barAt s b).selfIn = false) (hn : p ∉ (barAt s b).kids) :
    barArrive b (some p) s = modBar s b (fun _ => { barAt s b with kids := (barAt s b).kids ++ [p] }) := by
  have hmod : modBar s b (fun x => { x with kids := if x.kids.contains p then x.kids else x.kids ++ [p] }) =
      modBar s b (fun _ => { barAt s b with kids := (barAt s b).kids ++ [p] }) :=
    modBar_congr (by rw [if_neg (by simpa using hn)])
  unfold barArrive
  dsimp only
  rw [if_pos (by rw [hu, Bool.and_true]; simpa using hk), hmod]
  unfold barCheck
  dsimp only
  rw [barAt_modBar]
  exact if_neg (by rw [hs]; simp)

section
variable {b : Fin 8} {at_ : Word} {s : State} (h : (barAt s b).release = some at_)
include h

theorem barStart_of_due (ht : s.fabric.tsync = false ∨ at_.toNat ≤ s.fabric.time.toNat) :
    barStart b s = jobStart (jobIx (barAt s b).job.toNat) (modBar s b (fun _ => { barAt s b with release := none })) := by
  unfold barStart
  dsimp only
  rw [h]
  exact if_pos ht

theorem barStart_of_early (hs : s.fabric.tsync = true) (ht : s.fabric.time.toNat < at_.toNat) : barStart b s = s := by
  unfold barStart
  dsimp only
  rw [h]
  refine if_neg ?_
  rw [hs]
  simpa using ht

end

/-! ### Groups of several dies (R319) -/

/-- A worker with all its members and tree children prepared reports to its parent. -/
theorem fabricPrepared_reports {g : Fin 16} {take : Bool} {s : State} (hs : (groupAt s g).state = .preparing) (hw : fabricWide s g = true)
    (hf : groupFenced s (groupAt s g) = none) (hr : (groupAt s g).reported = false) (hp : allPrepared (groupAt s g) = true)
    (hk : ∀ q ∈ s.fabric.kids, q ∈ (groupAt s g).kids) (hm : s.fabric.mgr = false) : fabricPrepared g none take s =
      sendUp 7 (0x20 + g.val) [BitVec.ofNat 8 (bitNat ((groupAt s g).busy || snapBusy s))]
        (modGroup s g (fun x => { x with reported := true })) := by
  have hall : s.fabric.kids.all (fun p => (groupAt s g).kids.contains p) = true :=
    List.all_eq_true.2 fun q hq => by simpa using hk q hq
  unfold fabricPrepared
  dsimp only
  rw [if_pos (by rw [hs, hw]; rfl), hf]
  dsimp only
  unfold fabricReport
  dsimp only
  rw [if_pos (by rw [hs, hw, hr, hp, hall]; rfl)]
  exact if_neg (by rw [hm]; decide)

theorem fabricAbort_of_undecided {g : Fin 16} {l : Nat} {s : State} (hs : (groupAt s g).state = .isOpen ∨ (groupAt s g).state = .preparing)
    (hw : fabricWide s g = true) : fabricAbort g l s = abortGroup g l s := by
  refine if_pos ?_
  rcases hs with h | h <;> rw [h, hw] <;> rfl

/-- Groups, the fabric, the bytes of DRAM and alerts. -/
def abortView (s : State) : Vector Group 16 × Fabric × ByteMem × List Alert := (s.groups, s.fabric, s.dram, s.rings.alerts)

theorem abortView_answer (a : Awaits) (st : Status) (res : BitVec 192) (s : State) : abortView (answer a st res s) = abortView s := by
  unfold answer
  exact (foldl_keeps abortView (fun u (c : OpenCmd) => putReply c.opcode.toNat c.tag c.irq st res u) (fun _ _ => rfl) _ _).trans rfl

/-- Of groups, the fabric, DRAM and alerts an abort changes the aborted group alone. -/
theorem abortView_abortGroup (g : Fin 16) (l : Nat) (s : State) :
    abortView (abortGroup g l s) = abortView (modGroup s g (abortedGroup l)) := by
  obtain ⟨u, hu, he⟩ := abortGroup_answers g l s
  have hview := congrArg abortView (hu s)
  rw [he, abortView_answer]
  exact hview

/-- The decision of the manager reaches a worker, whose group then applies; no core and no byte of DRAM changes with it. -/
theorem decideGroup_decides (g : Fin 16) (t : Option Word) (force : Option Bool) (s : State) :
    groupAt (decideGroup g t force s) g = { groupAt s g with state := .applying, applied := [], applyAt := t } ∧
      (decideGroup g t force s).cores = s.cores ∧ (decideGroup g t force s).dram = s.dram := by
  let view (u : State) := (u.groups, u.cores, u.dram)
  have htake (u : State) : view (snapTake g u) = view u :=
    (rfl : view (modSnap _ _) = view _).trans (foldl_keeps view (fun u (r : Nat × Nat) => nudgeStacks r.1 r.2 u)
      (fun u r => nudgeStacks_keeps view (fun _ _ => rfl) r.1 r.2 u) _ u)
  have hgo (p : Prop) [Decidable p] (u v w : State) (hu : view u = view w) (hv : view v = view w) : view (if p then u else v) = view w := by
    split
    · exact hu
    · exact hv
  have happly (u : State) : view (applyEpoch g force u) = view u := by
    unfold applyEpoch
    split
    · rfl
    · exact hgo _ _ _ _ (htake _) rfl
  have hview := happly (modGroup s g (fun x => { x with state := .applying, applied := [], applyAt := t }))
  simp only [view, Prod.mk.injEq] at hview
  obtain ⟨hgroups, hcores, hdram⟩ := hview
  have hgroup := congrArg (fun v : Vector Group 16 => v.get g) hgroups
  exact ⟨hgroup.trans (groupAt_modGroup ..), hcores, hdram⟩

theorem fabricApply_of_reported {g : Fin 16} {t : Word} {take : Bool} {s : State} (hs : (groupAt s g).state = .preparing)
    (hw : fabricWide s g = true) (hr : (groupAt s g).reported = true) (hm : s.fabric.mgr = false) : fabricApply g t take s =
      decideGroup g (some t) (some take) (sendDown 7 (0x40 + g.val) (leBytes 8 t.toNat ++ [BitVec.ofNat 8 (bitNat take)]) s) :=
  if_pos (by rw [hs, hw, hr, hm]; rfl)

theorem fabricApply_applies {g : Fin 16} {t : Word} {take : Bool} {s : State} (hs : (groupAt s g).state = .preparing)
    (hw : fabricWide s g = true) (hr : (groupAt s g).reported = true) (hm : s.fabric.mgr = false) :
    groupAt (fabricApply g t take s) g = { groupAt s g with state := .applying, applied := [], applyAt := some t } ∧
      (fabricApply g t take s).cores = s.cores ∧ (fabricApply g t take s).dram = s.dram := by
  let s1 := sendDown 7 (0x40 + g.val) (leBytes 8 t.toNat ++ [BitVec.ofNat 8 (bitNat take)]) s
  have hsent : (fun u : State => (u.groups, u.cores, u.dram)) s1 = (s.groups, s.cores, s.dram) :=
    sendDown_keeps (fun u : State => (u.groups, u.cores, u.dram)) (fun _ _ _ => rfl) ..
  simp only [Prod.mk.injEq] at hsent
  obtain ⟨hgroups, hcores, hdram⟩ := hsent
  have hgroup : groupAt s1 g = groupAt s g := congrArg (fun v : Vector Group 16 => v.get g) hgroups
  rw [fabricApply_of_reported hs hw hr hm]
  obtain ⟨happly, hc, hd⟩ := decideGroup_decides g (some t) (some take) s1
  rw [hgroup] at happly
  exact ⟨happly, hc.trans hcores, hd.trans hdram⟩

/-! ### Heartbeats (R308, R337) -/

theorem heartbeatSend_of_worker {p : PortId} {s : State} (hl : s.power.lost = false) (hv : s.fabric.idValid = true)
    (hrun : mgtRuns s = true) (hm : s.fabric.mgr = false) (hid : s.fabric.id ≠ 0) (hr : routeOf s 0 = some p) (hu : portUp s p = false) :
    heartbeatSend s = queuePkt p none (ctlPkt s 5 0 0 []) none true s := by
  have hown : isOwnId s (ctlPkt s 5 0 0 []).dst = false := by
    unfold isOwnId
    rw [hv]
    exact decide_eq_false hid
  unfold heartbeatSend
  rw [if_neg (by rw [hl, hv, hrun]; decide), if_neg (by rw [hm]; decide)]
  exact routePkt_of_down hown hr hu

theorem heartbeatPacket_of_manager {peer : BitVec 14} {s : State} (hrun : mgtRuns s = true) (hm : s.fabric.mgr = true) :
    heartbeatPacket peer s = modFabric s (fun f => { f with lostPeers := f.lostPeers.filter (fun n => decide (n ≠ peer.toNat)) }) := by
  unfold heartbeatPacket
  rw [if_pos hrun]
  exact if_pos (by rw [hm]; rfl)

/-! ### What a lost peer halts (R319, R337) -/

/-- No job runs or is stopped. -/
def allStill (s : State) : Prop := ∀ j, canFence (jobAt s j) = false

theorem allStill_congr {s t : State} (h : t.jobs = s.jobs) (hs : allStill s) : allStill t := fun j => by
  unfold jobAt
  rw [h]
  exact hs j

theorem canFence_fenceJob_self (j : JobId) (i : FaultInfo) (s : State) : canFence (jobAt (fenceJob j i s) j) = false := by
  rcases fenceJob_cases j i s with ⟨hc, he⟩ | ⟨-, hentry, -⟩
  · rw [he]
    exact hc
  · rw [hentry]
    rfl

theorem canFence_fenceJob {n j : JobId} {i : FaultInfo} {s : State} (h : canFence (jobAt s j) = false) :
    canFence (jobAt (fenceJob n i s) j) = false := by
  by_cases hn : j = n
  · rw [hn]
    exact canFence_fenceJob_self n i s
  · rcases fenceJob_cases n i s with ⟨-, he⟩ | ⟨-, -, hother, -⟩
    · rw [he]
      exact h
    · rw [hother j hn]
      exact h

/-- The fence of every job that runs or is stopped leaves none. -/
theorem allStill_fenceWhere (i : FaultInfo) (s : State) : allStill (fenceWhere canFence i s) := by
  intro j
  cases hj : canFence (jobAt s j)
  · exact foldl_inv (fun u => canFence (jobAt u j) = false) _ (fun _ _ => canFence_fenceJob) _ s hj
  · exact foldl_reaches (inv := fun _ => True) (done := fun u => canFence (jobAt u j) = false)
      (mem_jobsWhere hj (ne_freeJob_of_canFence hj)) trivial (fun _ _ _ _ => trivial) (fun u _ => canFence_fenceJob_self j i u)
      (fun _ _ _ => canFence_fenceJob)

theorem allStill_cancelWaiting {s : State} (h : allStill s) : allStill (cancelWaiting s) := by
  refine foldl_inv allStill _ (fun u n hu j => ?_) _ s h
  by_cases hn : j = n
  · rw [hn, jobAt_cancelJob]
    rfl
  · rw [jobAt_cancelJob_ne _ _ hn]
    exact hu j

theorem fenceCore_of_allStill {c : CoreId} {i : FaultInfo} {s : State} (h : allStill s) : fenceCore c i s = s := by
  unfold fenceCore
  split
  next j _ =>
    unfold fenceJob
    rw [h j]
    rfl
  next => rfl

/-- While no job runs, the abort of a group fences none. -/
theorem abortGroup_jobs {g : Fin 16} {l : Nat} {s : State} (h : allStill s) : (abortGroup g l s).jobs = s.jobs := by
  have hgroup : allStill (modGroup s g (abortedGroup l)) := h
  have hfences (cs : List CoreId) : cs.foldl (fun u c => fenceCore c (fltD .commitAborted c g.val l) u) (modGroup s g (abortedGroup l)) =
      modGroup s g (abortedGroup l) :=
    List.foldlRecOn (motive := fun t => t = modGroup s g (abortedGroup l)) cs _ rfl fun t ht c _ => by
      rw [ht]
      exact fenceCore_of_allStill hgroup
  have hfenced (cs : List CoreId) := congrArg State.jobs (hfences cs)
  unfold abortGroup
  dsimp only
  rw [answer_jobs]
  split
  · exact (sendDown_keeps State.jobs (fun _ _ _ => rfl) ..).trans
      ((sendUp_keeps State.jobs (fun _ _ _ => rfl) ..).trans (hfenced _))
  · exact hfenced _

/-- What a halt leaves of the fabric, DRAM and alerts. -/
def haltView (s : State) : Fabric × ByteMem × List Alert := (s.fabric, s.dram, s.rings.alerts)

theorem haltView_abortGroup (g : Fin 16) (l : Nat) (s : State) : haltView (abortGroup g l s) = haltView s :=
  congrArg Prod.snd (abortView_abortGroup g l s)

theorem haltView_fenceWhere (p : Job → Bool) (i : FaultInfo) (s : State) : haltView (fenceWhere p i s) = haltView s := by
  refine foldl_keeps haltView _ (fun u j => ?_) _ s
  have e := congrArg haltView (fenceJob_unfenced u j i u)
  exact e

theorem haltView_cancelWaiting (s : State) : haltView (cancelWaiting s) = haltView s :=
  foldl_keeps haltView (fun u j => cancelJob j 0xFFFF u) (fun _ _ => rfl) _ s

theorem haltView_snapFail (st : Status) (s : State) : haltView (snapFail st s) = haltView s := by
  unfold snapFail
  split
  · exact (congrArg Prod.snd (abortView_answer ..)).trans rfl
  · rfl

/-- What a halt does to one group: one of several dies that is not decided is aborted. -/
def haltGroup (u : State) (g : Fin 16) : State :=
  if fabricWide u g && ((groupAt u g).state == .isOpen || (groupAt u g).state == .preparing) then abortGroup g 0xFFFF u else u

theorem halt_eq (epoch : BitVec 32) (lost : BitVec 14) (s : State) : halt epoch lost s =
    modSnap (snapFail .peerLost ((List.finRange 16).foldl haltGroup
      (cancelWaiting (fenceWhere canFence (unitFault .peerLost 0xFF 0 0) s)))) (fun z =>
        { z with halted := true, haltEpoch := epoch, lost := lost }) := rfl

theorem halt_haltView (epoch : BitVec 32) (lost : BitVec 14) (s : State) : haltView (halt epoch lost s) = haltView s := by
  have hgroups (u : State) : haltView ((List.finRange 16).foldl haltGroup u) = haltView u :=
    foldl_keeps haltView haltGroup (fun u g => by
      unfold haltGroup
      split
      · exact haltView_abortGroup ..
      · rfl) _ u
  rw [halt_eq]
  calc haltView (modSnap _ _)
      _ = _ := haltView_snapFail .peerLost _
      _ = _ := hgroups _
      _ = _ := haltView_cancelWaiting _
      _ = _ := haltView_fenceWhere ..

/-- After a halt no job runs. -/
theorem halt_allStill (epoch : BitVec 32) (lost : BitVec 14) (s : State) : allStill (halt epoch lost s) := by
  have hgroups (u : State) (hu : allStill u) : allStill ((List.finRange 16).foldl haltGroup u) :=
    foldl_inv allStill haltGroup (fun u g hu => by
      unfold haltGroup
      split
      · exact allStill_congr (abortGroup_jobs hu) hu
      · exact hu) _ u hu
  have hend (u : State) : (snapFail .peerLost u).jobs = u.jobs := congrArg Prod.fst (endView_snapFail ..)
  rw [halt_eq]
  exact allStill_congr (hend _) (hgroups _ (allStill_cancelWaiting (allStill_fenceWhere _ _)))

/-- The state once a peer is missed and reported, before the halt. -/
def missed (peer : BitVec 14) (s : State) : State :=
  raiseAlert .peerLost (BitVec.ofNat 64 peer.toNat) (modFabric s (fun f => { f with lostPeers := f.lostPeers ++ [peer.toNat] }))

theorem heartbeatMiss_of_manager {peer : BitVec 14} {s : State} (hrun : mgtRuns s = true) (hv : s.fabric.idValid = true)
    (hm : s.fabric.mgr = true) (h0 : peer ≠ 0) (hnew : s.fabric.lostPeers.contains peer.toNat = false) : heartbeatMiss peer s =
      halt s.snap.complete peer
        (sendDown 7 0x50 (leBytes 4 s.snap.complete.toNat ++ leBytes 2 peer.toNat) (missed peer s)) := by
  have hpower : (missed peer s).power = s.power :=
    (raiseAlert_keeps State.power (fun _ _ => rfl) (fun _ _ => rfl) ..).trans rfl
  have hruns : mgtRuns (missed peer s) = true := by
    unfold mgtRuns at *
    rw [hpower]
    exact hrun
  unfold heartbeatMiss
  rw [if_pos (by rw [hrun, hv, hnew, if_pos hm]; simpa using h0)]
  exact (if_pos hm).trans (if_pos hruns)

/-- A lost peer is remembered, reported and halts the fabric. -/
theorem heartbeatMiss_halts {peer : BitVec 14} {s : State} (hrun : mgtRuns s = true) (hv : s.fabric.idValid = true)
    (hm : s.fabric.mgr = true) (h0 : peer ≠ 0) (hnew : s.fabric.lostPeers.contains peer.toNat = false) :
    let t := heartbeatMiss peer s
    peer.toNat ∈ t.fabric.lostPeers ∧ t.snap.halted = true ∧ t.snap.lost = peer ∧ t.snap.haltEpoch = s.snap.complete ∧
      (∃ a ∈ t.rings.alerts, a.status = .peerLost) ∧ (∀ j, canFence (jobAt t j) = false) ∧ t.dram = s.dram := by
  intro t
  let u := sendDown 7 0x50 (leBytes 4 s.snap.complete.toNat ++ leBytes 2 peer.toNat) (missed peer s)
  have ht : t = halt s.snap.complete peer u := heartbeatMiss_of_manager hrun hv hm h0 hnew
  have hview : haltView t = haltView (missed peer s) := by
    rw [ht, halt_haltView]
    exact sendDown_keeps haltView (fun _ _ _ => rfl) ..
  simp only [haltView, Prod.mk.injEq] at hview
  obtain ⟨hfabric, hdram, halerts⟩ := hview
  have hmissed : (fun v : State => (v.fabric, v.dram)) (missed peer s) =
      ({ s.fabric with lostPeers := s.fabric.lostPeers ++ [peer.toNat] }, s.dram) :=
    (raiseAlert_keeps (fun v : State => (v.fabric, v.dram)) (fun _ _ => rfl) (fun _ _ => rfl) ..).trans rfl
  simp only [Prod.mk.injEq] at hmissed
  obtain ⟨hlost, hbytes⟩ := hmissed
  obtain ⟨a, ha, hst, -⟩ := mem_alertJoin .peerLost (BitVec.ofNat 64 peer.toNat) s.rings.alerts
  have hsnap : t.snap.halted = true ∧ t.snap.lost = peer ∧ t.snap.haltEpoch = s.snap.complete := by
    rw [ht]
    exact ⟨rfl, rfl, rfl⟩
  obtain ⟨hhalted, hpeer, hepoch⟩ := hsnap
  refine ⟨?_, hhalted, hpeer, hepoch, ⟨a, ?_, hst⟩, ?_, hdram.trans hbytes⟩
  · rw [hfabric, hlost]
    exact List.mem_append_right _ (List.mem_singleton_self _)
  · rw [halerts, missed, raiseAlert_alerts]
    exact ha
  · rw [ht]
    exact halt_allStill _ _ _

/-! ### The obligation -/

theorem barArrive_releases {b : Fin 8} {s : State} (hc : barCondition s b = true) (ha : auxGates s b = false) (hrun : mgtRuns s = true)
    (hk : ∀ q ∈ s.fabric.kids, q ∈ (barAt s b).kids) (h1 : (barAt s b).state ≠ 1) (hm : s.fabric.mgr = true) :
    barAt (barArrive b none s) b = releasedBar s.fabric.time (s.fabric.time + leadTime s) (barAt s b) ∧ (barArrive b none s).jobs = s.jobs ∧
      (barArrive b none s).cores = s.cores := by
  let s1 := modBar s b (fun y => { y with selfIn := true, state := 1 })
  have hbar : barAt s1 b = { barAt s b with selfIn := true, state := 1 } := barAt_modBar ..
  have hrel := barRelease_releases (at_ := s.fabric.time + leadTime s) (show (barAt s1 b).state = 1 by rw [hbar])
  rw [hbar] at hrel
  rw [barArrive_of_last hc ha hrun hk h1 hm]
  exact hrel

theorem enumPacket_other_alerts {x : EnumPkt} {s : State} (h3 : s.fabric.enumSt ≠ 3) (hrun : mgtRuns s = true) (hm : s.fabric.mgr = true)
    (ho : x.fromOther = true) : (enumPacket x s).fabric = { s.fabric with enumSt := 3 } ∧
      (∃ a ∈ (enumPacket x s).rings.alerts, a.status = .resourceConflict) ∧ (enumPacket x s).dram = s.dram ∧
      (enumPacket x s).cores = s.cores := by
  rw [enumPacket_of_other h3 hrun hm ho]
  have hview : (fun v : State => (v.fabric, v.dram, v.cores))
      (raiseAlert .resourceConflict 0 (modFabric s (fun f => { f with enumSt := 3 }))) =
        ({ s.fabric with enumSt := 3 }, s.dram, s.cores) :=
    (raiseAlert_keeps (fun v : State => (v.fabric, v.dram, v.cores)) (fun _ _ => rfl) (fun _ _ => rfl) ..).trans rfl
  simp only [Prod.mk.injEq] at hview
  obtain ⟨hfabric, hdram, hcores⟩ := hview
  obtain ⟨a, ha, hst, -⟩ := mem_alertJoin .resourceConflict 0 s.rings.alerts
  exact ⟨hfabric, ⟨a, by rw [raiseAlert_alerts]; exact ha, hst⟩, hdram, hcores⟩

theorem fabricPrepared_queues {g : Fin 16} {take : Bool} {s : State} (hs : (groupAt s g).state = .preparing) (hw : fabricWide s g = true)
    (hf : groupFenced s (groupAt s g) = none) (hr : (groupAt s g).reported = false) (hp : allPrepared (groupAt s g) = true)
    (hk : ∀ q ∈ s.fabric.kids, q ∈ (groupAt s g).kids) (hm : s.fabric.mgr = false) :
    let t := fabricPrepared g none take s
    groupAt t g = { groupAt s g with reported := true } ∧
      (∀ q : PortId, s.fabric.parent.toNat = q.val → ∃ m, (portAt t q).queue = (portAt s q).queue ++ [m] ∧ m.pkt.pk = 7 ∧
        m.pkt.addr = BitVec.ofNat 48 (0x20 + g.val) ∧ m.pkt.data = [BitVec.ofNat 8 (bitNat ((groupAt s g).busy || snapBusy s))]) ∧
      t.cores = s.cores ∧ t.dram = s.dram := by
  intro t
  let s1 := modGroup s g (fun x => { x with reported := true })
  have ht : t = sendUp 7 (0x20 + g.val) [BitVec.ofNat 8 (bitNat ((groupAt s g).busy || snapBusy s))] s1 :=
    fabricPrepared_reports hs hw hf hr hp hk hm
  have hview : (fun u : State => (u.groups, u.cores, u.dram)) t = (s1.groups, s.cores, s.dram) := by
    rw [ht]
    exact sendUp_keeps (fun u : State => (u.groups, u.cores, u.dram)) (fun _ _ _ => rfl) ..
  simp only [Prod.mk.injEq] at hview
  obtain ⟨hgroups, hcores, hdram⟩ := hview
  have hgroup := congrArg (fun v : Vector Group 16 => v.get g) hgroups
  refine ⟨hgroup.trans (groupAt_modGroup ..), fun q hq => ?_, hcores, hdram⟩
  obtain ⟨m, hqueue, hpkt⟩ := sendUp_queue (pk := 7) (params := 0x20 + g.val)
    (data := [BitVec.ofNat 8 (bitNat ((groupAt s g).busy || snapBusy s))]) (s := s1) hq
  exact ⟨m, by rw [ht]; exact hqueue, by rw [hpkt]; rfl, by rw [hpkt]; rfl, by rw [hpkt]; rfl⟩

theorem fabricAbort_aborts {g : Fin 16} {l : BitVec 16} {s : State} (hs : (groupAt s g).state = .isOpen ∨ (groupAt s g).state = .preparing)
    (hw : fabricWide s g = true) :
    let t := fabricAbort g l.toNat s
    (groupAt t g).state = .aborted ∧ (groupAt t g).status = .commitAborted ∧ (groupAt t g).detail = l ∧ (groupAt t g).regs = [] ∧
      (groupAt t g).mems = [] ∧ t.dram = s.dram := by
  intro t
  have hview : abortView t = abortView (modGroup s g (abortedGroup l.toNat)) := by
    rw [show t = abortGroup g l.toNat s from fabricAbort_of_undecided hs hw]
    exact abortView_abortGroup ..
  simp only [abortView, Prod.mk.injEq] at hview
  obtain ⟨hgroups, -, hdram, -⟩ := hview
  have hgroup : groupAt t g = abortedGroup l.toNat (groupAt s g) :=
    (congrArg (fun v : Vector Group 16 => v.get g) hgroups).trans (groupAt_modGroup ..)
  rw [hgroup]
  exact ⟨rfl, rfl, BitVec.ofNat_toNat 16 l |>.trans (BitVec.setWidth_eq l), rfl, rfl, hdram⟩

/-- Settles O56: messages along the tree wait at ports, so each clause is what its own protocol does to the fabric, its barrier or its
group; a lost peer's halt fences every job before the groups that it aborts could fence one. -/
theorem fabricProtocols : Obligations.FabricProtocols := by
  intro x b g p at_ l peer id dep par take s f y z lead
  have next {t u : State} (h : t = u) : (.next t : Host.Outcome State Fault Refusal) = .next u := congrArg _ h
  refine ⟨fun hm h3 hrun hready hp hz => next (enumStart_of_settled h3 hrun hm hready hp hz), fun _ _ hp => next (enumStart_of_unsettled hp),
    fun cs hm h1 hrun ho hf => ⟨_, next (enumPacket_of_found ?_ hrun hm h1 ho hf), enumerate_sets rfl⟩,
    fun h3 hrun hm ho => ⟨_, rfl, enumPacket_other_alerts h3 hrun hm ho⟩,
    fun h3 hrun hm ha hr hk => next ((enumPacket_of_worker h3 hrun x hm).trans (enumTake_of_assigned ha hr hk)),
    fun h3 hrun hm ha => ⟨_, next (enumPacket_of_worker h3 hrun x hm), enumTake_of_unassigned ha⟩,
    fun hc ha hrun hk => next (barArrive_of_early hc ha hrun hk),
    fun hc ha hrun hk h1 hm => ⟨_, rfl, barArrive_releases hc ha hrun hk h1 hm⟩,
    fun hk hu hs hn => next (barArrive_of_child hk hu hs hn), fun h1 => ⟨_, rfl, barRelease_releases h1⟩,
    fun h ht => next (barStart_of_due h ht), fun h hs ht => next (barStart_of_early h hs ht),
    fun hs hw hf hr hp hk hm => ⟨_, rfl, fabricPrepared_queues hs hw hf hr hp hk hm⟩,
    fun hs hw => ⟨_, rfl, fabricAbort_aborts hs hw⟩, fun hs hw hr hm => ⟨_, rfl, fabricApply_applies hs hw hr hm⟩,
    fun hl => next (if_pos (.inl hl)), fun hl hv hrun hm hid hr hu => ?_, fun hrun hm => next (heartbeatPacket_of_manager hrun hm),
    fun hrun hv hm h0 hnew => ⟨_, rfl, heartbeatMiss_halts hrun hv hm h0 hnew⟩⟩
  · rw [h1]
    decide
  · obtain ⟨m, hqueue, hpkt⟩ := queuePkt_queue p none (ctlPkt s 5 0 0 []) none true s
    exact ⟨_, m, next (heartbeatSend_of_worker hl hv hrun hm hid hr hu), hqueue, by rw [hpkt]; rfl, by rw [hpkt]; rfl, rfl, rfl⟩

end Sys2Proof.Machine

/-! SUPPORT. The local store of a core: what leaves it, and what writes it in canonical form. The equations of a core's functions are
proved by `(rfl)`, so that `simp` carries a proof of them into the side condition of `modCore_memories`. -/

namespace Sys2Proof.Machine

/-- A fold whose every turn leaves the local store leaves it. -/
theorem foldl_store {α : Type} {f : Core → α → Core} (h : ∀ k a, (f k a).store = k.store) (l : List α) (k : Core) :
    (l.foldl f k).store = k.store := foldl_keeps Core.store f h l k

@[simp] theorem setSreg_store (k : Core) (n : SReg) (v : Word) : (setSreg k n v).store = k.store := by
  unfold setSreg
  split <;> rfl

@[simp] theorem pushPend_store (k : Core) (p : Pend) : (pushPend k p).store = k.store := (rfl)
@[simp] theorem pushPends_store (k : Core) (ps : List Pend) : (pushPends k ps).store = k.store := by
  unfold pushPends
  refine foldl_store (fun _ _ => ?_) _ _
  simp

@[simp] theorem modTile_store (k : Core) (t : TReg) (f : Tile → Tile) : (modTile k t f).store = k.store := (rfl)
@[simp] theorem opView_store (o : Strm) (t : Nat) (found : Vector Tile 32) (k : Core) : (opView o t found k).store = k.store := by
  unfold opView
  rfl

@[simp] theorem takeTiles_store (k : Core) (uses : List PortUse) : (takeTiles k uses).store = k.store := (rfl)
@[simp] theorem modArr_store (k : Core) (m : Fin 4) (f : Arr → Arr) : (modArr k m f).store = k.store := (rfl)
@[simp] theorem modArrs_store (k : Core) (mask : Fin 16) (f : Arr → Arr) : (modArrs k mask f).store = k.store := by
  unfold modArrs
  refine foldl_store (fun _ _ => ?_) _ _
  simp

@[simp] theorem mmaStart_store (k : Core) (x : MmaFields) (now : Nat) (m : Fin 4) : (mmaStart k x now m).store = k.store := (rfl)
@[simp] theorem mmaRow_store (k : Core) (o : Strm) (x : MmaFields) (m : Fin 4) (t : Nat) : (mmaRow k o x m t).store = k.store := (rfl)
@[simp] theorem arrReads_store (k : Core) (m : Fin 4) (t : Nat) : (arrReads k m t).store = k.store := by
  unfold arrReads
  simp

@[simp] theorem ckSum_store (k : Core) (m : Fin 4) (bank : Bool) (row : Nat) (tol : BitVec 5) (int : Bool) (n due issued : Nat) :
    (ckSum k m bank row tol int n due issued).store = k.store := (rfl)
@[simp] theorem ckCompare_store (k : Core) (m : Fin 4) (bank : Bool) (row : Nat) (made bad : Bool) :
    (ckCompare k m bank row made bad).store = k.store := (rfl)
@[simp] theorem wldChunk_store (k : Core) (o : Strm) (x : WldFields) (t : Nat) (got : List (Nat × Byte)) :
    (wldChunk k o x t got).store = k.store := (rfl)
@[simp] theorem modQ_store (k : Core) (q : QId) (f : StreamQ → StreamQ) : (modQ k q f).store = k.store := (rfl)
@[simp] theorem keepPast_store (k : Core) : (keepPast k).store = k.store := (rfl)
@[simp] theorem pairWaiting_store (k : Core) (x : QId) (list period : Nat) : (pairWaiting k x list period).store = k.store := by
  unfold pairWaiting
  dsimp only
  split
  · rfl
  · rw [modQ_store, foldl_store fun _ _ => modQ_store ..]

@[simp] theorem releaseDesc_store (k : Core) (qi : QId) (index : Nat) (words : Option Desc) (avail period : Nat) :
    (releaseDesc k qi index words avail period).store = k.store := by
  unfold releaseDesc
  dsimp only
  (repeat' split) <;> simp

@[simp] theorem setRing_store (k : Core) (d : Dir) (f : Option Flit) : (setRing k d f).store = k.store := by
  unfold setRing
  split <;> rfl

@[simp] theorem fsendStep_store (k : Core) (o : Strm) (x : FsendFields) (t : Nat) : (fsendStep k o x t).store = k.store := by
  unfold fsendStep
  (repeat' split) <;> simp

@[simp] theorem frcvStep_store (k : Core) (o : Strm) (t : TReg) (now : Nat) : (frcvStep k o t now).store = k.store := by
  unfold frcvStep
  dsimp only
  split <;> rfl

@[simp] theorem landCount_store (k : Core) (qi : QId) (a : ActDesc) (e period : Nat) : (landCount k qi a e period).store = k.store := (rfl)
@[simp] theorem actMoved_store (k : Core) (qi : QId) (n len period : Nat) : (actMoved k qi n len period).store = k.store := (rfl)
@[simp] theorem setBoom_store (k : Core) (b : Fin 8) (hs : List Word) : (setBoom k b hs).store = k.store := (rfl)
@[simp] theorem endEmptyGathers_store (k : Core) (qi : QId) (period : Nat) : (endEmptyGathers k qi period).store = k.store := (rfl)
@[simp] theorem creditPeriod_store (k : Core) (period : Nat) : (creditPeriod k period).store = k.store := by
  unfold creditPeriod
  refine foldl_store (fun _ _ => ?_) _ _
  simp

@[simp] theorem releaseRing_store (k : Core) (qi : QId) (n avail period : Nat) : (releaseRing k qi n avail period).store = k.store := by
  unfold releaseRing
  refine foldl_store (fun _ _ => ?_) _ _
  simp

@[simp] theorem sldStep_store (k : Core) (o : Strm) (q : QId) (t : TReg) (f mM1 : Fin 128) (now : Nat) :
    (sldStep k o q t f mM1 now).store = k.store := by
  unfold sldStep
  dsimp only
  split <;> rfl

@[simp] theorem sputStep_store (k : Core) (o : Strm) (x : SputFields) (now : Nat) : (sputStep k o x now).store = k.store := (rfl)
@[simp] theorem modEp_store (k : Core) (e : Fin 32) (f : Endpoint → Endpoint) : (modEp k e f).store = k.store := (rfl)
@[simp] theorem combEnter_store (k : Core) (q : Fin 8) (d : Desc) (now period : Nat) : (combEnter k q d now period).store = k.store := by
  unfold combEnter
  dsimp only
  split <;> simp

@[simp] theorem modVec_store (k : Core) (f : Vec → Vec) : (modVec k f).store = k.store := (rfl)
@[simp] theorem vecWrite_store (k : Core) (v : VRegId) (es : List (Nat × BitVec 32)) : (vecWrite k v es).store = k.store := (rfl)
@[simp] theorem vStart_store (k : Core) (op : Byte) (pipeUntil : Nat) (vs ts bs : List PortUse) (o : Strm) :
    (vStart k op pipeUntil vs ts bs o).store = k.store := (rfl)
@[simp] theorem sclObserve_store (k : Core) (xs : List (BitVec 32)) (w : Nat) : (sclObserve k xs w).store = k.store := (rfl)
@[simp] theorem vdrnStep_store (k : Core) (o : Strm) (x : VdrnFields) (t : Nat) : (vdrnStep k o x t).store = k.store := by
  unfold vdrnStep
  refine foldl_store (fun _ _ => ?_) _ _
  split <;> simp

@[simp] theorem vldStep_store (k : Core) (o : Strm) (x : VldFields) (t : Nat) : (vldStep k o x t).store = k.store := (rfl)
@[simp] theorem vstStep_store (k : Core) (o : Strm) (x : VstFields) (t : Nat) : (vstStep k o x t).store = k.store := by
  unfold vstStep
  dsimp only
  split
  · rfl
  · refine foldl_store (fun _ _ => ?_) _ _
    split <;> simp

@[simp] theorem vopStep_store (k : Core) (o : Strm) (x : VopFields) (t : Nat) : (vopStep k o x t).store = k.store := (rfl)
@[simp] theorem vfnStep_store (k : Core) (o : Strm) (x : VfnFields) (t : Nat) : (vfnStep k o x t).store = k.store := (rfl)
@[simp] theorem vredStep_store (k : Core) (o : Strm) (x : VredFields) (t : Nat) : (vredStep k o x t).store = k.store := (rfl)
@[simp] theorem vrngStep_store (k : Core) (o : Strm) (x : VrngFields) (t : Nat) : (vrngStep k o x t).store = k.store := (rfl)
@[simp] theorem modWide_store (k : Core) (w : Bool) (f : WideTile → WideTile) : (modWide k w f).store = k.store := (rfl)
@[simp] theorem vwcvStep_store (k : Core) (o : Strm) (x : VwcvFields) (t : Nat) : (vwcvStep k o x t).store = k.store := by
  unfold vwcvStep
  (repeat' split) <;> simp

@[simp] theorem waddStep_store (k : Core) (o : Strm) (x : WaddFields) (t : Nat) : (waddStep k o x t).store = k.store := (rfl)
@[simp] theorem wideAdd_store (k : Core) (w : Bool) (row : Nat) (adds : List Int) (ovf nans : Nat) (nan : Bool) :
    (wideAdd k w row adds ovf nans nan).store = k.store := (rfl)
@[simp] theorem modComb_store (k : Core) (q : Fin 8) (f : CombQ → CombQ) : (modComb k q f).store = k.store := (rfl)
@[simp] theorem koutStep_store (k : Core) (o : Strm) (x : KoutFields) (t : Nat) : (koutStep k o x t).store = k.store := (rfl)
@[simp] theorem xsendStep_store (k : Core) : (xsendStep k).store = k.store := (rfl)
@[simp] theorem countDone_store (k : Core) : (countDone k).store = k.store := (rfl)
@[simp] theorem mvmStep_store (k : Core) (o : Strm) (x : MvmFields) (t : Nat) : (mvmStep k o x t).store = k.store := by
  unfold mvmStep
  dsimp only
  split <;> rfl

@[simp] theorem sxWrite_store (k : Core) (ctx : Bool) (r : Nat) (v : SxRow) : (sxWrite k ctx r v).store = k.store := (rfl)
@[simp] theorem sxFlagWrite_store (k : Core) (ctx : Bool) (r : Nat) (v : BitVec 2) : (sxFlagWrite k ctx r v).store = k.store := (rfl)
@[simp] theorem vsmxStep_store (k : Core) (o : Strm) (x : VsmxFields) (t : Nat) : (vsmxStep k o x t).store = k.store := by
  unfold vsmxStep
  simp

@[simp] theorem vrescStep_store (k : Core) (o : Strm) (x : VrescFields) (t : Nat) : (vrescStep k o x t).store = k.store := (rfl)
@[simp] theorem vsmxfStep_store (k : Core) (o : Strm) (x : VsmxfFields) (t : Nat) : (vsmxfStep k o x t).store = k.store := by
  unfold vsmxfStep
  simp

@[simp] theorem sclCloseRec_store (k : Core) (t : Nat) (tag : BitVec 16) (emin : BitVec 8) :
    (sclCloseRec k t tag emin).store = k.store := (rfl)
@[simp] theorem modReg_store (k : Core) (f : LayerCfg → LayerCfg) : (modReg k f).store = k.store := (rfl)
@[simp] theorem coreRegSet_store (k : Core) (wide : Bool) (r : CoreReg) (v : Nat) : (coreRegSet k wide r v).store = k.store := by
  unfold coreRegSet
  cases r
  case scalar => exact setSreg_store ..
  case seedLo | seedHi => exact modReg_store ..
  case wabCtl => dsimp only; split <;> rfl
  all_goals rfl

@[simp] theorem wheelWrite_store (k : Core) (p : Nat) : (wheelWrite k p).store = k.store := by
  unfold wheelWrite
  (repeat' split) <;> simp

@[simp] theorem recordWrite_store (s : State) (c : CoreId) (k : Core) (w : Nat × Word) : (recordWrite s c k w).store = k.store := by
  unfold recordWrite
  (repeat' split) <;> simp

@[simp] theorem coreClearRc_store (k : Core) (r : CoreReg) : (coreClearRc k r).store = k.store := by
  unfold coreClearRc
  split <;> rfl

@[simp] theorem recordApply_store (s : State) (c : CoreId) (k : Core) (rec_ : CfgRecord) : (recordApply s c k rec_).store = k.store := by
  unfold recordApply
  refine foldl_store (fun _ _ => ?_) _ _
  simp

@[simp] theorem coreFresh_store (s : State) (c : CoreId) (ws : List (CoreReg × Nat)) (k : Core) : (coreFresh s c ws k).store = k.store := by
  unfold coreFresh
  dsimp only
  rw [foldl_store (fun _ _ => modComb_store ..), foldl_store (fun _ _ => modArr_store ..), foldl_store (fun _ _ => modQ_store ..)]

@[simp] theorem setOp_store (k : Core) (o n : Strm) : (setOp k o n).store = k.store := (rfl)
@[simp] theorem pruneCore_store (k : Core) (t : Nat) : (pruneCore k t).store = k.store := (rfl)
@[simp] theorem applyReg_store (k : Core) (r : StagedReg) : (applyReg k r).store = k.store := by
  unfold applyReg
  split <;> simp

@[simp] theorem setAcked_store (n : Nat) (k : Core) : (setAcked n k).store = k.store := (rfl)
/-! ### Writers of a local store: each goes through `memSet`, `memWrite` or `cellClear` -/

theorem wqPut_store_wf {k : Core} (h : memWf k.store = true) (q : QId) (bs : List Byte) : memWf (wqPut k q bs).store = true :=
  foldl_inv (fun m => memWf m = true) _ (fun m _ hm => memWf_memSet m _ _ hm) _ _ h

theorem reserveEntries_store_wf {k : Core} (h : memWf k.store = true) (q : QId) (a : ActDesc) (n : Nat) :
    memWf (reserveEntries k q a n).store = true :=
  foldl_inv (fun m => memWf m = true) _ (fun m _ hm => memWf_cellClear m _ _ hm) _ _ h

theorem landByte_store_wf {k : Core} (h : memWf k.store = true) (q : QId) (a : ActDesc) (place : Nat) (v : Byte) (period : Nat) :
    memWf (landByte k q a place v period).store = true := by
  unfold landByte
  split <;> exact memWf_memSet _ _ _ h

theorem landEffect_store_wf {k : Core} (h : memWf k.store = true) (e : Fin 32) (d : Desc) (now period : Nat) :
    memWf (landEffect k e d now period).store = true := by
  have hw (a : Nat) : memWf (memWrite k.store a (descBytes d)) = true := memWf_memWrite _ _ _ h
  unfold landEffect
  dsimp only
  (repeat' split) <;> simp [h, hw]

theorem combDone_store_wf {k : Core} (h : memWf k.store = true) (q : Fin 8) (words : List (Nat × Word)) :
    memWf (combDone k q words).store = true :=
  foldl_inv (fun m => memWf m = true) _ (fun m _ hm => memWf_memWrite m _ _ hm) _ _ h

theorem sclWriteRec_store_wf {k : Core} (h : memWf k.store = true) (z : SclClosed) : memWf (sclWriteRec k z).store = true := by
  have hw (a : Nat) (bs : List Byte) : memWf (memWrite k.store a bs) = true := memWf_memWrite _ _ _ h
  unfold sclWriteRec
  dsimp only
  (repeat' split) <;> simp [hw]

theorem sclDue_store_wf {k : Core} (h : memWf k.store = true) (t : Nat) : memWf (sclDue k t).store = true := by
  unfold sclDue
  exact foldl_inv (fun u : Core => memWf u.store = true) _ (fun u z hu => sclWriteRec_store_wf hu z) _ _ h

/-- A result that becomes visible keeps the local store in canonical form: only a combining sum and a queue's bytes are written there. -/
theorem effCore_store_wf {k : Core} (h : memWf k.store = true) (e : Eff) : memWf (effCore k e).store = true := by
  cases e
  case comb q words => exact combDone_store_wf h q words
  case qput q bs => exact wqPut_store_wf h q bs
  case release mask =>
    rw [show (effCore k (.release mask)).store = k.store from foldl_store (fun _ _ => by split <;> rfl) _ _]
    exact h
  all_goals simpa [effCore] using h

/-! ### The memories of the device -/

/-- The byte memories of a state, in one view: what an operation does to them is then one fact. -/
structure Memories where
  dram : ByteMem
  stores : CoreId → ByteMem
  staging : ByteMem
  token : ByteMem

/-- Every memory of the view is in canonical form. -/
structure Memories.Wf (m : Memories) : Prop where
  dram : memWf m.dram = true
  stores : ∀ c, memWf (m.stores c) = true
  staging : memWf m.staging = true
  token : memWf m.token = true

/-- The memories that a state holds. -/
def State.memories (s : State) : Memories :=
  { dram := s.dram, stores := fun c => (s.cores.get c).store, staging := s.ident.staging, token := s.ident.token }

theorem memoriesWf_iff (s : State) : s.memoriesWf = true ↔ s.memories.Wf := by
  have hcores : s.cores.toList.all Core.memsWf = true ↔ ∀ c, memWf (s.cores.get c).store = true := by
    rw [List.all_eq_true]
    constructor
    · exact fun h c => h _ (Vector.mem_toList_iff.2 (Vector.getElem_mem c.isLt))
    · intro h k hk
      obtain ⟨n, hn, rfl⟩ := Vector.mem_iff_getElem.1 (Vector.mem_toList_iff.1 hk)
      exact h ⟨n, hn⟩
  unfold State.memoriesWf
  rw [Bool.and_eq_true, Bool.and_eq_true, Bool.and_eq_true, hcores]
  exact ⟨fun ⟨⟨⟨hd, hc⟩, hs⟩, ht⟩ => ⟨hd, hc, hs, ht⟩, fun ⟨hd, hc, hs, ht⟩ => ⟨⟨⟨hd, hc⟩, hs⟩, ht⟩⟩

/-- A fold whose every turn leaves the memories leaves them. -/
theorem foldl_memories {α : Type} {f : State → α → State} (h : ∀ u a, (f u a).memories = u.memories) (l : List α) (s : State) :
    (l.foldl f s).memories = s.memories := foldl_keeps State.memories f h l s

/-- A fold whose every turn keeps the memories in canonical form keeps them so. -/
theorem foldl_wf {α : Type} {f : State → α → State} (h : ∀ u a, u.memories.Wf → (f u a).memories.Wf) (l : List α) {s : State}
    (hs : s.memories.Wf) : (l.foldl f s).memories.Wf := foldl_inv (fun u : State => u.memories.Wf) f h l s hs

@[simp] theorem coreAt_store (s : State) (c : CoreId) : (coreAt s c).store = s.memories.stores c := (rfl)

theorem Memories.ext {m n : Memories} (hd : m.dram = n.dram) (hc : ∀ c, m.stores c = n.stores c) (hs : m.staging = n.staging)
    (ht : m.token = n.token) : m = n := by
  cases m
  cases n
  rw [Memories.mk.injEq]
  exact ⟨hd, funext hc, hs, ht⟩

/-- A state's memories are those of its DRAM, its cores and its identity block. -/
@[simp] theorem memories_fields (s : State) :
    Memories.mk s.dram (fun c => (s.cores.get c).store) s.ident.staging s.ident.token = s.memories := rfl

@[simp] theorem memories_mk {regions capCores activeCores spareCores part fuses dram mems stackLocal force2x scrub retain0 retain1 memcFailed
      wiping jobs images orderChoices groups prepTmo rings host digest spare snap power ident spdm wtn jtag ports fabric mgtPeriods free
      pending} {cores : Vector Core 68} :
    (State.mk regions cores capCores activeCores spareCores part fuses dram mems stackLocal force2x scrub retain0 retain1 memcFailed
      wiping jobs images orderChoices groups prepTmo rings host digest spare snap power ident spdm wtn jtag ports fabric mgtPeriods free
      pending).memories = Memories.mk dram (fun c => (cores.get c).store) ident.staging ident.token := rfl

@[simp] theorem setCore_memories {s : State} {c : CoreId} {x : Core} (h : x.store = s.memories.stores c) :
    (setCore s c x).memories = s.memories := by
  refine Memories.ext rfl (fun d => ?_) rfl rfl
  by_cases hd : d = c
  · subst hd
    exact (congrArg Core.store (coreAt_setCore s d x)).trans h
  · exact congrArg Core.store (coreAt_setCore_ne s c d x hd)

@[simp] theorem modCore_memories {s : State} {c : CoreId} {f : Core → Core} (h : ∀ k, (f k).store = k.store) :
    (modCore s c f).memories = s.memories := setCore_memories (h _)

theorem setCore_wf {s : State} {c : CoreId} {x : Core} (hs : s.memories.Wf) (hx : memWf x.store = true) : (setCore s c x).memories.Wf := by
  refine ⟨hs.dram, fun d => ?_, hs.staging, hs.token⟩
  by_cases hd : d = c
  · subst hd
    exact (congrArg memWf (congrArg Core.store (coreAt_setCore s d x))).trans hx
  · exact (congrArg memWf (congrArg Core.store (coreAt_setCore_ne s c d x hd))).trans (hs.stores d)

/-- A core changed by a function that keeps its store in canonical form. -/
theorem modCore_wf {s : State} {c : CoreId} {f : Core → Core} (hs : s.memories.Wf)
    (hf : ∀ k : Core, memWf k.store = true → memWf (f k).store = true) : (modCore s c f).memories.Wf :=
  setCore_wf hs (hf _ (hs.stores c))

@[simp] theorem modIdent_memories {s : State} {f : Ident → Ident} (hs : (f s.ident).staging = s.ident.staging)
    (ht : (f s.ident).token = s.ident.token) : (modIdent s f).memories = s.memories := Memories.ext rfl (fun _ => rfl) hs ht

@[simp] theorem modSeq_memories (s : State) (c : CoreId) (f : Seq → Seq) : (modSeq s c f).memories = s.memories :=
  modCore_memories fun _ => rfl
@[simp] theorem modRegion_memories (s : State) (r : RegionId) (f : Region → Region) : (modRegion s r f).memories = s.memories := rfl
@[simp] theorem setJob_memories (s : State) (j : JobId) (x : Job) : (setJob s j x).memories = s.memories := rfl
@[simp] theorem modJob_memories (s : State) (j : JobId) (f : Job → Job) : (modJob s j f).memories = s.memories := rfl
@[simp] theorem modPower_memories (s : State) (f : Power → Power) : (modPower s f).memories = s.memories := rfl
@[simp] theorem modRings_memories (s : State) (f : Rings → Rings) : (modRings s f).memories = s.memories := rfl
@[simp] theorem modHost_memories (s : State) (f : HostIf → HostIf) : (modHost s f).memories = s.memories := rfl
@[simp] theorem modSnap_memories (s : State) (f : Snap → Snap) : (modSnap s f).memories = s.memories := rfl
@[simp] theorem modSpare_memories (s : State) (f : Spare → Spare) : (modSpare s f).memories = s.memories := rfl
@[simp] theorem modFabric_memories (s : State) (f : Fabric → Fabric) : (modFabric s f).memories = s.memories := rfl
@[simp] theorem modPort_memories (s : State) (p : PortId) (f : Port → Port) : (modPort s p f).memories = s.memories := rfl
@[simp] theorem modGroup_memories (s : State) (g : Fin 16) (f : Group → Group) : (modGroup s g f).memories = s.memories := rfl
@[simp] theorem modMem_memories (s : State) (k : Fin 8) (f : MemRegion → MemRegion) : (modMem s k f).memories = s.memories := rfl

/-! ### Fences and faults -/

@[simp] theorem fenceJob_memories (j : JobId) (i : FaultInfo) (s : State) : (fenceJob j i s).memories = s.memories := by
  rcases fenceJob_cases j i s with ⟨-, h⟩ | ⟨-, -, -, hcores, hrest⟩
  · rw [h]
  · have hident : (fenceJob j i s).ident = s.ident := by
      have h := congrArg State.ident hrest
      exact h
    refine Memories.ext (fenceJob_dram ..) (fun c => ?_) (congrArg Ident.staging hident) (congrArg Ident.token hident)
    rw [← coreAt_store, hcores c]
    split <;> rfl

@[simp] theorem fenceCore_memories (c : CoreId) (i : FaultInfo) (s : State) : (fenceCore c i s).memories = s.memories := by
  unfold fenceCore
  split <;> simp

@[simp] theorem fenceWhere_memories (p : Job → Bool) (i : FaultInfo) (s : State) : (fenceWhere p i s).memories = s.memories :=
  foldl_memories (fun _ _ => fenceJob_memories ..) _ _

@[simp] theorem answer_memories (a : Awaits) (st : Status) (res : BitVec 192) (s : State) : (answer a st res s).memories = s.memories :=
  answer_keeps State.memories (fun _ _ => rfl) a st res s

theorem dramWrite_wf {s : State} (h : s.memories.Wf) (a : Nat) (bs : List Byte) : (dramWrite s a bs).memories.Wf :=
  ⟨memWf_dramWrite s a bs h.dram, h.stores, h.staging, h.token⟩

@[simp] theorem fenceReported_memories (j : JobId) (fs : List FaultRec) (s : State) : (fenceReported j fs s).memories = s.memories := by
  unfold fenceReported
  split <;> simp

@[simp] theorem settleFaults_memories (r : RegionId) (s : State) : (settleFaults r s).memories = s.memories := by
  unfold settleFaults
  rw [foldl_memories (fun _ _ => by split <;> simp), modRegion_memories]

end Sys2Proof.Machine

/-! SUPPORT. The functions of the model that write no byte memory: each leaves the view of them as it was. -/

namespace Sys2Proof.Machine

/-! ### Holds -/

@[simp] theorem raiseFault_memories (c : CoreId) (rank : Nat) (i : FaultInfo) (s : State) :
    (raiseFault c rank i s).memories = s.memories := rfl

@[simp] theorem countHolds_memories (r : RegionId) (events ticks : Nat) (s : State) :
    (countHolds r events ticks s).memories = s.memories := by
  unfold countHolds
  refine foldl_memories (fun _ _ => ?_) _ _
  simp

@[simp] theorem holdBegin_memories (r : RegionId) (ws : List HoldCond) (s0 : State) : (holdBegin r ws s0).memories = s0.memories := by
  unfold holdBegin
  split <;> simp

@[simp] theorem holdEnd_memories (r : RegionId) (s : State) : (holdEnd r s).memories = s.memories := rfl

/-! ### Flits -/

@[simp] theorem flmError_memories (c : CoreId) (d : Dir) (crc : Bool) (s : State) : (flmError c d crc s).memories = s.memories := by
  unfold flmError
  dsimp only
  (repeat' split) <;> simp

@[simp] theorem ringPut_memories (c : CoreId) (d : Dir) (f : Flit) (issued : Nat) (s : State) :
    (ringPut c d f issued s).memories = s.memories := by
  unfold ringPut
  split <;> simp

@[simp] theorem injectFlit_memories (c : CoreId) (d : Dir) (f : Flit) (issued : Nat) (s : State) :
    (injectFlit c d f issued s).memories = s.memories := by
  unfold injectFlit
  simp

@[simp] theorem captureFlit_memories (c : CoreId) (d : Dir) (issued : Nat) (s : State) :
    (captureFlit c d issued s).1.memories = s.memories := by
  unfold captureFlit
  (repeat' split) <;> simp

@[simp] theorem fxinTake_memories (c : CoreId) (d : Dir) (issued : Nat) (s : State) : (fxinTake c d issued s).memories = s.memories := by
  unfold fxinTake
  dsimp only
  (repeat' split) <;> simp

@[simp] theorem autoForward_memories (r : RegionId) (d : Dir) (s : State) : (autoForward r d s).memories = s.memories := by
  unfold autoForward
  (repeat' split) <;> simp [fenceJob_memories]

@[simp] theorem exitWrite_memories (r : RegionId) (d : Dir) (s : State) : (exitWrite r d s).memories = s.memories := by
  unfold exitWrite
  split <;> simp

@[simp] theorem ringHop_memories (r : RegionId) (s : State) : (ringHop r s).memories = s.memories :=
  foldl_memories (fun _ _ => modCore_memories fun _ => by simp) _ _

@[simp] theorem removeFlits_memories (j : JobId) (s : State) : (removeFlits j s).memories = s.memories := by
  unfold removeFlits
  dsimp only
  rw [foldl_memories (fun _ _ => modRegion_memories ..)]
  refine foldl_memories (fun _ _ => modCore_memories fun k => ?_) _ _
  split <;> split <;> simp

/-! ### Memory pieces -/

@[simp] theorem queuePieces_memories (ps : List (Fin 8 × Piece)) (s : State) : (queuePieces ps s).memories = s.memories := by
  unfold queuePieces
  refine foldl_memories (fun _ _ => ?_) _ _
  simp

/-! ### The Skidder -/

@[simp] theorem skdFault_memories (c : CoreId) (q : QId) (i : FaultInfo) (s : State) : (skdFault c q i s).memories = s.memories := by
  unfold skdFault
  split <;> simp [fenceJob_memories]

@[simp] theorem requestPass_memories (c : CoreId) (s : State) : (requestPass c s).memories = s.memories := by
  unfold requestPass
  split <;> simp

@[simp] theorem startDesc_memories (c : CoreId) (qi : QId) (s : State) : (startDesc c qi s).memories = s.memories := by
  unfold startDesc
  dsimp only
  (repeat' split) <;> simp

@[simp] theorem takeHandle_memories (c : CoreId) (qi : QId) (s : State) : (takeHandle c qi s).memories = s.memories := by
  unfold takeHandle
  dsimp only
  (repeat' split) <;> simp

@[simp] theorem takeIndex_memories (c : CoreId) (qi : QId) (s : State) : (takeIndex c qi s).memories = s.memories := by
  unfold takeIndex
  dsimp only
  (repeat' split) <;> simp

@[simp] theorem pushBout_memories (c : CoreId) (qi : QId) (s : State) : (pushBout c qi s).memories = s.memories := by
  unfold pushBout
  dsimp only
  (repeat' split) <;> simp

@[simp] theorem stallNote_memories (c : CoreId) (qi : QId) (b : BitVec 3 × BitVec 4) (s : State) :
    (stallNote c qi b s).memories = s.memories := by
  unfold stallNote
  dsimp only
  simp

@[simp] theorem creditFire_memories (c : CoreId) (qi : QId) (s : State) : (creditFire c qi s).memories = s.memories := by
  unfold creditFire
  dsimp only
  (repeat' split) <;> simp

/-! ### Channels -/

@[simp] theorem setEp_memories (c : CoreId) (e : Fin 32) (f : Endpoint → Endpoint) (s : State) : (setEp c e f s).memories = s.memories := by
  unfold setEp
  simp

@[simp] theorem sendItem_memories (c : CoreId) (e : Fin 32) (w : BitVec 29) (gen : BitVec 4) (kind : ChMsgKind) (s : State) :
    (sendItem c e w gen kind s).memories = s.memories := by
  unfold sendItem
  dsimp only
  (repeat' split) <;> simp

@[simp] theorem lanePass_memories (b : RegionId) (d : Dir) (q : RegionId) (s : State) : (lanePass b d q s).memories = s.memories := by
  unfold lanePass
  dsimp only
  (repeat' split) <;> simp

@[simp] theorem lanePeriod_memories (b : RegionId) (s : State) : (lanePeriod b s).memories = s.memories := by
  unfold lanePeriod
  refine foldl_memories (fun _ _ => ?_) _ _
  simp

@[simp] theorem settle_memories (m : ChMsg) (s : State) : (settle m s).memories = s.memories := by
  unfold settle
  simp

@[simp] theorem sendCredit_memories (c : CoreId) (e : Fin 32) (n : Nat) (s : State) : (sendCredit c e n s).memories = s.memories := by
  unfold sendCredit
  simp

@[simp] theorem discardAt_memories (c : CoreId) (e : Fin 32) (s : State) : (discardAt c e s).memories = s.memories := by
  unfold discardAt
  dsimp only
  split <;> simp

@[simp] theorem closeEp_memories (c : CoreId) (e : Fin 32) (s : State) : (closeEp c e s).memories = s.memories := by
  unfold closeEp
  dsimp only
  split
  · split
    · rw [foldl_memories (fun _ _ => sendItem_memories ..), sendItem_memories, setEp_memories]
    · exact setEp_memories ..
  · rfl

@[simp] theorem closeAll_memories (c : CoreId) (s : State) : (closeAll c s).memories = s.memories := by
  unfold closeAll
  refine foldl_memories (fun _ _ => ?_) _ _
  simp

@[simp] theorem openEp_memories (c : CoreId) (e : Fin 32) (w : BitVec 29) (s : State) : (openEp c e w s).memories = s.memories := by
  unfold openEp
  (repeat' split) <;> simp

@[simp] theorem openCredits_memories (c : CoreId) (e : Fin 32) (w : BitVec 29) (s : State) :
    (openCredits c e w s).memories = s.memories := by
  unfold openCredits
  split <;> simp

@[simp] theorem csendStep_memories (c : CoreId) (e : Fin 32) (issued : Nat) (s : State) :
    (csendStep c e issued s).memories = s.memories := by
  unfold csendStep
  dsimp only
  (repeat' split) <;> simp

/-! ### Combining queues -/

@[simp] theorem combFault_memories (c : CoreId) (q : Fin 8) (st : Status) (s : State) : (combFault c q st s).memories = s.memories := by
  unfold combFault
  split <;> simp

@[simp] theorem combineNarrow_memories (c : CoreId) (q : Fin 8) (s : State) : (combineNarrow c q s).memories = s.memories := by
  unfold combineNarrow
  dsimp only
  (repeat' split) <;> simp

@[simp] theorem combineWideRow_memories (c : CoreId) (q : Fin 8) (s : State) : (combineWideRow c q s).memories = s.memories := by
  unfold combineWideRow
  dsimp only
  (repeat' split) <;> simp

@[simp] theorem combineWideRows_memories (n : Nat) (c : CoreId) (q : Fin 8) (s : State) :
    (combineWideRows n c q s).memories = s.memories := by
  induction n generalizing s with
  | zero => rfl
  | succ n ih =>
    unfold combineWideRows
    split
    · simp [ih]
    · rfl

@[simp] theorem combineWide_memories (c : CoreId) (q : Fin 8) (s : State) : (combineWide c q s).memories = s.memories := by
  unfold combineWide
  split <;> simp

@[simp] theorem combTick_memories (c : CoreId) (s : State) : (combTick c s).memories = s.memories := by
  unfold combTick
  refine foldl_memories (fun _ _ => ?_) _ _
  split <;> simp

@[simp] theorem combCommand_memories (c : CoreId) (f : State → State) (s : State) (h : ∀ u, (f u).memories = u.memories) :
    (combCommand c f s).memories = s.memories := by
  unfold combCommand
  split <;> simp [settleFaults_memories, h]

/-! ### Registers of a core -/

@[simp] theorem coreSoftWrite_memories (c : CoreId) (r : CoreReg) (v : Nat) (s : State) : (coreSoftWrite c r v s).memories = s.memories := by
  unfold coreSoftWrite
  dsimp only
  (repeat' split) <;> simp

/-! ### Layers and parts -/

@[simp] theorem writeSpans_memories (s : State) (c : CoreId) : (writeSpans s c).memories = s.memories := by
  unfold writeSpans
  split <;> simp

@[simp] theorem startApply_memories (c : CoreId) (rec_ : CfgRecord) (s : State) : (startApply c rec_ s).memories = s.memories := by
  unfold startApply
  dsimp only
  split <;> simp

@[simp] theorem layerStart_memories (c : CoreId) (s : State) : (layerStart c s).memories = s.memories := by
  unfold layerStart
  (repeat' split) <;> simp

@[simp] theorem pushRecord_memories (c : CoreId) (rec_ : CfgRecord) (s : State) : (pushRecord c rec_ s).memories = s.memories := by
  unfold pushRecord
  dsimp only
  simp

@[simp] theorem mgtTake_memories (m : MgtMsg) (s : State) : (mgtTake m s).memories = s.memories := by
  unfold mgtTake
  split <;> simp

@[simp] theorem mgtArrive_memories (r : RegionId) (s : State) : (mgtArrive r s).memories = s.memories := by
  unfold mgtArrive
  refine foldl_memories (fun _ _ => ?_) _ _
  simp

@[simp] theorem recordPush_memories (c : CoreId) (s : State) : (recordPush c s).memories = s.memories := by
  unfold recordPush
  dsimp only
  (repeat' split) <;> simp

@[simp] theorem partEnds_memories (c : CoreId) (s : State) : (partEnds c s).memories = s.memories := by
  unfold partEnds
  simp [foldl_store]

@[simp] theorem coreComplete_memories (c : CoreId) (s : State) : (coreComplete c s).memories = s.memories := by
  unfold coreComplete
  dsimp only
  split
  · rfl
  · split
    · rw [partEnds_memories, modRegion_memories]
    · rfl

/-! ### Results and operations in progress -/

@[simp] theorem bankReads_memories (c : CoreId) (t : Nat) (s : State) : (bankReads c t s).memories = s.memories := by
  unfold bankReads
  simp

theorem captureStep_memories {f : Core → Strm → Core} (hf : ∀ k o, (f k o).store = k.store) (c : CoreId) (d : Dir) (o : Strm) (s : State) :
    (captureStep c d o f s).memories = s.memories := by
  have h := captureFlit_memories c d o.issued s
  unfold captureStep
  split <;> rename_i e <;> rw [e] at h
  · exact h
  · exact (modCore_memories fun k => (hf _ _).trans (setOp_store ..)).trans h

@[simp] theorem opRun_memories (c : CoreId) (o : Strm) (t : Nat) (s : State) : (opRun c o t s).memories = s.memories := by
  unfold opRun
  split
  case h_1 => exact modCore_memories fun _ => foldl_store (fun _ _ => mmaRow_store ..) _ _
  case h_2 =>
    split
    · simp
    · exact captureStep_memories (fun _ _ => wldChunk_store ..) ..
  case h_19 => exact captureStep_memories (fun _ _ => frcvStep_store ..) ..
  all_goals simp

@[simp] theorem opAdvance_memories (c : CoreId) (o : Strm) (s : State) : (opAdvance c o s).memories = s.memories := by
  unfold opAdvance
  simp

@[simp] theorem addWait_memories (r : RegionId) (h : HoldCond) (s : State) : (addWait r h s).memories = s.memories := rfl

@[simp] theorem opStep_memories (c : CoreId) (o : Strm) (t : Nat) (found : Vector Tile 32) (s : State) :
    (opStep c o t found s).memories = s.memories := by
  unfold opStep
  simp

@[simp] theorem runOps_memories (want : Instr → Bool) (c : CoreId) (t : Nat) (found : Vector Tile 32) (s : State) :
    (runOps want c t found s).memories = s.memories := by
  unfold runOps
  refine foldl_memories (fun _ _ => ?_) _ _
  split <;> simp

/-! ### Ticks, holds and the steps of units -/

theorem effect_memories {i : Instr} {x : Issue} (hx : issueOf i = some x) (s : State) : (x.effect s).memories = s.memories := by
  cases i <;> simp only [issueOf, Option.some.injEq, reduceCtorEq] at hx <;> subst hx
  case chOpen => exact (openCredits_memories ..).trans (modCore_memories fun _ => by simp)
  case cack => exact (sendCredit_memories ..).trans (modCore_memories fun _ => by simp)
  case cwait | kwait | xwait | xsync => rfl
  all_goals refine modCore_memories fun _ => ?_
  all_goals simp [foldl_store]

@[simp] theorem issueOps_memories (c : CoreId) (l : List (Nat × Instr)) (s : State) : (issueOps c l s).memories = s.memories := by
  induction l generalizing s with
  | nil => rfl
  | cons a rest ih =>
    unfold issueOps
    split
    · exact ih _
    · rename_i x hx
      split
      · rw [ih]; simp
      · split
        · rw [ih]; simp
        · rw [ih, effect_memories hx]

@[simp] theorem issueBundle_memories (mask : List CoreId) (c : CoreId) (s : State) : (issueBundle mask c s).memories = s.memories := by
  unfold issueBundle
  dsimp only
  (repeat' split) <;> simp

@[simp] theorem startPhase_memories (mask : List CoreId) (c : CoreId) (s : State) : (startPhase mask c s).memories = s.memories := by
  unfold startPhase
  (repeat' split) <;> simp

@[simp] theorem corePhase_memories (want : Instr → Bool) (c : CoreId) (t : Nat) (found : Vector Tile 32) (s : State) :
    (corePhase want c t found s).memories = s.memories := by
  unfold corePhase
  split <;> simp

@[simp] theorem exitPhase_memories (r : RegionId) (d : Dir) (s : State) : (exitPhase r d s).memories = s.memories := by
  unfold exitPhase
  (repeat' split) <;> simp

@[simp] theorem regionPeriod_memories (r : RegionId) (s : State) : (regionPeriod r s).memories = s.memories := by
  unfold regionPeriod
  rw [foldl_memories fun u c => ?_, lanePeriod_memories, modRegion_memories]
  rw [requestPass_memories, modCore_memories fun k => ?_]
  split <;> simp

@[simp] theorem stopCore_memories (c : CoreId) (s : State) : (stopCore c s).memories = s.memories := by
  unfold stopCore
  dsimp only
  simp

@[simp] theorem resumeCore_memories (c : CoreId) (s : State) : (resumeCore c s).memories = s.memories := by
  unfold resumeCore
  dsimp only
  split <;> simp

@[simp] theorem stopFire_memories (r : RegionId) (s : State) : (stopFire r s).memories = s.memories := by
  unfold stopFire
  split
  · exact (foldl_memories (fun u c => by dsimp only; (repeat' split) <;> simp) _ _).trans rfl
  · rfl

@[simp] theorem heldPeriod_memories (r : RegionId) (s : State) : (heldPeriod r s).memories = s.memories := by
  unfold heldPeriod
  rw [modRegion_memories, countHolds_memories, regionPeriod_memories]

@[simp] theorem holdOver_memories (r : RegionId) (s : State) : (holdOver r s).memories = s.memories := by
  unfold holdOver
  (repeat' split) <;> simp

@[simp] theorem keepFlmErr_memories (s1 : State) (c : CoreId) (s : State) : (keepFlmErr s1 c s).memories = s.memories := by
  unfold keepFlmErr
  dsimp only
  simp

@[simp] theorem sleepPeriod_memories (r : RegionId) (s : State) : (sleepPeriod r s).memories = s.memories := by
  unfold sleepPeriod
  rw [lanePeriod_memories, ringHop_memories, autoForward_memories, autoForward_memories, exitPhase_memories, exitPhase_memories]

@[simp] theorem storeErrors_memories (r : RegionId) (errs : List StoreError) (s : State) : (storeErrors r errs s).memories = s.memories := by
  unfold storeErrors
  refine foldl_memories (fun _ _ => ?_) _ _
  split <;> simp

@[simp] theorem issueHeld_memories (r : RegionId) (s : State) : (issueHeld r s).memories = s.memories := by
  unfold issueHeld
  rw [settleFaults_memories, foldl_memories fun u i => ?_]
  · simp
  · split
    · rfl
    · rename_i x hx
      split
      · simp
      · exact effect_memories hx _

@[simp] theorem watchdogFence_memories (s : State) (h : HoldCond) (u : State) : (watchdogFence s h u).memories = u.memories := by
  unfold watchdogFence
  (repeat' split) <;> simp [fenceCore_memories]

@[simp] theorem holdWatchdog_memories (r : RegionId) (s : State) : (holdWatchdog r s).memories = s.memories := by
  unfold holdWatchdog
  dsimp only
  split
  · rfl
  · split
    · rw [modRegion_memories]
      exact foldl_memories (fun _ _ => watchdogFence_memories ..) _ _
    · rfl

@[simp] theorem runKind_memories (want : Instr → Bool) (c : CoreId) (s : State) : (runKind want c s).memories = s.memories := by
  unfold runKind
  dsimp only
  (repeat' split) <;> simp [settleFaults_memories]

@[simp] theorem mvmLine_memories (c : CoreId) (s : State) : (mvmLine c s).memories = s.memories := by
  unfold mvmLine
  simp

@[simp] theorem flitExitWrite_memories (r : RegionId) (d : Dir) (s : State) : (flitExitWrite r d s).memories = s.memories := by
  unfold flitExitWrite
  (repeat' split) <;> simp

@[simp] theorem fxinRead_memories (r : RegionId) (d : Dir) (s : State) : (fxinRead r d s).memories = s.memories := by
  unfold fxinRead
  refine foldl_memories (fun _ _ => ?_) _ _
  simp

@[simp] theorem flitCapture_memories (c : CoreId) (d : Dir) (s : State) : (flitCapture c d s).memories = s.memories := by
  unfold flitCapture
  simp

@[simp] theorem sldGroupLoad_memories (c : CoreId) (s : State) : (sldGroupLoad c s).memories = s.memories := by
  unfold sldGroupLoad
  simp

/-! ### Packets, replies, jobs and power states -/

@[simp] theorem queuePkt_memories (p : PortId) (came : Option PortId) (x : LinkPkt) (owner : Option (CoreId × Nat))
    (final : Bool) (s : State) :
    (queuePkt p came x owner final s).memories = s.memories := rfl

@[simp] theorem sendUp_memories (pk params : Nat) (data : List Byte) (s : State) : (sendUp pk params data s).memories = s.memories := by
  unfold sendUp
  split <;> simp

@[simp] theorem sendDown_memories (pk params : Nat) (data : List Byte) (s : State) : (sendDown pk params data s).memories = s.memories := by
  unfold sendDown
  refine foldl_memories (fun _ _ => ?_) _ _
  simp

@[simp] theorem signalIbi_memories (st : Status) (s : State) : (signalIbi st s).memories = s.memories := by
  unfold signalIbi
  split <;> simp

@[simp] theorem raiseAlert_memories (st : Status) (detail : Word) (s : State) : (raiseAlert st detail s).memories = s.memories := by
  unfold raiseAlert
  simp

@[simp] theorem putReply_memories (op : Nat) (tag : BitVec 16) (irq : Bool) (st : Status) (result : BitVec 192) (s : State) :
    (putReply op tag irq st result s).memories = s.memories := rfl
@[simp] theorem takeHead_memories (s : State) : (takeHead s).memories = s.memories := rfl

theorem onPacket_memories {body : State → PktResult} (h : ∀ u, (body u).state.memories = u.memories) (op : Nat) (p : PktHdr)
    (none_ : BitVec 192) (s : State) : (onPacket op p none_ body s).memories = s.memories := by
  have hb := h (takeHead s)
  unfold onPacket
  dsimp only
  split
  · split
    · simp
    · split <;> rename_i e <;> rw [e] at hb <;> simpa using hb
  · split <;> simp

@[simp] theorem cancelJob_memories (j : JobId) (cause : Nat) (s : State) : (cancelJob j cause s).memories = s.memories := rfl

@[simp] theorem cancelAfter_memories (n : Nat) (j : JobId) (s : State) : (cancelAfter n j s).memories = s.memories :=
  cancelAfter_keeps State.memories (fun _ _ _ _ => rfl) n j s

@[simp] theorem cancelSuccessors_memories (j : JobId) (s : State) :
    (cancelSuccessors j s).memories = s.memories := by simp [cancelSuccessors]

@[simp] theorem satisfySuccessors_memories (j : JobId) (s : State) : (satisfySuccessors j s).memories = s.memories := by
  unfold satisfySuccessors
  refine foldl_memories (fun _ _ => ?_) _ _
  simp

@[simp] theorem cancelWaiting_memories (s : State) : (cancelWaiting s).memories = s.memories := by
  unfold cancelWaiting
  refine foldl_memories (fun _ _ => ?_) _ _
  simp

@[simp] theorem refuseStart_memories (j : JobId) (st : Status) (c : Option CoreId) (s : State) :
    (refuseStart j st c s).memories = s.memories := by
  unfold refuseStart
  simp

@[simp] theorem setPow_memories (s : State) (n : Fin 28) (p : RegPower) : (setPow s n p).memories = s.memories := rfl

@[simp] theorem wakeQueue_memories (n : Fin 28) (s : State) : (wakeQueue n s).memories = s.memories := by
  unfold wakeQueue
  split <;> simp

@[simp] theorem wakeRegion_memories (n : Fin 28) (s : State) : (wakeRegion n s).memories = s.memories := by
  unfold wakeRegion
  dsimp only
  split <;> simp

/-! ### Accesses of the host -/

@[simp] theorem answerHost_memories (x : Completion) (s : State) : (answerHost x s).memories = s.memories := rfl
@[simp] theorem poisonedWrite_memories (s : State) : (poisonedWrite s).memories = s.memories := rfl

theorem barWrite_memories {f : State → State} (h : ∀ u, (f u).memories = u.memories) (b : BarAcc) (s : State) :
    (barWrite b f s).memories = s.memories := by
  rcases barWrite_cases b f s with e | e | e | e <;> rw [e]
  · rfl
  · rfl
  · exact (h _).trans rfl

/-! ### The life of jobs -/

@[simp] theorem enterNode_memories (s : State) (x : GraphNode) : (enterNode s x).memories = s.memories := by
  unfold enterNode
  dsimp only
  split <;> simp

@[simp] theorem submitGraph_memories (addr count : Nat) (s : State) : (submitGraph addr count s).state.memories = s.memories := by
  unfold submitGraph
  dsimp only
  (repeat' split) <;> try rfl
  exact foldl_memories (fun _ _ => enterNode_memories ..) _ _

@[simp] theorem coreLoads_memories (s : State) (j : JobId) (i : Image) (c : CoreId) : (coreLoads s j i c).memories = s.memories := by
  unfold coreLoads
  split <;> simp

@[simp] theorem sendStart_memories (j : JobId) (s : State) : (sendStart j s).memories = s.memories := by
  unfold sendStart
  dsimp only
  split
  · rfl
  · rw [modJob_memories]
    exact foldl_memories (fun _ _ => by simp) _ _

@[simp] theorem takeJob_memories (j : JobId) (s : State) : (takeJob j s).memories = s.memories := by
  unfold takeJob
  dsimp only
  split
  · simp
  · split
    · rw [sendStart_memories]
      split <;> rfl
    · rw [foldl_memories (fun _ _ => wakeRegion_memories ..)]
      simp

@[simp] theorem jobStart_memories (j : JobId) (s : State) : (jobStart j s).memories = s.memories := by
  unfold jobStart
  split <;> simp

@[simp] theorem stopMembers_memories (j : JobId) (p : CoreId → Bool) (s : State) : (stopMembers j p s).memories = s.memories := by
  unfold stopMembers
  refine foldl_memories (fun _ _ => ?_) _ _
  split <;> simp

@[simp] theorem stopAtMatch_memories (r : RegionId) (s : State) : (stopAtMatch r s).memories = s.memories := by
  unfold stopAtMatch
  dsimp only
  split <;> simp

@[simp] theorem jobStopped_memories (j : JobId) (s : State) : (jobStopped j s).memories = s.memories := by
  unfold jobStopped
  dsimp only
  split <;> simp [answer_memories]

@[simp] theorem startRelease_memories (j : JobId) (s : State) : (startRelease j s).state.memories = s.memories := by
  unfold startRelease
  dsimp only
  split <;> simp

@[simp] theorem startResume_memories (j : JobId) (s : State) : (startResume j s).state.memories = s.memories := by
  unfold startResume
  split
  · exact (foldl_memories (fun _ _ => resumeCore_memories ..) _ _).trans (modJob_memories ..)
  · rfl

@[simp] theorem fenceStop_memories (j : JobId) (s : State) : (fenceStop j s).state.memories = s.memories := by
  unfold fenceStop
  split <;> simp

@[simp] theorem fenceCancel_memories (j : JobId) (s : State) : (fenceCancel j s).state.memories = s.memories := by
  unfold fenceCancel
  split <;> simp [fenceJob_memories]

@[simp] theorem takeReports_memories (j : JobId) (s : State) : (takeReports j s).memories = s.memories := rfl

@[simp] theorem jobDone_memories (j : JobId) (s : State) : (jobDone j s).memories = s.memories := by
  unfold jobDone
  split <;> simp [answer_memories]

@[simp] theorem coreFenced_memories (s : State) (c : CoreId) : (coreFenced s c).memories = s.memories := by
  unfold coreFenced
  simp [foldl_store]

@[simp] theorem autoTest_memories (b : Job) (s : State) : (autoTest b s).memories = s.memories := by
  unfold autoTest
  dsimp only
  (repeat' split) <;> simp

@[simp] theorem abortGroup_memories (g : Fin 16) (l : Nat) (s : State) : (abortGroup g l s).memories = s.memories := by
  unfold abortGroup
  rw [answer_memories, apply_ite State.memories, sendDown_memories, sendUp_memories, ite_self]
  rw [foldl_memories (fun _ _ => fenceCore_memories ..), modGroup_memories]

@[simp] theorem jobFenced_memories (j : JobId) (s : State) : (jobFenced j s).memories = s.memories := by
  unfold jobFenced
  dsimp only
  split
  · rw [answer_memories, autoTest_memories, cancelSuccessors_memories, modJob_memories, takeReports_memories]
    rw [foldl_memories (fun _ _ => coreFenced_memories ..), removeFlits_memories]
    exact foldl_memories (fun _ _ => by split <;> simp) _ _
  · rfl

/-! ### Checks of memory -/

@[simp] theorem setDraining_memories (s : State) : (setDraining s).memories = s.memories := rfl
@[simp] theorem declareRepair_memories (g : Repair) (s : State) : (declareRepair g s).memories = s.memories := rfl
@[simp] theorem dropRepair_memories (g : Repair) (s : State) : (dropRepair g s).memories = s.memories := rfl

@[simp] theorem repairAlert_memories (st : Status) (kind unit spare : Nat) (s : State) :
    (repairAlert st kind unit spare s).memories = s.memories := by
  unfold repairAlert
  simp

@[simp] theorem wakeStacks_memories (a n : Nat) (s : State) : (wakeStacks a n s).memories = s.memories := by
  unfold wakeStacks
  refine foldl_memories (fun _ _ => ?_) _ _
  simp

@[simp] theorem nudgeStacks_memories (a n : Nat) (s : State) : (nudgeStacks a n s).memories = s.memories := by
  unfold nudgeStacks
  refine foldl_memories (fun _ _ => ?_) _ _
  simp

@[simp] theorem stackFails_memories (k : Fin 8) (s : State) : (stackFails k s).memories = s.memories := by
  unfold stackFails
  simp [fenceWhere_memories]

@[simp] theorem dieFails_memories (k : Fin 8) (die : Fin 17) (s : State) : (dieFails k die s).memories = s.memories := by
  unfold dieFails
  dsimp only
  (repeat' split) <;> simp

@[simp] theorem countDie_memories (k : Fin 8) (die : Fin 17) (s : State) : (countDie k die s).memories = s.memories := by
  unfold countDie
  dsimp only
  split <;> simp

@[simp] theorem rowFails_memories (k : Fin 8) (x : RowId) (s : State) : (rowFails k x s).memories = s.memories := by
  unfold rowFails
  (repeat' split) <;> simp

@[simp] theorem countRow_memories (k : Fin 8) (x : RowId) (s : State) : (countRow k x s).memories = s.memories := by
  unfold countRow
  dsimp only
  split <;> simp

@[simp] theorem logError_memories (s : State) (k : Fin 8) (off kind : Nat) : (logError s k off kind).memories = s.memories := rfl

@[simp] theorem countCause_memories (k : Fin 8) (off : Nat) (found chk : PieceCheck) (s : State) :
    (countCause k off found chk s).memories = s.memories := by
  unfold countCause
  (repeat' split) <;> simp

theorem checkPiece_memories (k : Fin 8) (off : Nat) (covers scrub : Bool) (found : PieceCheck) (s : State) :
    (checkPiece k off covers scrub found s).2.memories = s.memories := by
  unfold checkPiece
  dsimp only
  split
  · simp
  · split <;> simp

@[simp] theorem accessRange_memories (write : Bool) (a n : Nat) (skip : List Nat) (chks : List (Nat × PieceCheck)) (s : State) :
    (accessRange write a n skip chks s).2.memories = s.memories := by
  unfold accessRange
  refine foldl_keeps (fun z : List (Nat × Nat) × State => z.2.memories) _ (fun z x => ?_) _ _
  have h := checkPiece_memories (stackOf z.2 x.1) (offsetOf z.2 x.1) (write && decide (a ≤ x.1 ∧ x.1 + 128 ≤ a + n)) false x.2 z.2
  split <;> rename_i e <;> rw [e] at h <;> exact h

/-! ### Images -/

@[simp] theorem loadConfig_memories (addr len slot wset : Nat) (ecc : Bool) (s : State) :
    (loadConfig addr len slot wset ecc s).state.memories = s.memories := by
  unfold loadConfig
  (repeat' split) <;> simp

@[simp] theorem unloadConfig_memories (slot : Nat) (s : State) : (unloadConfig slot s).state.memories = s.memories := by
  unfold unloadConfig
  (repeat' split) <;> simp

/-! ### Commit groups -/

@[simp] theorem commitOpen_memories (g : Fin 16) (mask : Word) (journal jlen : Nat) (s : State) :
    (commitOpen g mask journal jlen s).state.memories = s.memories := by
  unfold commitOpen
  dsimp only
  (repeat' split) <;> simp

@[simp] theorem stepAdvance_memories (g : Fin 16) (mask : Word) (s : State) : (stepAdvance g mask s).state.memories = s.memories := by
  unfold stepAdvance
  dsimp only
  (repeat' split) <;> simp

@[simp] theorem commitDiscard_memories (g : Fin 16) (s : State) : (commitDiscard g s).state.memories = s.memories := by
  unfold commitDiscard
  split <;> simp

@[simp] theorem commitCommit_memories (g : Fin 16) (s : State) : (commitCommit g s).state.memories = s.memories := by
  unfold commitCommit
  dsimp only
  (repeat' split) <;> simp

@[simp] theorem memberPrepare_memories (g : Fin 16) (l : Nat) (s : State) : (memberPrepare g l s).memories = s.memories := by
  unfold memberPrepare
  dsimp only
  (repeat' split) <;> simp

@[simp] theorem snapTake_memories (g : Fin 16) (s : State) : (snapTake g s).memories = s.memories := by
  unfold snapTake
  refine foldl_memories (fun _ _ => ?_) _ _
  simp

@[simp] theorem applyEpoch_memories (g : Fin 16) (force : Option Bool) (s : State) : (applyEpoch g force s).memories = s.memories := by
  unfold applyEpoch
  dsimp only
  (repeat' split) <;> simp

@[simp] theorem decideGroup_memories (g : Fin 16) (t : Option Word) (force : Option Bool) (s : State) :
    (decideGroup g t force s).memories = s.memories := by
  unfold decideGroup
  simp

@[simp] theorem commitDecision_memories (g : Fin 16) (s : State) : (commitDecision g s).memories = s.memories := by
  unfold commitDecision
  dsimp only
  (repeat' split) <;> simp

@[simp] theorem prepTimeout_memories (g : Fin 16) (s : State) : (prepTimeout g s).memories = s.memories := by
  unfold prepTimeout
  dsimp only
  (repeat' split) <;> simp

@[simp] theorem commitApply_memories (g : Fin 16) (l : Nat) (s : State) : (commitApply g l s).memories = s.memories := by
  have hregs (u : State) (c : CoreId) (rs : List StagedReg) : (modCore u c (fun k => rs.foldl applyReg k)).memories = u.memories :=
    modCore_memories fun _ => foldl_store (fun _ _ => applyReg_store ..) _ _
  unfold commitApply
  dsimp only
  (repeat' split) <;> simp [hregs]

@[simp] theorem memsWake_memories (ms : List StagedMem) (s : State) : (memsWake ms s).memories = s.memories := by
  unfold memsWake
  refine foldl_memories (fun _ _ => ?_) _ _
  simp

/-! ### Ports -/

@[simp] theorem markSent_memories (o : Option (CoreId × Nat)) (s : State) : (markSent o s).memories = s.memories := by
  unfold markSent
  split <;> simp

@[simp] theorem pumpPort_memories (n : Nat) (p : PortId) (s : State) : (pumpPort n p s).memories = s.memories := by
  induction n generalizing s with
  | zero => rfl
  | succ n ih =>
    unfold pumpPort
    dsimp only
    split
    · split
      · split
        · rw [ih, modPort_memories]
        · rfl
      · rw [ih, foldl_memories (fun _ _ => markSent_memories ..), modPort_memories]
    · rfl

@[simp] theorem pump_memories (p : PortId) (s : State) : (pump p s).memories = s.memories := pumpPort_memories ..
@[simp] theorem dropPkt_memories (s : State) : (dropPkt s).memories = s.memories := rfl

@[simp] theorem routePkt_memories (came : Option PortId) (x : LinkPkt) (owner : Option (CoreId × Nat)) (final : Bool) (s : State) :
    (routePkt came x owner final s).memories = s.memories := by
  unfold routePkt
  (repeat' split) <;> simp

@[simp] theorem sendPkt_memories (x : LinkPkt) (owner : Option (CoreId × Nat)) (final : Bool) (s : State) :
    (sendPkt x owner final s).memories = s.memories := by
  unfold sendPkt
  simp

@[simp] theorem loseCommand_memories (o : CoreId × Nat) (s : State) : (loseCommand o s).memories = s.memories := by
  unfold loseCommand
  simp

@[simp] theorem snapFail_memories (st : Status) (s : State) : (snapFail st s).memories = s.memories := by
  unfold snapFail
  split <;> simp [answer_memories]

@[simp] theorem portEnds_memories (p : PortId) (s : State) : (portEnds p s).memories = s.memories := by
  unfold portEnds
  extract_lets s1
  have h : s1.memories = s.memories := by
    dsimp only [s1]
    (repeat' split) <;> simp
  split
  · exact (answer_memories ..).trans h
  · exact h

@[simp] theorem portDrop_memories (p : PortId) (state : BitVec 2) (reason : Nat) (s : State) :
    (portDrop p state reason s).memories = s.memories := by
  unfold portDrop
  extract_lets js s0 s1 s2
  have h : s2.memories = s.memories := by
    dsimp only [s2, s1, s0]
    rw [portEnds_memories, foldl_memories (fun _ _ => fenceJob_memories ..), modPort_memories, modFabric_memories]
    exact foldl_memories (fun _ _ => loseCommand_memories ..) _ _
  split
  · exact h
  · exact h

@[simp] theorem portDown_memories (p : PortId) (reason : Nat) (s : State) : (portDown p reason s).memories = s.memories := by
  unfold portDown
  simp

@[simp] theorem portTrain_memories (p : PortId) (x : Training) (s : State) : (portTrain p x s).memories = s.memories := by
  unfold portTrain
  dsimp only
  (repeat' split) <;> simp

@[simp] theorem trainRetry_memories (p : PortId) (s : State) : (trainRetry p s).memories = s.memories := by
  unfold trainRetry
  dsimp only
  split <;> simp

@[simp] theorem portRetrain_memories (p : PortId) (s : State) : (portRetrain p s).memories = s.memories := by
  unfold portRetrain
  (repeat' split) <;> simp

@[simp] theorem bpCtlWrite_memories (b : BarAcc) (p : PortId) (v : Word) (s : State) : (bpCtlWrite b p v s).memories = s.memories := by
  unfold bpCtlWrite
  dsimp only
  (repeat' split) <;> simp

@[simp] theorem laneFails_memories (p : PortId) (l : Fin 9) (word : Nat) (s : State) : (laneFails p l word s).memories = s.memories := by
  unfold laneFails
  dsimp only
  (repeat' split) <;> simp

@[simp] theorem laneWindow_memories (p : PortId) (counts : Vector Nat 9) (word : Nat) (s : State) :
    (laneWindow p counts word s).memories = s.memories := by
  unfold laneWindow
  dsimp only
  (repeat' split) <;> simp

@[simp] theorem signalLost_memories (p : PortId) (lanes : BitVec 9) (word : Nat) (s : State) :
    (signalLost p lanes word s).memories = s.memories := by
  unfold signalLost
  dsimp only
  (repeat' split) <;> simp

@[simp] theorem laneSwitchRequest_memories (p : PortId) (l : Fin 9) (word : Nat) (s : State) :
    (laneSwitchRequest p l word s).memories = s.memories := by
  unfold laneSwitchRequest
  split <;> simp

@[simp] theorem laneSwitchAccept_memories (p : PortId) (word : Nat) (s : State) : (laneSwitchAccept p word s).memories = s.memories := by
  unfold laneSwitchAccept
  (repeat' split) <;> simp

@[simp] theorem laneSwitchRetry_memories (p : PortId) (word : Nat) (s : State) : (laneSwitchRetry p word s).memories = s.memories := by
  unfold laneSwitchRetry
  (repeat' split) <;> simp

@[simp] theorem laneSwitchAtCount_memories (p : PortId) (s : State) : (laneSwitchAtCount p s).memories = s.memories := by
  unfold laneSwitchAtCount
  dsimp only
  (repeat' split) <;> simp

@[simp] theorem flitTake_memories (p : PortId) (h : Nat) (s : State) : (flitTake p h s).memories = s.memories := by
  unfold flitTake
  simp

@[simp] theorem flitReceive_memories (p : PortId) (bytes : List Byte) (marked : Bool) (corrected : Nat) (s : State) :
    (flitReceive p bytes marked corrected s).memories = s.memories := by
  unfold flitReceive
  (repeat' split) <;> simp

@[simp] theorem nakReplay_memories (p : PortId) (s : State) : (nakReplay p s).memories = s.memories := by
  unfold nakReplay
  dsimp only
  (repeat' split) <;> simp

@[simp] theorem creditStop_memories (p : PortId) (c : Fin 4) (s : State) : (creditStop p c s).memories = s.memories := by
  unfold creditStop
  dsimp only
  split <;> simp

@[simp] theorem sendControl_memories (p : PortId) (s : State) : (sendControl p s).memories = s.memories := by
  unfold sendControl
  split <;> simp

@[simp] theorem controlFlit_memories (p : PortId) (credits : Vector Nat 4) (mark : Bool) (s : State) :
    (controlFlit p credits mark s).memories = s.memories := by
  unfold controlFlit
  split <;> simp

@[simp] theorem timeExchange_memories (p : PortId) (sent recv peerSent peerRecv : Word) (s : State) :
    (timeExchange p sent recv peerSent peerRecv s).memories = s.memories := by
  unfold timeExchange
  split <;> simp

@[simp] theorem packetForward_memories (p : PortId) (x : LinkPkt) (s : State) : (packetForward p x s).memories = s.memories := by
  unfold packetForward
  split <;> simp

/-! ### Clocks and the governor -/

@[simp] theorem avsSend_memories (mv : Nat) (s : State) : (avsSend mv s).memories = s.memories := rfl

@[simp] theorem avsUpdate_memories (s : State) : (avsUpdate s).memories = s.memories := by
  unfold avsUpdate
  dsimp only
  split <;> simp

@[simp] theorem queueRaises_memories (s : State) : (queueRaises s).memories = s.memories := by
  unfold queueRaises
  split
  · rfl
  · exact foldl_memories (fun _ _ => modPower_memories ..) _ _

@[simp] theorem clkBegin_memories (by_ : ClockBy) (mask : BitVec 17) (idx : BitVec 4) (s : State) :
    (clkBegin by_ mask idx s).memories = s.memories := by
  unfold clkBegin
  dsimp only
  split
  · simp
    exact foldl_memories (fun _ _ => by split <;> simp) _ _
  · simp
    exact foldl_memories (fun _ _ => by split <;> simp) _ _

@[simp] theorem retrainDown_memories (s : State) : (retrainDown s).memories = s.memories := by
  unfold retrainDown
  refine foldl_memories (fun _ _ => ?_) _ _
  split <;> simp

@[simp] theorem recoverEnd_memories (st : Status) (s : State) : (recoverEnd st s).memories = s.memories := by
  unfold recoverEnd
  split <;> simp

@[simp] theorem clkEnd_memories (st : Status) (s : State) : (clkEnd st s).memories = s.memories := by
  unfold clkEnd
  (repeat' split) <;> simp [answer_memories]

@[simp] theorem clkIfDone_memories (s : State) : (clkIfDone s).memories = s.memories := by
  unfold clkIfDone
  (repeat' split) <;> simp

@[simp] theorem clkSlow_memories (s : State) : (clkSlow s).memories = s.memories := (clkIfDone_memories _).trans (clkBegin_memories ..)

@[simp] theorem clkRecover_memories (s : State) : (clkRecover s).memories = s.memories := by
  unfold clkRecover
  split <;> simp

@[simp] theorem clkSettle_memories (s : State) : (clkSettle s).memories = s.memories := by
  unfold clkSettle
  (repeat' split) <;> simp

@[simp] theorem clkSlowDown_memories (st : Status) (s : State) : (clkSlowDown st s).memories = s.memories := by
  unfold clkSlowDown
  (repeat' split) <;> simp

@[simp] theorem setClock_memories (mask : BitVec 17) (idx : Byte) (s : State) : (setClock mask idx s).state.memories = s.memories := by
  unfold setClock
  split <;> simp

@[simp] theorem clkReqWrite_memories (b : BarAcc) (v : Word) (s : State) : (clkReqWrite b v s).memories = s.memories := by
  unfold clkReqWrite
  dsimp only
  (repeat' split) <;> simp

@[simp] theorem clkDrop_memories (r : RegionId) (s : State) : (clkDrop r s).memories = s.memories := rfl

@[simp] theorem regionClockSwitch_memories (r : RegionId) (s : State) : (regionClockSwitch r s).memories = s.memories := by
  unfold regionClockSwitch
  (repeat' split) <;> simp

@[simp] theorem clkResume_memories (r : RegionId) (s : State) : (clkResume r s).memories = s.memories := by
  unfold clkResume
  (repeat' split) <;> simp

@[simp] theorem clockSwitchDone_memories (r : RegionId) (s : State) : (clockSwitchDone r s).memories = s.memories := by
  unfold clockSwitchDone
  dsimp only
  (repeat' split) <;> simp

@[simp] theorem avsAck_memories (mv : BitVec 12) (s : State) : (avsAck mv s).memories = s.memories := by
  unfold avsAck
  dsimp only
  (repeat' split) <;> simp

@[simp] theorem avsTimeout_memories (s : State) : (avsTimeout s).memories = s.memories := by
  unfold avsTimeout
  dsimp only
  (repeat' split) <;> simp

@[simp] theorem lockstepActive_memories (r : RegionId) (s : State) : (lockstepActive r s).memories = s.memories := by
  unfold lockstepActive
  split <;> simp

@[simp] theorem cgClkctlWrite_memories (b : BarAcc) (r : RegionId) (v : Word) (s : State) :
    (cgClkctlWrite b r v s).memories = s.memories := by
  unfold cgClkctlWrite
  simp

@[simp] theorem tallyClear_memories (b : BarAcc) (r : RegionId) (v : Word) (s : State) : (tallyClear b r v s).memories = s.memories := by
  unfold tallyClear
  split <;> simp

@[simp] theorem droopStretch_memories (r : RegionId) (mv : BitVec 12) (s : State) : (droopStretch r mv s).memories = s.memories := by
  unfold droopStretch
  dsimp only
  (repeat' split) <;> simp

@[simp] theorem govGrant_memories (s : State) (x : GovReq) : (govGrant s x).memories = s.memories := by
  unfold govGrant
  (repeat' split) <;> simp

@[simp] theorem resetStep3_memories (s : State) : (resetStep3 s).memories = s.memories :=
  foldl_memories (fun _ _ => wakeRegion_memories ..) _ _

@[simp] theorem governorWindow_memories (s : State) : (governorWindow s).memories = s.memories := by
  have hfold (xs : List GovReq) (u : State) : (xs.foldl govGrant u).memories = u.memories :=
    foldl_memories (fun _ _ => govGrant_memories ..) _ _
  unfold governorWindow
  dsimp only
  (repeat' split) <;> simp [hfold]

/-! ### Memory accesses of the host -/

@[simp] theorem hostAbort_memories (st : Status) (x : HostAcc) (s : State) : (hostAbort st x s).memories = s.memories := rfl

/-! ### Link packets and the protocols of the fabric -/

@[simp] theorem sendAll_memories (owner : Option (CoreId × Nat)) (l : List LinkPkt) (s : State) :
    (sendAll owner l s).memories = s.memories := by
  induction l generalizing s with
  | nil => rfl
  | cons x r ih =>
    cases r with
    | nil => exact sendPkt_memories ..
    | cons y r => exact (ih _).trans (sendPkt_memories ..)

@[simp] theorem linkSend_memories (c : CoreId) (l : LinkCmd) (chks : List (Nat × PieceCheck)) (s : State) :
    (linkSend c l chks s).memories = s.memories := by
  unfold linkSend
  dsimp only
  (repeat' split) <;> simp

@[simp] theorem linkTake_memories (c : CoreId) (chks : List (Nat × PieceCheck)) (s : State) : (linkTake c chks s).memories = s.memories := by
  unfold linkTake
  dsimp only
  (repeat' split) <;> simp [fenceCore_memories]

@[simp] theorem sendAck_memories (dst : BitVec 14) (core : Fin 64) (cmd : BitVec 19) (st : Status) (progress : Bool) (s : State) :
    (sendAck dst core cmd st progress s).memories = s.memories := by
  unfold sendAck
  simp

@[simp] theorem noteLanding_memories (l : Landing) (final : Bool) (s : State) : (noteLanding l final s).memories = s.memories := rfl
@[simp] theorem takeLanded_memories (x : LinkPkt) (s : State) : (takeLanded x s).2.memories = s.memories := rfl

@[simp] theorem reportSent_memories (src : BitVec 14) (slot : Nat) (s : State) : (reportSent src slot s).memories = s.memories := by
  unfold reportSent
  simp

@[simp] theorem placeEntry_memories (e : LinkEntry) (s : State) : (placeEntry e s).memories = s.memories := by
  unfold placeEntry
  (repeat' split) <;> simp

@[simp] theorem refill_memories (s : State) : (refill s).memories = s.memories := by
  unfold refill
  refine foldl_memories (fun _ _ => ?_) _ _
  simp

@[simp] theorem raiseFlag_memories (src : BitVec 14) (core : Fin 64) (cmd : BitVec 19) (rcore : Fin 64) (f : Fin 8) (s : State) :
    (raiseFlag src core cmd rcore f s).memories = s.memories := by
  unfold raiseFlag
  dsimp only
  (repeat' split) <;> simp

@[simp] theorem flagIn_memories (p : PortId) (x : LinkPkt) (rcore : Fin 64) (f : Fin 8) (s : State) :
    (flagIn p x rcore f s).memories = s.memories := by
  unfold flagIn
  dsimp only
  split <;> simp

@[simp] theorem setInboundIo_memories (via : Bool) (l : List LinkIn) (s : State) : (setInboundIo via l s).memories = s.memories := rfl

@[simp] theorem settleFlags_memories (s : State) : (settleFlags s).memories = s.memories := by
  unfold settleFlags
  refine foldl_memories (fun _ _ => ?_) _ _
  simp

@[simp] theorem contributionEntry_memories (c : CoreId) (s : State) : (contributionEntry c s).memories = s.memories := by
  unfold contributionEntry
  (repeat' split) <;> simp

@[simp] theorem progressAcks_memories (c : CoreId) (s : State) : (progressAcks c s).memories = s.memories := by
  unfold progressAcks
  rw [foldl_memories (fun _ _ => sendAck_memories ..), foldl_memories (fun _ _ => sendAck_memories ..)]

@[simp] theorem ackTimeout_memories (c : CoreId) (n : Nat) (s : State) : (ackTimeout c n s).memories = s.memories := by
  unfold ackTimeout
  split <;> simp [fenceCore_memories]

@[simp] theorem coreAck_memories (x : LinkPkt) (s : State) : (coreAck x s).memories = s.memories := by
  unfold coreAck
  dsimp only
  (repeat' split) <;> simp [fenceCore_memories]

@[simp] theorem enumStart_memories (s : State) : (enumStart s).memories = s.memories := by
  unfold enumStart
  dsimp only
  split <;> simp

@[simp] theorem enumerate_memories (cs : List FabLink) (s : State) : (enumerate cs s).memories = s.memories := by
  unfold enumerate
  refine foldl_memories (fun _ _ => ?_) _ _
  split <;> simp

@[simp] theorem enumTake_memories (x : EnumPkt) (s : State) : (enumTake x s).memories = s.memories := rfl

@[simp] theorem enumPacket_memories (x : EnumPkt) (s : State) : (enumPacket x s).memories = s.memories := by
  unfold enumPacket
  (repeat' split) <;> simp

@[simp] theorem modBar_memories (s : State) (b : Fin 8) (f : Barrier → Barrier) : (modBar s b f).memories = s.memories := rfl

@[simp] theorem barRelease_memories (b : Fin 8) (t : Word) (s : State) : (barRelease b t s).memories = s.memories := by
  unfold barRelease
  dsimp only
  split <;> simp

@[simp] theorem barCheck_memories (b : Fin 8) (s : State) : (barCheck b s).memories = s.memories := by
  unfold barCheck
  dsimp only
  (repeat' split) <;> simp

@[simp] theorem barArrive_memories (b : Fin 8) (child : Option PortId) (s : State) : (barArrive b child s).memories = s.memories := by
  unfold barArrive
  (repeat' split) <;> simp

@[simp] theorem barStart_memories (b : Fin 8) (s : State) : (barStart b s).memories = s.memories := by
  unfold barStart
  dsimp only
  (repeat' split) <;> simp

@[simp] theorem barmWrite_memories (a : BarAcc) (b : Fin 8) (v : Word) (s : State) : (barmWrite a b v s).memories = s.memories := rfl

@[simp] theorem fabricReport_memories (g : Fin 16) (s : State) : (fabricReport g s).memories = s.memories := by
  unfold fabricReport
  dsimp only
  (repeat' split) <;> simp

@[simp] theorem fabricPrepared_memories (g : Fin 16) (child : Option PortId) (busy : Bool) (s : State) :
    (fabricPrepared g child busy s).memories = s.memories := by
  unfold fabricPrepared
  dsimp only
  (repeat' split) <;> simp

@[simp] theorem fabricAbort_memories (g : Fin 16) (l : Nat) (s : State) : (fabricAbort g l s).memories = s.memories := by
  unfold fabricAbort
  dsimp only
  split <;> simp

@[simp] theorem fabricApply_memories (g : Fin 16) (t : Word) (take : Bool) (s : State) : (fabricApply g t take s).memories = s.memories := by
  unfold fabricApply
  dsimp only
  split <;> simp

/-! ### Snapshots, restores and halts -/

@[simp] theorem snapshotPlan_memories (a : Nat) (s : State) : (snapshotPlan a s).state.memories = s.memories := by
  unfold snapshotPlan
  (repeat' split) <;> simp

@[simp] theorem waitCaptured_memories (s : State) : (waitCaptured s).state.memories = s.memories := by
  unfold waitCaptured
  (repeat' split) <;> simp

@[simp] theorem waitComplete_memories (s : State) : (waitComplete s).state.memories = s.memories := by
  unfold waitComplete
  (repeat' split) <;> simp

@[simp] theorem settleComplete_memories (s : State) : (settleComplete s).memories = s.memories := by
  unfold settleComplete
  split <;> simp [answer_memories]

@[simp] theorem fwWrites_memories (dst : BitVec 14) (addr : Nat) (forward : Bool) (bs : List Byte) (s : State) :
    (fwWrites dst addr forward bs s).memories = s.memories := sendAll_memories ..

@[simp] theorem advanceComplete_memories (epoch : BitVec 32) (s : State) : (advanceComplete epoch s).memories = s.memories := by
  unfold advanceComplete
  dsimp only
  split <;> simp

@[simp] theorem takeReport_memories (src : BitVec 14) (epoch : BitVec 32) (s : State) : (takeReport src epoch s).memories = s.memories := by
  unfold takeReport
  dsimp only
  (repeat' split) <;> simp

@[simp] theorem ownComplete_memories (s : State) : (ownComplete s).memories = s.memories := by
  unfold ownComplete
  split <;> simp

@[simp] theorem readRanges_memories (rs : List (Nat × Nat)) (chks : List (Nat × PieceCheck)) (s : State) :
    (readRanges rs chks s).2.memories = s.memories :=
  by
  unfold readRanges
  refine foldl_keeps (fun z : List (Nat × Nat) × State => z.2.memories) _ (fun z r => ?_) rs ([], s)
  exact accessRange_memories false r.1 r.2 [] chks z.2

@[simp] theorem snapWakes_memories (rs : List (Nat × Nat)) (s : State) : (snapWakes rs s).memories = s.memories := by
  unfold snapWakes
  refine foldl_memories (fun _ _ => ?_) _ _
  simp

@[simp] theorem beginSend_memories (p : SnapPlan) (bs : List Byte) (chks : List (Nat × PieceCheck)) (s : State) :
    (beginSend p bs chks s).memories = s.memories := by
  have h := accessRange_memories false (planSlot p s.snap.slot) bs.length [] chks
    (modSnap s (fun z => { z with state := .sending, sendLeft := 1 }))
  unfold beginSend
  dsimp only
  split
  · simp
  · split <;> rename_i e <;> rw [e] at h <;> simpa using h

@[simp] theorem fwAck_memories (x : LinkPkt) (s : State) : (fwAck x s).memories = s.memories := by
  unfold fwAck
  dsimp only
  (repeat' split) <;> simp [answer_memories]

@[simp] theorem linkAck_memories (x : LinkPkt) (s : State) : (linkAck x s).memories = s.memories := by
  unfold linkAck
  (repeat' split) <;> simp

@[simp] theorem snapshotSent_memories (src : BitVec 14) (epoch : BitVec 32) (s : State) :
    (snapshotSent src epoch s).memories = s.memories := by
  unfold snapshotSent
  split <;> simp

@[simp] theorem completeAdvance_memories (epoch : BitVec 32) (s : State) : (completeAdvance epoch s).memories = s.memories := by
  unfold completeAdvance
  split <;> simp

@[simp] theorem checkSnap_memories (a : Nat) (s : State) : (checkSnap a s).2.memories = s.memories := by
  have h := accessRange_memories false a ((snapAt s a).getD 256) [] [] s
  unfold checkSnap
  split <;> rename_i e <;> rw [e] at h <;> exact h

@[simp] theorem forwardSnap_memories (a off len : Nat) (dest : BitVec 14) (daddr : Nat) (s : State) :
    (forwardSnap a off len dest daddr s).state.memories = s.memories := by
  have h := accessRange_memories false (a + off) len [] [] s
  unfold forwardSnap
  (repeat' split) <;> try rfl
  all_goals rename_i e; rw [e] at h; simpa using h

@[simp] theorem restoreEnd_memories (n : Nat) (r : PktResult) : (restoreEnd n r).memories = r.state.memories := by
  cases r with
  | done st res s => exact answer_memories ..
  | waits a s => rfl

@[simp] theorem halt_memories (epoch : BitVec 32) (lost : BitVec 14) (s : State) : (halt epoch lost s).memories = s.memories := by
  unfold halt
  rw [modSnap_memories, snapFail_memories, foldl_memories (fun _ _ => by split <;> simp), cancelWaiting_memories, fenceWhere_memories]

@[simp] theorem haltEpoch_memories (epoch : BitVec 32) (lost : BitVec 14) (s : State) : (haltEpoch epoch lost s).memories = s.memories := by
  unfold haltEpoch
  split <;> simp

@[simp] theorem heartbeatSend_memories (s : State) : (heartbeatSend s).memories = s.memories := by
  unfold heartbeatSend
  split
  · rfl
  · split
    · rw [foldl_memories (fun _ _ => pump_memories ..), sendDown_memories]
    · simp

@[simp] theorem heartbeatPacket_memories (src : BitVec 14) (s : State) : (heartbeatPacket src s).memories = s.memories := by
  unfold heartbeatPacket
  (repeat' split) <;> simp

@[simp] theorem heartbeatMiss_memories (peer : BitVec 14) (s : State) : (heartbeatMiss peer s).memories = s.memories := by
  unfold heartbeatMiss
  (repeat' split) <;> simp

/-! ### Self-tests and repairs -/

@[simp] theorem settleRows_memories (n : Nat) (s : State) : (settleRows n s).memories = s.memories := by
  induction n generalizing s with
  | zero => rfl
  | succ n ih =>
    unfold settleRows
    split
    · rw [ih]; simp
    · rfl

@[simp] theorem settleRepairs_memories (s : State) : (settleRepairs s).memories = s.memories := settleRows_memories ..

@[simp] theorem putRepair_memories (old : Option Repair) (g : Repair) (s : State) : (putRepair old g s).memories = s.memories := by
  unfold putRepair
  split <;> simp

@[simp] theorem shedCore_memories (old : Option Repair) (f : CoreId) (s : State) : (shedCore old f s).memories = s.memories := by
  unfold shedCore
  (repeat' split) <;> simp

@[simp] theorem replaceCore_memories (old : Option Repair) (f : CoreId) (s : State) : (replaceCore old f s).memories = s.memories := by
  unfold replaceCore
  split <;> simp

@[simp] theorem repairArray_memories (c : CoreId) (x : SelfTest) (s : State) (m : Fin 4) : (repairArray c x s m).memories = s.memories := by
  unfold repairArray
  dsimp only
  (repeat' split) <;> simp

@[simp] theorem markFailed_memories (c : CoreId) (s : State) : (markFailed c s).memories = s.memories := rfl

@[simp] theorem refill1_memories (f sp : CoreId) (s : State) : (refill1 f sp s).memories = s.memories := by
  unfold refill1
  simp

@[simp] theorem coreFails_memories (c : CoreId) (s : State) : (coreFails c s).memories = s.memories := by
  unfold coreFails
  dsimp only
  (repeat' split) <;> simp

@[simp] theorem selfTestDone_memories (c : CoreId) (x : SelfTest) (s : State) : (selfTestDone c x s).memories = s.memories := by
  have hfold (u : State) : ((List.finRange 4).foldl (repairArray c x) u).memories = u.memories :=
    foldl_memories (fun _ _ => repairArray_memories ..) _ _
  unfold selfTestDone
  dsimp only
  (repeat' split) <;> simp [hfold]

@[simp] theorem startTest_memories (c : CoreId) (s : State) : (startTest c s).memories = s.memories := by
  unfold startTest
  simp

@[simp] theorem sprReqWrite_memories (b : BarAcc) (v : Word) (s : State) : (sprReqWrite b v s).memories = s.memories := by
  unfold sprReqWrite
  dsimp only
  (repeat' split) <;> simp

@[simp] theorem sprCtlWrite_memories (b : BarAcc) (v : Word) (s : State) : (sprCtlWrite b v s).memories = s.memories := by
  unfold sprCtlWrite
  dsimp only
  split
  · rw [foldl_memories (fun _ _ => declareRepair_memories ..)]; simp
  · simp

@[simp] theorem mapShed_memories (s : State) (f : CoreId) : (mapShed s f).memories = s.memories := by
  unfold mapShed
  dsimp only
  simp

@[simp] theorem repairCommit_memories (s : State) : (repairCommit s).memories = s.memories := by
  unfold repairCommit
  (repeat' split) <;> simp

@[simp] theorem dieRebuild_memories (k : Fin 8) (s : State) : (dieRebuild k s).memories = s.memories := by
  unfold dieRebuild
  dsimp only
  split <;> simp

@[simp] theorem rowRepair_memories (k : Fin 8) (x : RowId) (s : State) : (rowRepair k x s).memories = s.memories := by
  unfold rowRepair
  split <;> simp

@[simp] theorem rebuildCommit_memories (k : Fin 8) (s : State) : (rebuildCommit k s).memories = s.memories := by
  unfold rebuildCommit
  dsimp only
  split <;> simp

/-! ### Memory events -/

@[simp] theorem servePiece_memories (p : Piece) (bytes : List Byte) (s : State) : (servePiece p bytes s).memories = s.memories := by
  unfold servePiece
  simp

@[simp] theorem patrolScrub_memories (k : Fin 8) (off : Nat) (found : PieceCheck) (s : State) :
    (patrolScrub k off found s).memories = s.memories := by
  unfold patrolScrub
  split
  · exact checkPiece_memories ..
  · rfl

@[simp] theorem stackTemp_memories (k : Fin 8) (t : Byte) (s : State) : (stackTemp k t s).memories = s.memories := by
  unfold stackTemp
  dsimp only
  split <;> simp [fenceWhere_memories]

@[simp] theorem refreshRate_memories (k : Fin 8) (s : State) : (refreshRate k s).memories = s.memories := rfl

@[simp] theorem memTripClear_memories (k : Fin 8) (s : State) : (memTripClear k s).memories = s.memories := by
  unfold memTripClear
  split <;> simp

@[simp] theorem wheelAccept_memories (k : Fin 8) (w : Vector Byte 128) (s : State) : (wheelAccept k w s).memories = s.memories := rfl

@[simp] theorem wheelApply_memories (b : BarAcc) (k : Fin 8) (v : Word) (s : State) : (wheelApply b k v s).memories = s.memories := by
  unfold wheelApply
  dsimp only
  (repeat' split) <;> simp

@[simp] theorem wheelEffect_memories (k : Fin 8) (s : State) : (wheelEffect k s).memories = s.memories := by
  unfold wheelEffect
  (repeat' split) <;> simp

@[simp] theorem setWheel_memories (mask : Byte) (addr : Nat) (s : State) : (setWheel mask addr s).state.memories = s.memories := by
  unfold setWheel
  dsimp only
  (repeat' split) <;> try rfl
  exact foldl_memories (fun _ _ => wheelAccept_memories ..) _ _

@[simp] theorem decodeWrite_memories (b : BarAcc) (v : Word) (s : State) : (decodeWrite b v s).memories = s.memories := by
  unfold decodeWrite
  split <;> simp

/-! ### Sleep, heat and supplies -/

@[simp] theorem govDrop_memories (n : Fin 28) (s : State) : (govDrop n s).memories = s.memories := rfl

@[simp] theorem sleepAsk_memories (old new : Nat) (s : State) (n : Fin 26) : (sleepAsk old new s n).memories = s.memories := by
  unfold sleepAsk
  dsimp only
  (repeat' split) <;> simp

@[simp] theorem sleepWrite_memories (req : Nat) (s : State) : (sleepWrite req s).memories = s.memories := by
  unfold sleepWrite
  refine foldl_memories (fun _ _ => ?_) _ _
  simp

@[simp] theorem resetTests_memories (r : RegionId) (s : State) : (resetTests r s).memories = s.memories := by
  unfold resetTests
  split <;> simp

@[simp] theorem resetWipe_memories (s : State) : (resetWipe s).memories = s.memories := by
  unfold resetWipe
  split <;> simp

@[simp] theorem regionRunning_memories (n : Fin 28) (s : State) : (regionRunning n s).memories = s.memories := by
  unfold regionRunning
  dsimp only
  (repeat' split) <;> simp [foldl_memories, apply_ite State.memories]

@[simp] theorem fenceAll_memories (st : Status) (s : State) : (fenceAll st s).memories = s.memories := by
  unfold fenceAll
  dsimp only
  rw [foldl_memories (fun _ _ => by simp [fenceJob_memories])]
  exact foldl_memories (fun _ _ => modJob_memories ..) _ _

@[simp] theorem thermWarn_memories (s : State) : (thermWarn s).memories = s.memories := by
  unfold thermWarn
  dsimp only
  split <;> simp

@[simp] theorem thermTrip_memories (s : State) : (thermTrip s).memories = s.memories := by
  unfold thermTrip
  simp

@[simp] theorem clkCut_memories (s : State) : (clkCut s).memories = s.memories := by
  unfold clkCut
  split
  · split
    · simp
    · rw [clkEnd_memories]
      exact foldl_memories (fun _ _ => by split <;> simp) _ _
  · rfl

@[simp] theorem thermTripClear_memories (s : State) : (thermTripClear s).memories = s.memories := by
  unfold thermTripClear
  split <;> simp

@[simp] theorem portPowerLost_memories (p : PortId) (s : State) : (portPowerLost p s).memories = s.memories := by
  unfold portPowerLost
  split <;> simp

@[simp] theorem pcieDown_memories (s : State) : (pcieDown s).memories = s.memories := rfl
@[simp] theorem supplyClear_memories (bits : Nat) (levels : Vector (BitVec 12) 7) (s : State) :
    (supplyClear bits levels s).memories = s.memories := rfl

@[simp] theorem refLost_memories (s : State) : (refLost s).memories = s.memories := by
  unfold refLost
  (repeat' split) <;> simp

@[simp] theorem refRecover_memories (s : State) : (refRecover s).memories = s.memories := by
  unfold refRecover
  (repeat' split) <;> simp

/-! ### Resets and wipes -/

@[simp] theorem commitRepairs_memories (n : Nat) (s : State) : (commitRepairs n s).memories = s.memories := by
  induction n generalizing s with
  | zero => rfl
  | succ n ih => exact (ih _).trans (repairCommit_memories s)

@[simp] theorem enablePorts_memories (s : State) : (enablePorts s).memories = s.memories := by
  unfold enablePorts
  refine foldl_memories (fun _ _ => ?_) _ _
  split <;> simp

@[simp] theorem resetReady_memories (s : State) : (resetReady s).memories = s.memories := by
  unfold resetReady
  dsimp only
  (repeat' split) <;> simp

@[simp] theorem answerFirst_memories (a : Awaits) (st : Status) (s : State) : (answerFirst a st s).memories = s.memories := by
  unfold answerFirst
  split <;> simp

@[simp] theorem wipeBegin_memories (w : Wipe) (s : State) : (wipeBegin w s).memories = s.memories := rfl

@[simp] theorem wipeDram_memories (first count : Nat) (s : State) : (wipeDram first count s).state.memories = s.memories := by
  unfold wipeDram
  split
  · rfl
  · split
    · rfl
    · rw [state_waits, foldl_memories (fun _ _ => wakeRegion_memories ..), wipeBegin_memories]

@[simp] theorem wipeCores_memories (mask : Word) (s : State) : (wipeCores mask s).state.memories = s.memories := by
  unfold wipeCores
  dsimp only
  (repeat' split) <;> simp

/-! ### Reads with an effect -/

@[simp] theorem regClear_memories (s : State) (off : Nat) : (regClear s off).memories = s.memories := by
  unfold regClear
  (repeat' split) <;> simp

/-! ### Rings and windows -/

@[simp] theorem crCtlWrite_memories (b : BarAcc) (v : Word) (s : State) : (crCtlWrite b v s).memories = s.memories := by
  unfold crCtlWrite
  dsimp only
  split <;> simp

@[simp] theorem crTailWrite_memories (b : BarAcc) (v : Word) (readOk : Bool) (s : State) :
    (crTailWrite b v readOk s).memories = s.memories := rfl

theorem writeReply_memories {drop : State → State} (h : ∀ u, (drop u).memories = u.memories) (ok : Bool) (x : Reply)
    (vector : Option (BitVec 4)) (s : State) : (writeReply ok x vector drop s).memories = s.memories := by
  unfold writeReply
  split
  · exact h _
  · rfl

@[simp] theorem replyWrite_memories (ok : Bool) (s : State) : (replyWrite ok s).memories = s.memories := by
  unfold replyWrite
  split
  · split
    · exact writeReply_memories (fun _ => modRings_memories ..) _ _ _ _
    · rfl
  · rfl

@[simp] theorem alertWrite_memories (ok : Bool) (s : State) : (alertWrite ok s).memories = s.memories := by
  unfold alertWrite
  split
  · split
    · exact writeReply_memories (fun _ => modRings_memories ..) _ _ _ _
    · rfl
  · rfl

@[simp] theorem jobEventWrite_memories (ok : Bool) (s : State) : (jobEventWrite ok s).memories = s.memories := by
  unfold jobEventWrite
  split
  · split
    · exact writeReply_memories (fun _ => modJob_memories ..) _ _ _ _
    · rfl
  · rfl

@[simp] theorem jtIndexWrite_memories (b : BarAcc) (v : Word) (s : State) : (jtIndexWrite b v s).memories = s.memories := rfl

@[simp] theorem queryRegister_memories (off : Nat) (s : State) : (queryRegister off s).state.memories = s.memories := by
  unfold queryRegister
  split <;> simp

@[simp] theorem queryJob_memories (j : JobId) (s : State) : (queryJob j s).state.memories = s.memories := rfl

@[simp] theorem undefinedOpcode_memories (h : PktHdr) (o : Byte) (s : State) : (undefinedOpcode h o s).memories = s.memories := by
  unfold undefinedOpcode
  split
  · rfl
  · exact onPacket_memories (fun _ => rfl) _ _ _ _

@[simp] theorem barRead_memories (b : BarAcc) (off : Nat) (s : State) : (barRead b off s).memories = s.memories := by
  unfold barRead
  (repeat' split) <;> simp

@[simp] theorem hwinWrite_memories (b : BarAcc) (i : Fin 16) (v : Word) (s : State) : (hwinWrite b i v s).memories = s.memories := by
  unfold hwinWrite
  dsimp only
  split <;> simp

@[simp] theorem pcieTrain_memories (flitMode : Bool) (s : State) : (pcieTrain flitMode s).memories = s.memories := by
  unfold pcieTrain
  (repeat' split) <;> simp

@[simp] theorem configRequest_memories (write : Bool) (off : Nat) (v : BitVec 32) (s : State) :
    (configRequest write off v s).memories = s.memories := by
  unfold configRequest
  (repeat' split) <;> simp

/-! ### Digests -/

@[simp] theorem digCtlWrite_memories (b : BarAcc) (v : Word) (s : State) : (digCtlWrite b v s).memories = s.memories := by
  unfold digCtlWrite
  dsimp only
  (repeat' split) <;> simp

@[simp] theorem digestDone_memories (s : State) : (digestDone s).memories = s.memories := by
  unfold digestDone
  dsimp only
  (repeat' split) <;> simp

/-! ### Boot, life cycle and SPDM -/

@[simp] theorem bootCheck_memories (s : State) : (bootCheck s).memories = s.memories := by
  unfold bootCheck
  dsimp only
  (repeat' split) <;> simp

@[simp] theorem bootCtlWrite_memories (x : Nat) (s : State) : (bootCtlWrite x s).memories = s.memories := by
  unfold bootCtlWrite
  split <;> simp

@[simp] theorem svnAdvance_memories (s : State) : (svnAdvance s).memories = s.memories := by
  unfold svnAdvance
  split <;> simp

@[simp] theorem ideOnlySet_memories (s : State) : (ideOnlySet s).memories = s.memories := rfl

@[simp] theorem secCtlWrite_memories (x : Nat) (s : State) : (secCtlWrite x s).memories = s.memories := by
  unfold secCtlWrite
  (repeat' split) <;> simp

@[simp] theorem freshNonce_memories (s : State) : (freshNonce s).memories = s.memories := rfl
@[simp] theorem lcRefuse_memories (st : Status) (s : State) : (lcRefuse st s).memories = s.memories := rfl
@[simp] theorem modSpdm_memories (s : State) (f : Spdm → Spdm) : (modSpdm s f).memories = s.memories := rfl

theorem spdmServe_memories {f : State → State} (h : ∀ u, (f u).memories = u.memories) (s : State) :
    (spdmServe f s).memories = s.memories := by
  unfold spdmServe
  split
  · exact h s
  · rfl

@[simp] theorem spdmSay_memories (x : SpdmRsp) (s : State) : (spdmSay x s).memories = s.memories := rfl
@[simp] theorem getVersion_memories (s : State) : (getVersion s).memories = s.memories := rfl

@[simp] theorem getCapabilities_memories (s : State) : (getCapabilities s).memories = s.memories := by
  unfold getCapabilities
  split <;> simp

@[simp] theorem negotiate_memories (s : State) : (negotiate s).memories = s.memories := by
  unfold negotiate
  split <;> simp

@[simp] theorem spdmMeasure_memories (index : Byte) (signed : Bool) (nonce : BitVec 256) (s : State) :
    (spdmMeasure index signed nonce s).memories = s.memories := by
  unfold spdmMeasure
  (repeat' split) <;> simp

@[simp] theorem spdmExchange_memories (session : BitVec 16) (exchange : List Byte) (s : State) :
    (spdmExchange session exchange s).memories = s.memories := by
  unfold spdmExchange
  (repeat' split) <;> simp

@[simp] theorem spdmFinishOf_memories (verify : List Byte) (s : State) : (spdmFinishOf verify s).memories = s.memories := by
  unfold spdmFinishOf
  (repeat' split) <;> simp

@[simp] theorem spdmBeat_memories (s : State) : (spdmBeat s).memories = s.memories := by
  unfold spdmBeat
  split <;> simp

@[simp] theorem spdmEnd_memories (s : State) : (spdmEnd s).memories = s.memories := by
  unfold spdmEnd
  split <;> simp

@[simp] theorem ideKey_memories (stream : Fin 4) (key : BitVec 256) (s : State) : (ideKey stream key s).memories = s.memories := by
  unfold ideKey
  split <;> simp

/-! ### AUX_SYNC, JTAG and Waton -/

@[simp] theorem auxCtlWrite_memories (b : BarAcc) (v : Word) (s : State) : (auxCtlWrite b v s).memories = s.memories := by
  unfold auxCtlWrite
  dsimp only
  split <;> simp

@[simp] theorem auxEdge_memories (s : State) : (auxEdge s).memories = s.memories := by
  unfold auxEdge
  dsimp only
  (repeat' split) <;> simp

@[simp] theorem modJtag_memories (s : State) (f : Jtag → Jtag) : (modJtag s f).memories = s.memories := by
  unfold modJtag
  split <;> simp

@[simp] theorem tapLoad_memories (i : TapInstr) (s : State) : (tapLoad i s).memories = s.memories := by
  unfold tapLoad
  simp

@[simp] theorem tapIdcode_memories (s : State) : (tapIdcode s).memories = s.memories := by
  unfold tapIdcode
  simp

@[simp] theorem tapSample_memories (pins shift : BitVec 17) (s : State) : (tapSample pins shift s).memories = s.memories := by
  unfold tapSample
  simp

@[simp] theorem tapExtest_memories (pins shift : BitVec 17) (s : State) : (tapExtest pins shift s).memories = s.memories := by
  unfold tapExtest
  simp

@[simp] theorem modWtn_memories (s : State) (f : Waton → Waton) : (modWtn s f).memories = s.memories := rfl
@[simp] theorem wtnSay_memories (x : WtnOut) (s : State) : (wtnSay x s).memories = s.memories := rfl

theorem wtnServe_memories {f : State → State} (h : ∀ u, (f u).memories = u.memories) (s : State) : (wtnServe f s).memories = s.memories := by
  unfold wtnServe
  split
  · exact h s
  · rfl

@[simp] theorem entdaa_memories (addr : BitVec 7) (s : State) : (entdaa addr s).memories = s.memories := by
  unfold entdaa
  split <;> simp

@[simp] theorem rstdaa_memories (s : State) : (rstdaa s).memories = s.memories := rfl

@[simp] theorem wtnEvents_memories (f : Byte → Byte) (s : State) : (wtnEvents f s).memories = s.memories := by
  unfold wtnEvents
  split <;> simp

/-! ### Register writes -/

@[simp] theorem lrxWrite_memories (i : Fin 8) (x : Nat) (s : State) : (lrxWrite i x s).memories = s.memories := by
  unfold lrxWrite
  dsimp only
  split <;> simp

@[simp] theorem fabGrpWrite_memories (x : Nat) (s : State) : (fabGrpWrite x s).memories = s.memories := rfl

@[simp] theorem digRangeWrite_memories (o x : Nat) (s : State) : (digRangeWrite o x s).memories = s.memories := by
  unfold digRangeWrite
  simp [apply_ite State.memories]

@[simp] theorem supplyStatWrite_memories (x : Nat) (s : State) : (supplyStatWrite x s).memories = s.memories := rfl

@[simp] theorem memRegWrite_memories (b : BarAcc) (k : Fin 8) (o : Nat) (v : Word) (s : State) :
    (memRegWrite b k o v s).memories = s.memories := by
  unfold memRegWrite
  (repeat' split) <;> simp

@[simp] theorem memcWrite_memories (b : BarAcc) (o : Nat) (v : Word) (s : State) : (memcWrite b o v s).memories = s.memories := by
  unfold memcWrite
  split <;> simp

@[simp] theorem fabWrite_memories (b : BarAcc) (o : Nat) (v : Word) (s : State) : (fabWrite b o v s).memories = s.memories := by
  unfold fabWrite
  (repeat' split) <;> simp

@[simp] theorem ioWrite_memories (b : BarAcc) (io1 : Bool) (o : Nat) (v : Word) (s : State) :
    (ioWrite b io1 o v s).memories = s.memories := by
  unfold ioWrite
  (repeat' split) <;> simp

@[simp] theorem cgWrite_memories (b : BarAcc) (r : RegionId) (o : Nat) (v : Word) (s : State) :
    (cgWrite b r o v s).memories = s.memories := by
  unfold cgWrite
  split <;> simp

@[simp] theorem chPop_memories (c : CoreId) (e : Fin 32) (s : State) : (chPop c e s).memories = s.memories := by
  unfold chPop
  dsimp only
  (repeat' split) <;> simp

@[simp] theorem chOpenCfg_memories (c : CoreId) (e : Fin 32) (s : State) : (chOpenCfg c e s).memories = s.memories := by
  unfold chOpenCfg
  dsimp only
  split <;> simp

@[simp] theorem chCmdWrite_memories (c : CoreId) (x : Nat) (s : State) : (chCmdWrite c x s).memories = s.memories := by
  unfold chCmdWrite
  (repeat' split) <;> simp

@[simp] theorem coreWrite_memories (b : BarAcc) (c : CoreId) (o : Nat) (v : Word) (s : State) :
    (coreWrite b c o v s).memories = s.memories := by
  unfold coreWrite
  (repeat' split) <;> simp

@[simp] theorem wtnRead_memories (bytes : List Byte) (s : State) : (wtnRead bytes s).memories = s.memories := by
  unfold wtnRead
  dsimp only
  split <;> simp

/-! ### The idle step -/

@[simp] theorem idleHolds_memories (s : State) : (idleHolds s).memories = s.memories := by
  unfold idleHolds
  refine foldl_memories (fun _ _ => ?_) _ _
  split <;> simp

/-! ### Commands and steps -/

theorem runIssue_memories {i : Instr} {x : Issue} (hx : issueOf i = some x) (s : State) : (runIssue x i s).memories = s.memories := by
  unfold runIssue
  split
  · split
    · simp
    · split
      · exact fenceCore_memories ..
      · exact effect_memories hx s
  · rfl

end Sys2Proof.Machine

/-! SUPPORT. The functions that write DRAM, a local store, the staging window or the token: each keeps all of them in canonical form. -/

namespace Sys2Proof.Machine

/-! ### The Skidder's writes -/

theorem issueTransfer_wf {s : State} (h : s.memories.Wf) (c : CoreId) : (issueTransfer c s).memories.Wf := by
  unfold issueTransfer
  split
  · exact h
  · refine setCore_wf h ?_
    dsimp only
    rw [modQ_store]
    split
    · exact h.stores c
    · exact reserveEntries_store_wf (h.stores c) ..

/-- The bytes of a return land one by one. -/
theorem landed_store_wf {k : Core} (h : memWf k.store = true) (q : QId) (a : ActDesc) (limit period : Nat)
    (bs : List (Option Nat × Byte)) :
    memWf (bs.foldl (fun k p =>
      match p.1 with
      | some place => if place < limit then landByte k q a place p.2 period else k
      | none => k) k).store = true := by
  refine foldl_inv (fun k : Core => memWf k.store = true) _ (fun k p hk => ?_) _ _ h
  split
  · split
    · exact landByte_store_wf hk ..
    · exact hk
  · exact hk

theorem landReturn_wf {s : State} (h : s.memories.Wf) (c : CoreId) (q : QId) (id : Nat) : (landReturn c q id s).memories.Wf := by
  unfold landReturn
  dsimp only
  (repeat' split) <;> try simpa using h
  all_goals
    refine setCore_wf h ?_
    rw [actMoved_store]
    refine landed_store_wf ?_ ..
    simpa using h.stores c

theorem acceptWrite_wf {s : State} (h : s.memories.Wf) (c : CoreId) (q : QId) (id : Nat) : (acceptWrite c q id s).memories.Wf := by
  have hfold (x : Xfer) (l : List (Nat × Nat)) (z : Nat × ByteMem) (hz : memWf z.2 = true) :
      memWf (l.foldl (fun (a : Nat × ByteMem) r =>
        (a.1 + r.2, memWrite a.2 r.1 ((List.range r.2).map (fun i => cellGet 0#8 x.data (a.1 + i))))) z).2 = true :=
    foldl_inv (fun z : Nat × ByteMem => memWf z.2 = true) _ (fun z r hz => memWf_memWrite _ _ _ hz) l z hz
  unfold acceptWrite
  dsimp only
  split
  · exact h
  · split
    · exact h
    · split
      all_goals
        refine setCore_wf h ?_
        simp only [actMoved_store, modQ_store]
        split
        · exact hfold _ _ _ (h.stores c)
        · exact h.stores c

/-! ### Messages that land -/

theorem drainHeld_wf {s : State} (h : s.memories.Wf) (c : CoreId) (e : Fin 32) (n : Nat) : (drainHeld c e n s).memories.Wf := by
  induction n generalizing s with
  | zero => exact h
  | succ n ih =>
    unfold drainHeld
    dsimp only
    split
    · exact h
    · rename_i d rest _
      split
      · have hk : memWf (modEp (coreAt s c) e (fun y => { y with held := rest })).store = true := h.stores c
        have hs := setCore_wf (c := c) h (landEffect_store_wf hk e d (nowAt s c) (periodAt s c))
        refine ih ?_
        split <;> split <;> simpa using hs
      · exact h

theorem arriveMessage_wf {s : State} (h : s.memories.Wf) (c : CoreId) (e : Fin 32) (m : ChMsg) (d : Desc) :
    (arriveMessage c e m d s).memories.Wf := by
  unfold arriveMessage
  dsimp only
  split
  · split
    · simpa using h
    · exact drainHeld_wf (by simpa using h) ..
  · split <;> simpa using h

theorem arrive_wf {s : State} (h : s.memories.Wf) (c : CoreId) (e : Fin 32) (m : ChMsg) : (arrive c e m s).memories.Wf := by
  unfold arrive
  dsimp only
  split
  case h_1 => exact arriveMessage_wf h ..
  all_goals (repeat' split) <;> simpa using h

theorem arriveKind_wf {s : State} (h : s.memories.Wf) (kind : ChMsgKind → Bool) (c : CoreId) (e : Fin 32) :
    (arriveKind kind c e s).memories.Wf := by
  unfold arriveKind
  split
  · exact h
  · exact arrive_wf (by simpa using h) ..

theorem arriveDue_wf {s : State} (h : s.memories.Wf) (c : CoreId) (e : Fin 32) (n : Nat) : (arriveDue c e n s).memories.Wf := by
  induction n generalizing s with
  | zero => exact h
  | succ n ih =>
    unfold arriveDue
    split
    · exact drainHeld_wf h ..
    · exact ih (arrive_wf (by simpa using h) ..)

theorem channelTick_wf {s : State} (h : s.memories.Wf) (c : CoreId) : (channelTick c s).memories.Wf :=
  foldl_wf (fun _ _ hu => arriveDue_wf hu ..) _ h

/-! ### Results that become visible, and the phases of a tick -/

theorem applyPend_wf {s : State} (h : s.memories.Wf) (c : CoreId) (p : Pend) : (applyPend c p s).memories.Wf := by
  unfold applyPend
  extract_lets s1
  have hs : s1.memories.Wf := by
    dsimp only [s1]
    split <;> simpa using h
  split
  case h_4 => exact modCore_wf hs fun _ hk => effCore_store_wf hk _
  all_goals simpa using hs

theorem settlePends_wf {s : State} (h : s.memories.Wf) (want : Eff → Bool) (c : CoreId) (t : Nat) :
    (settlePends want c t s).memories.Wf :=
  foldl_wf (fun _ _ hu => applyPend_wf hu ..) _ (by simpa using h)

theorem runLate_wf {s : State} (h : s.memories.Wf) (c : CoreId) (t : Nat) : (runLate c t s).memories.Wf := by
  refine foldl_wf (fun u p hu => ?_) _ h
  have hdrop : (modCore u c (fun k => { k with pend := k.pend.erase p })).memories.Wf := by simpa using hu
  dsimp only
  split
  · split
    · simpa using hu
    · exact applyPend_wf hdrop ..
  · exact applyPend_wf hdrop ..

theorem startOfTick_wf {s : State} (h : s.memories.Wf) (c : CoreId) (t : Nat) : (startOfTick c t s).memories.Wf := by
  unfold startOfTick
  split
  · refine modCore_wf (channelTick_wf (settlePends_wf (by simpa using h) ..) ..) fun k hk => ?_
    rw [foldl_store (fun _ _ => arrReads_store ..)]
    exact sclDue_store_wf hk t
  · exact channelTick_wf (settlePends_wf h ..) c

theorem endOfTick_wf {s : State} (h : s.memories.Wf) (c : CoreId) (t : Nat) : (endOfTick c t s).memories.Wf := by
  unfold endOfTick
  split
  · simpa using settlePends_wf h ..
  · exact h

theorem tickBody_wf {s : State} (h : s.memories.Wf) (mask : List CoreId) (bad : List BadRead) (r : RegionId) :
    (tickBody mask bad r s).memories.Wf := by
  unfold tickBody
  extract_lets t cs allDo found s0 s1 s2 s3 s3' s4 s5 s6 s7 s8
  have h1 : s1.memories.Wf := foldl_wf (fun _ _ hu => startOfTick_wf hu ..) _ (by simpa [s0] using h)
  have h4 : s4.memories = s1.memories := by
    dsimp only [s4, s3', s3, s2, allDo]
    rw [foldl_memories (fun _ _ => corePhase_memories ..), foldl_memories (fun _ _ => fxinTake_memories ..),
      foldl_memories (fun _ _ => issueBundle_memories ..), foldl_memories (fun _ _ => startPhase_memories ..)]
  have h5 : s5.memories.Wf := by
    have h4 : s4.memories.Wf := by
      rw [h4]
      exact h1
    refine foldl_wf (fun u c hu => ?_) cs h4
    dsimp only
    split
    · exact runLate_wf hu ..
    · exact hu
  have h7 : s7.memories = s5.memories := by
    dsimp only [s7, s6, allDo]
    rw [foldl_memories (fun _ _ => combTick_memories ..), foldl_memories (fun _ _ => corePhase_memories ..)]
  simpa [s8, h7] using h5

theorem tickEnd_wf {s : State} (h : s.memories.Wf) (r : RegionId) : (tickEnd r s).memories.Wf := by
  unfold tickEnd
  exact foldl_wf (fun _ _ hu => endOfTick_wf (by simpa using hu) ..) _ (by simpa using h)

theorem tickCommit_wf {s s1 : State} (h : s.memories.Wf) (h1 : s1.memories.Wf) (r : RegionId) : (tickCommit r s s1).memories.Wf := by
  unfold tickCommit
  dsimp only
  rw [stopFire_memories]
  refine tickEnd_wf ?_ r
  rw [settleFaults_memories, modRegion_memories]
  split
  · exact h1
  · rw [foldl_memories (fun _ _ => keepFlmErr_memories ..)]
    exact tickBody_wf h ..

theorem scheduleTick_wf {s : State} (h : s.memories.Wf) (r : RegionId) (errs : List StoreError) : (scheduleTick r errs s).memories.Wf := by
  unfold scheduleTick
  dsimp only
  split
  · split
    · exact tickCommit_wf h (by simpa using tickBody_wf h ..) r
    · simpa using h
  · split <;> simpa using h

theorem holdRelease_wf {s : State} (h : s.memories.Wf) (r : RegionId) : (holdRelease r s).memories.Wf := by
  have ho : (holdOver r s).memories.Wf := by simpa using h
  unfold holdRelease
  dsimp only
  split
  · split
    · exact tickCommit_wf ho (tickBody_wf ho ..) r
    · simpa using h
  · exact h

/-! ### The due step of one unit -/

theorem settleKind_wf {s : State} (h : s.memories.Wf) (want : Eff → Bool) (c : CoreId) : (settleKind want c s).memories.Wf := by
  unfold settleKind
  split
  · simpa using settlePends_wf h ..
  · exact h

theorem accumulatorWrite_wf {s : State} (h : s.memories.Wf) (c : CoreId) (m : Fin 4) : (accumulatorWrite c m s).memories.Wf :=
  settleKind_wf h ..

theorem checksumCompare_wf {s : State} (h : s.memories.Wf) (c : CoreId) (m : Fin 4) : (checksumCompare c m s).memories.Wf :=
  settleKind_wf h ..

theorem shadowWeightWrite_wf {s : State} (h : s.memories.Wf) (c : CoreId) : (shadowWeightWrite c s).memories.Wf := settleKind_wf h ..
theorem vectorResultWrite_wf {s : State} (h : s.memories.Wf) (c : CoreId) : (vectorResultWrite c s).memories.Wf := settleKind_wf h ..
theorem wideRowAdd_wf {s : State} (h : s.memories.Wf) (c : CoreId) : (wideRowAdd c s).memories.Wf := settleKind_wf h ..

theorem fsendFlitInject_wf {s : State} (h : s.memories.Wf) (c : CoreId) (d : Dir) : (fsendFlitInject c d s).memories.Wf := by
  unfold fsendFlitInject
  rw [runKind_memories]
  exact settleKind_wf h ..

theorem scalerRecordWrite_wf {s : State} (h : s.memories.Wf) (c : CoreId) : (scalerRecordWrite c s).memories.Wf := by
  unfold scalerRecordWrite
  split
  · exact modCore_wf h fun _ hk => sclDue_store_wf hk _
  · exact h

theorem sputGroupWrite_wf {s : State} (h : s.memories.Wf) (c : CoreId) : (sputGroupWrite c s).memories.Wf := by
  unfold sputGroupWrite
  dsimp only
  split
  · split
    · simpa using runLate_wf h ..
    · simpa using h
  · exact h

/-! ### Writes of DRAM -/

theorem dramWriteBut_wf {s : State} (h : s.memories.Wf) (bads : List Nat) (a : Nat) (bs : List Byte) :
    (dramWriteBut bads a bs s).memories.Wf := by
  unfold dramWriteBut
  split
  · exact dramWrite_wf h ..
  · refine foldl_wf (fun u i hu => ?_) _ h
    split
    · exact hu
    · exact dramWrite_wf hu ..

theorem journalWrites_wf {s : State} (h : s.memories.Wf) (g : Fin 16) (es : List StageEntry) : (journalWrites g es s).memories.Wf := by
  refine foldl_wf (fun u e hu => ?_) _ h
  dsimp only
  rw [modGroup_memories]
  exact dramWrite_wf hu ..

theorem commitStage_wf {s : State} (h : s.memories.Wf) (g : Fin 16) (addr count : Nat) :
    (commitStage g addr count s).state.memories.Wf := by
  unfold commitStage
  dsimp only
  (repeat' split) <;> try exact h
  exact journalWrites_wf (by simpa using h) ..

theorem commitMems_wf {s : State} (h : s.memories.Wf) (chks : List (Nat × PieceCheck)) (ms : List StagedMem) :
    (commitMems chks ms s).2.memories.Wf :=
  foldl_inv (fun z : Option StagedMem × State => z.2.memories.Wf) _ (fun _ _ hz => dramWriteBut_wf (by simpa using hz) ..) _ _ h

theorem commitComplete_wf {s : State} (h : s.memories.Wf) (g : Fin 16) (chks : List (Nat × PieceCheck)) :
    (commitComplete g chks s).memories.Wf := by
  have hm := commitMems_wf h chks (groupAt s g).mems
  unfold commitComplete
  dsimp only
  split
  · split
    · split <;> rename_i e <;> rw [e] at hm <;> simpa using hm
    · simpa using h
  · exact h

/-! ### Accesses of the host and of links -/

theorem hostLocal_wf {s : State} (h : s.memories.Wf) (x : HostAcc) (c : CoreId) (o : Nat) : (hostLocal x c o s).memories.Wf := by
  have ha (z : Completion) : (answerHost z s).memories.Wf := by simpa using h
  unfold hostLocal
  dsimp only
  split
  · split
    · exact modCore_wf (ha _) fun _ hk => memWf_memWrite _ _ _ hk
    · exact ha _
  · exact ha _

theorem hostMoves_wf {s : State} (h : s.memories.Wf) (x : HostAcc) (a : Nat) : (hostMoves x a s).memories.Wf := by
  have hr : (accessRange x.write a x.len [] x.chks s).2.memories.Wf := by simpa using h
  have hw (bads : List Nat) (bs : List Byte) := dramWriteBut_wf hr bads a bs
  unfold hostMoves
  dsimp only
  split <;> split
  · simpa using hw ..
  · simpa using hr
  · simpa using hw ..
  · simpa using hr

theorem hostTake_wf {s : State} (h : s.memories.Wf) (w : HostWait) : (hostTake w s).memories.Wf := by
  unfold hostTake
  split
  · simpa using h
  · split
    · exact hostLocal_wf h ..
    · split
      · exact hostMoves_wf h ..
      · simpa using h

theorem hostAgain_wf {s : State} (h : s.memories.Wf) (w : HostWait) : (hostAgain w s).memories.Wf := by
  unfold hostAgain
  split
  · exact hostTake_wf h w
  · exact h

theorem hostServe_wf {s : State} (h : s.memories.Wf) : (hostServe s).memories.Wf := foldl_wf (fun _ _ hu => hostAgain_wf hu _) _ h

theorem hostAccess_wf {s : State} (h : s.memories.Wf) (x : HostAcc) : (hostAccess x s).memories.Wf := by
  unfold hostAccess
  dsimp only
  (repeat' split) <;> try simpa using h
  exact hostTake_wf h _

theorem landData_wf {s : State} (h : s.memories.Wf) (x : LinkPkt) (area : Option Nat) (final : Bool) (chks : List (Nat × PieceCheck)) :
    (landData x area final chks s).memories.Wf := by
  have hw (bads : List Nat) (s0 : State) (h0 : s0.memories = s.memories) :
      (dramWriteBut bads x.addr.toNat x.data (accessRange true x.addr.toNat x.data.length [] chks s0).2).memories.Wf :=
    dramWriteBut_wf (by simpa [h0] using h) ..
  unfold landData
  dsimp only
  split
  · split
    · exact hw _ _ (noteLanding_memories ..)
    · simpa using hw _ _ (noteLanding_memories ..)
  · simpa using h

theorem writeIn_wf {s : State} (h : s.memories.Wf) (x : LinkPkt) (final : Bool) (chks : List (Nat × PieceCheck)) :
    (writeIn x final chks s).memories.Wf := by
  have hl := landData_wf h x none final chks
  unfold writeIn
  dsimp only
  (repeat' split) <;> simpa using hl

theorem contributionIn_wf {s : State} (h : s.memories.Wf) (p : PortId) (x : LinkPkt) (i : ContribInfo) (chks : List (Nat × PieceCheck)) :
    (contributionIn p x i chks s).memories.Wf := by
  have hl := landData_wf h x (some ((i.nrowsM1.val + 1) * (if i.wide then 2048 else 512))) i.final chks
  have ht := takeLanded_memories x (landData x (some ((i.nrowsM1.val + 1) * (if i.wide then 2048 else 512))) i.final chks s)
  rw [← ht] at hl
  unfold contributionIn
  dsimp only
  split
  · split <;> rename_i e <;> rw [e] at hl
    · (repeat' split) <;> simpa using hl
    · simpa using hl
  · exact ht ▸ hl

theorem carryIn_wf {s : State} (h : s.memories.Wf) (y : LinkIn) (chks : List (Nat × PieceCheck)) : (carryIn y chks s).memories.Wf := by
  cases y with
  | write _ x final => exact writeIn_wf h ..
  | contribution p x i => exact contributionIn_wf h ..
  | flag p x rcore f => exact (flagIn_memories ..).symm ▸ h

theorem takeIn_wf {s : State} (h : s.memories.Wf) (via : Bool) (y : LinkIn) (chks : List (Nat × PieceCheck)) :
    (takeIn via y chks s).memories.Wf := by
  unfold takeIn
  split
  · exact carryIn_wf h ..
  · dsimp only
    split <;> simpa using h

theorem linkServe_wf {s : State} (h : s.memories.Wf) (via : Bool) : (linkServe via s).memories.Wf :=
  foldl_wf (fun _ _ hu => takeIn_wf hu ..) _ h

theorem linkWrite_wf {s : State} (h : s.memories.Wf) (p : PortId) (x : LinkPkt) (final : Bool) (chks : List (Nat × PieceCheck)) :
    (linkWrite p x final chks s).memories.Wf := by
  unfold linkWrite
  split
  · exact takeIn_wf h ..
  · exact h

theorem linkContribution_wf {s : State} (h : s.memories.Wf) (p : PortId) (x : LinkPkt) (i : ContribInfo) (chks : List (Nat × PieceCheck)) :
    (linkContribution p x i chks s).memories.Wf := by
  unfold linkContribution
  split
  · exact takeIn_wf h ..
  · exact h

theorem linkFlag_wf {s : State} (h : s.memories.Wf) (p : PortId) (x : LinkPkt) (rcore : Fin 64) (f : Fin 8) :
    (linkFlag p x rcore f s).memories.Wf := by
  unfold linkFlag
  split
  · exact takeIn_wf h ..
  · exact h

/-! ### Snapshots and restores -/

theorem captureComplete_wf {s : State} (h : s.memories.Wf) (chks : List (Nat × PieceCheck)) : (captureComplete chks s).memories.Wf := by
  unfold captureComplete
  dsimp only
  split
  · simpa using h
  · rename_i p _ _
    have hr := readRanges_memories p.ranges chks s
    split
    · exact h
    · split
      · simpa using h
      · split <;> rename_i e <;> rw [e] at hr
        · simpa [hr] using h
        · rename_i s1
          have hw := accessRange_memories true (planSlot p s.snap.slot) (snapBytes s p).length [] [] s1
          split <;> rename_i e <;> rw [e] at hw <;> dsimp only at hw
          · simpa [hw, hr] using h
          · rename_i s2
            have hd : ({ dramWrite s2 (planSlot p s.snap.slot) (snapBytes s p) with free := s2.free + 1 } : State).memories.Wf :=
              dramWrite_wf (by rw [hw, hr]; exact h) ..
            split <;> simpa using hd
  · exact h

theorem restoreRanges_wf {s : State} (h : s.memories.Wf) (rs : List (Nat × Nat)) (src : Nat) : (restoreRanges rs src s).memories.Wf := by
  induction rs generalizing src s with
  | nil => exact h
  | cons r rs ih => exact ih (dramWrite_wf h ..) _

theorem bringBack_wf {s : State} (h : s.memories.Wf) (p : SnapPlan) (a : Nat) : (bringBack p a s).state.memories.Wf := by
  have hc := checkSnap_memories a s
  unfold bringBack
  split <;> rename_i e <;> rw [e] at hc <;> dsimp only at hc
  · rename_i s1
    refine restoreRanges_wf ?_ ..
    rw [foldl_memories (fun _ _ => accessRange_memories ..), hc]
    exact h
  · exact hc ▸ h

theorem restoreDo_wf {s : State} (h : s.memories.Wf) (op : RestoreOp) : (restoreDo op s).state.memories.Wf := by
  unfold restoreDo
  split
  · rename_i a p _ _
    cases op with
    | bringBack _ => exact bringBack_wf h ..
    | verify _ _ => exact (checkSnap_memories a s).symm ▸ h
    | forward => exact (forwardSnap_memories ..).symm ▸ h
  · exact h

theorem restore_wf {s : State} (h : s.memories.Wf) (op : RestoreOp) : (restore op s).state.memories.Wf := by
  unfold restore
  split
  · exact h
  · split
    · exact restoreDo_wf h op
    · simpa using h

theorem restoreAgain_wf {s : State} (h : s.memories.Wf) (x : Nat × RestoreOp) : (restoreAgain x s).memories.Wf := by
  unfold restoreAgain
  split
  · simpa using h
  · split
    · simpa using restoreDo_wf h x.2
    · exact h

theorem restoreServe_wf {s : State} (h : s.memories.Wf) : (restoreServe s).memories.Wf :=
  foldl_wf (fun _ _ hu => restoreAgain_wf hu _) _ h

/-- Everything that waits for its stacks is served. -/
theorem serveWaits_wf {s : State} (h : s.memories.Wf) : (serveWaits s).memories.Wf :=
  restoreServe_wf (linkServe_wf (linkServe_wf (hostServe_wf h) false) true)

/-! ### Pieces, sleep and resets -/

theorem accessPiece_wf {s : State} (h : s.memories.Wf) (k : Fin 8) (p : Piece) (found : PieceCheck) :
    (accessPiece k p found s).memories.Wf := by
  have hc := checkPiece_memories k (p.off / 128 * 128) (p.write && decide (p.len = 128)) false found s
  unfold accessPiece
  dsimp only
  split <;> rename_i e <;> rw [e] at hc <;> dsimp only at hc
  · simpa [hc] using h
  · rw [← hc] at h
    split
    · rw [servePiece_memories]
      exact ⟨foldl_inv (fun m => memWf m = true) _ (fun m _ hm => memWf_memSet m _ _ hm) _ _ h.dram, h.stores, h.staging, h.token⟩
    · simpa using h

theorem pieceAccess_wf {s : State} (h : s.memories.Wf) (k : Fin 8) (e : Fin 128) (ch : Fin 32) (chk : PieceCheck) :
    (pieceAccess k e ch chk s).memories.Wf := by
  unfold pieceAccess
  dsimp only
  (repeat' split) <;> try exact h
  exact accessPiece_wf (by simpa using h) ..

/-- A core that loses its state has an empty local store. -/
theorem modCore_coreCleared_wf {s : State} (h : s.memories.Wf) (c : CoreId) : (modCore s c coreCleared).memories.Wf :=
  modCore_wf h fun _ _ => rfl

theorem sleepNow_wf {s : State} (h : s.memories.Wf) (n : Fin 28) : (sleepNow n s).memories.Wf := by
  unfold sleepNow
  dsimp only
  split
  · exact foldl_wf (fun _ _ hu => modCore_coreCleared_wf hu _) _ h
  · exact h

theorem regionSleep_wf {s : State} (h : s.memories.Wf) (n : Fin 26) (quiet : Bool) : (regionSleep n quiet s).memories.Wf := by
  unfold regionSleep
  dsimp only
  split
  · exact sleepNow_wf h _
  · exact h

theorem sleepAll_wf {s : State} (h : s.memories.Wf) : (sleepAll s).memories.Wf := foldl_wf (fun _ _ hu => sleepNow_wf hu _) _ h

theorem thermHard_wf {s : State} (h : s.memories.Wf) : (thermHard s).memories.Wf := by
  have hs := sleepAll_wf (s := fenceAll .thermalTrip s) (by simpa using h)
  unfold thermHard
  simpa using hs

theorem logicTemp_wf {s : State} (h : s.memories.Wf) (t : Byte) (hot : BitVec 5) : (logicTemp t hot s).memories.Wf := by
  unfold logicTemp
  split
  · extract_lets s1 s2
    have h2 : s2.memories.Wf := by
      dsimp only [s2, s1]
      split <;> simpa using h
    split
    · exact thermHard_wf h2
    · exact h2
  · exact h

theorem supplyEffect_wf {s : State} (h : s.memories.Wf) (x : Rail) : (supplyEffect x s).memories.Wf := by
  have hsleep : (allRegions.foldl (fun u r => if powAt u (powCg r) = .queued then u else sleepNow (powCg r) u)
      (fenceAll .supplyFault s)).memories.Wf :=
    foldl_wf (fun u r hu => by
      split
      · exact hu
      · exact sleepNow_wf hu _) _ (by simpa using h)
  unfold supplyEffect
  split
  case h_1 | h_2 => simpa using hsleep
  case h_3 => simpa using h
  case h_4 | h_5 => rw [pcieDown_memories, foldl_memories (fun _ _ => by split <;> simp)]; exact h
  case h_6 | h_7 => rw [foldl_memories (fun _ _ => by split <;> simp)]; exact h

theorem supplyFault_wf {s : State} (h : s.memories.Wf) (x : Rail) (mv : BitVec 12) : (supplyFault x mv s).memories.Wf := by
  unfold supplyFault
  split
  · simpa using supplyEffect_wf (by simpa using h) x
  · exact h

theorem coreCold_store (f : Fuses) (c : CoreId) : (coreCold f c).store = [] := rfl
theorem identCold_staging (d : Ident) (n : Nat) : (identCold d n).staging = [] := rfl
theorem identCold_token (d : Ident) (n : Nat) : (identCold d n).token = [] := rfl

/-- A cold reset keeps DRAM and empties every other memory (R351, R355). -/
theorem coldReset_memories (cause : Nat) (s : State) :
    (coldReset cause s).memories = { dram := s.dram, stores := fun _ => [], staging := [], token := [] } := by
  unfold coldReset
  rw [memories_mk]
  simp only [get_ofFn, coreCold_store, identCold_staging, identCold_token]

theorem coldReset_wf {s : State} (h : s.memories.Wf) (cause : Nat) : (coldReset cause s).memories.Wf := by
  rw [coldReset_memories]
  exact ⟨h.dram, fun _ => rfl, rfl, rfl⟩

theorem resetRelease_wf {s : State} (h : s.memories.Wf) (mgrSel : Bool) (wid : BitVec 4) : (resetRelease mgrSel wid s).memories.Wf := by
  unfold resetRelease
  split
  · simpa using coldReset_wf (s := modPower s _) h causePin
  · exact h

theorem resetAssert_wf {s : State} (h : s.memories.Wf) : (resetAssert s).memories.Wf := by
  unfold resetAssert
  split
  · exact h
  · exact coldReset_wf (s := modPower s _) h _

theorem powerRemoved_wf {s : State} (h : s.memories.Wf) : (powerRemoved s).memories.Wf := by
  obtain ⟨-, hstores, hstaging, htoken⟩ := coldReset_wf (s := modPower s (fun p => { p with resetLow := true, aon := false })) h causePin
  unfold powerRemoved
  rw [memories_mk]
  exact ⟨rfl, hstores, hstaging, htoken⟩

theorem coreWarm_store (k : Core) : (coreWarm k).store = [] := rfl

theorem warmReset_wf {s : State} (h : s.memories.Wf) (cause : Nat) : (warmReset cause s).memories.Wf := by
  unfold warmReset
  split
  · rw [resetWipe_memories, foldl_memories (fun _ _ => wakeRegion_memories ..), memories_mk]
    simp only [vmap, get_ofFn, coreWarm_store]
    exact ⟨h.dram, fun c => rfl, h.staging, h.token⟩
  · exact h

theorem perst_wf {s : State} (h : s.memories.Wf) : (perst s).memories.Wf := warmReset_wf (s := pcieDown s) h _

theorem pwrResetWrite_wf {s : State} (h : s.memories.Wf) (x : Nat) : (pwrResetWrite x s).memories.Wf := by
  unfold pwrResetWrite
  split
  · split
    · exact coldReset_wf h _
    · split
      · exact warmReset_wf h _
      · exact h
  · exact h

theorem refPresent_wf {s : State} (h : s.memories.Wf) : (refPresent s).memories.Wf := by
  unfold refPresent
  split
  · split
    · rw [modPower_memories]
      exact coldReset_wf h _
    · exact h
  · exact h

/-! ### Wipes -/

theorem dramWipe_wf {s : State} (h : s.memories.Wf) (p : Nat → Bool) : (dramWipe p s).memories.Wf :=
  ⟨cellWf_filter _ _ _ h.dram, h.stores, h.staging, h.token⟩

theorem wipeEffect_wf {s : State} (h : s.memories.Wf) (w : Wipe) : (wipeEffect w s).memories.Wf := by
  cases w with
  | dram first count => exact dramWipe_wf h _
  | onDie mask => exact foldl_wf (fun _ _ hu => modCore_coreCleared_wf hu _) _ h
  | reset =>
    unfold wipeEffect
    rw [modPower_memories]
    split
    · exact dramWipe_wf h _
    · exact ⟨rfl, h.stores, h.staging, h.token⟩

theorem wipeDone_wf {s : State} (h : s.memories.Wf) : (wipeDone s).memories.Wf := by
  unfold wipeDone
  split
  · exact h
  · rename_i w r _
    dsimp only
    (repeat' split)
    · exact h
    all_goals simpa using wipeEffect_wf h w

/-! ### The staging window, the token, and registers -/

theorem stagingWrite_wf {s : State} (h : s.memories.Wf) (o : Nat) (bs : List Byte) : (stagingWrite o bs s).memories.Wf := by
  unfold stagingWrite
  split
  · exact h
  · exact ⟨h.dram, h.stores, memWf_memWrite _ _ _ h.staging, h.token⟩

theorem lcAccept_wf {s : State} (h : s.memories.Wf) (dst : BitVec 3) : (lcAccept dst s).memories.Wf := by
  unfold lcAccept
  refine coldReset_wf ?_ _
  simpa using h

theorem lcRequest_wf {s : State} (h : s.memories.Wf) (dst : BitVec 3) : (lcRequest dst s).memories.Wf := by
  have hf : (freshNonce s).memories.Wf := by simpa using h
  unfold lcRequest
  dsimp only
  split
  · simpa using h
  · split
    · simpa using h
    · split
      · split
        · simpa using hf
        · split
          · simpa using hf
          · exact lcAccept_wf hf dst
      · exact lcAccept_wf h dst

theorem lcReqWrite_wf {s : State} (h : s.memories.Wf) (x : Nat) : (lcReqWrite x s).memories.Wf := by
  unfold lcReqWrite
  split
  · exact lcRequest_wf h _
  · exact h

theorem capWrite_wf {s : State} (h : s.memories.Wf) (b : BarAcc) (o : Nat) (v : Word) : (capWrite b o v s).memories.Wf := by
  unfold capWrite
  dsimp only
  split
  · exact ⟨h.dram, h.stores, h.staging, memWf_memWrite _ _ _ h.token⟩
  · split
    case h_2 => exact lcReqWrite_wf h _
    all_goals simpa using h

theorem mgtWrite_wf {s : State} (h : s.memories.Wf) (b : BarAcc) (o : Nat) (v : Word) : (mgtWrite b o v s).memories.Wf := by
  unfold mgtWrite
  extract_lets x m
  split
  · simpa using h
  · split
    · simpa using h
    · split
      · exact stagingWrite_wf h ..
      · split <;> try simpa using h
        all_goals split <;> simpa using h

theorem aonWrite_wf {s : State} (h : s.memories.Wf) (b : BarAcc) (o : Nat) (v : Word) : (aonWrite b o v s).memories.Wf := by
  unfold aonWrite
  extract_lets x m
  split
  case h_1 => exact pwrResetWrite_wf h x
  all_goals try simpa using h
  all_goals split <;> simpa using h

theorem regWrite_wf {s : State} (h : s.memories.Wf) (b : BarAcc) (off : Nat) (v : Word) : (regWrite b off v s).memories.Wf := by
  unfold regWrite
  split
  case h_1 => exact capWrite_wf h ..
  case h_2 => exact mgtWrite_wf h ..
  case h_3 => exact aonWrite_wf h ..
  all_goals simpa using h

theorem wtnWrite_wf {s : State} (h : s.memories.Wf) (bytes : List Byte) : (wtnWrite bytes s).memories.Wf := by
  unfold wtnWrite
  dsimp only
  split
  · exact regWrite_wf (s := wtnSay .ack s) h ..
  · exact h

/-! ### Packets and register writes of the host -/

theorem onPacket_wf {s : State} (h : s.memories.Wf) {body : State → PktResult}
    (hb : ∀ u, u.memories.Wf → (body u).state.memories.Wf) (op : Nat) (p : PktHdr) (none_ : BitVec 192) :
    (onPacket op p none_ body s).memories.Wf := by
  have hbody := hb (takeHead s) (by simpa using h)
  unfold onPacket
  dsimp only
  split
  · split
    · simpa using h
    · split <;> rename_i e <;> rw [e] at hbody <;> simpa using hbody
  · split <;> simpa using h

theorem barWrite_wf {s : State} (h : s.memories.Wf) {f : State → State} (hf : ∀ u, u.memories.Wf → (f u).memories.Wf) (b : BarAcc) :
    (barWrite b f s).memories.Wf := by
  rcases barWrite_cases b f s with e | e | e | e <;> rw [e]
  · exact h
  · exact h
  · exact h
  · exact hf _ h

theorem barRegWrite_wf {s : State} (h : s.memories.Wf) (b : BarAcc) (off : Nat) (v : Word) : (barRegWrite b off v s).memories.Wf := by
  unfold barRegWrite
  (repeat' split) <;> try exact h
  exact barWrite_wf h (fun _ hu => regWrite_wf hu ..) b

theorem wtnServe_wf {s : State} (h : s.memories.Wf) {f : State → State} (hf : ∀ u, u.memories.Wf → (f u).memories.Wf) :
    (wtnServe f s).memories.Wf := by
  unfold wtnServe
  split
  · exact hf s h
  · exact h

/-! ### Commands and steps -/

/-- The next state's memories are in canonical form where those of the state that the outcome names are. -/
theorem wf_of_next {u t : State} (h : (.next u : Host.Outcome State Fault Refusal) = .next t) (hu : u.memories.Wf) : t.memories.Wf := by
  cases h
  exact hu

/-- A state with the memories of `s` has them in canonical form as `s` has. -/
theorem wf_of_memories {s u : State} (hs : s.memories.Wf) (h : u.memories = s.memories) : u.memories.Wf := by
  rw [h]
  exact hs

/-- A command that no slot holds keeps the memories in canonical form: the writers each by their own lemma, the rest by leaving them. -/
theorem command_wf {i : Instr} {s t : State} (hs : s.memories.Wf) (h : issueOf i = none) (ht : exec i s = .next t) : t.memories.Wf := by
  cases i <;> cases h <;> refine wf_of_next ht ?_
  case scheduleTick => exact scheduleTick_wf hs ..
  case holdRelease => exact wf_of_memories (holdRelease_wf hs _) (clkResume_memories ..)
  case accumulatorWrite => exact accumulatorWrite_wf hs ..
  case checksumCompare => exact checksumCompare_wf hs ..
  case shadowWeightWrite => exact shadowWeightWrite_wf hs _
  case vectorResultWrite => exact vectorResultWrite_wf hs _
  case wideRowAdd => exact wideRowAdd_wf hs _
  case scalerRecordWrite => exact scalerRecordWrite_wf hs _
  case fsendFlitInject => exact fsendFlitInject_wf hs ..
  case sputGroupWrite => exact sputGroupWrite_wf hs _
  case transferIssue => exact issueTransfer_wf hs _
  case returnLand => exact landReturn_wf hs ..
  case writeAccept => exact acceptWrite_wf hs ..
  case messageLand => exact drainHeld_wf (arriveKind_wf hs ..) ..
  case creditArrive | closeNotice => exact arriveKind_wf hs ..
  case discardNotice => exact wf_of_memories (arriveKind_wf hs ..) (settleFaults_memories ..)
  case commitStage => exact onPacket_wf hs (fun _ hu => commitStage_wf hu ..) ..
  case commitComplete => exact commitComplete_wf hs ..
  case restoreLocal | restoreVerify | restoreForward => exact onPacket_wf hs (fun _ hu => restore_wf hu _) ..
  case captureComplete => exact captureComplete_wf hs _
  case wipeDone => exact wipeDone_wf hs
  case registerWrite => exact barRegWrite_wf hs ..
  case hostMemoryAccess => exact hostAccess_wf hs _
  case memTripClear => exact serveWaits_wf (wf_of_memories hs (barWrite_memories (fun _ => memTripClear_memories ..) ..))
  case wheelTakesEffect => exact serveWaits_wf (wf_of_memories hs (wheelEffect_memories ..))
  case refreshRateChange => exact serveWaits_wf (wf_of_memories hs (refreshRate_memories ..))
  case regionRunning => exact serveWaits_wf (wf_of_memories hs (regionRunning_memories ..))
  case pieceAccess => exact pieceAccess_wf hs ..
  case logicTempUpdate => exact logicTemp_wf hs ..
  case supplyFault => exact supplyFault_wf hs ..
  case refPresent => exact refPresent_wf hs
  case regionSleep => exact regionSleep_wf hs ..
  case resetNRelease => exact resetRelease_wf hs ..
  case resetNAssert => exact resetAssert_wf hs
  case powerRemoved => exact powerRemoved_wf hs
  case pwrResetCold | pwrResetWarm => exact barWrite_wf hs (fun _ hu => pwrResetWrite_wf hu _) _
  case functionLevelReset => exact warmReset_wf hs _
  case perstAssert => exact perst_wf hs
  case lifecycleRequest => exact barWrite_wf hs (fun _ hu => lcReqWrite_wf hu _) _
  case linkWritePacket => exact linkWrite_wf hs ..
  case linkContributionPacket => exact linkContribution_wf hs ..
  case linkFlagPacket => exact linkFlag_wf hs ..
  case watonWrite => exact wtnServe_wf hs fun _ hu => wtnWrite_wf hu _
  all_goals refine wf_of_memories hs ?_
  case submitGraph | startRelease | startResume | fenceCancel | fenceStop | loadConfigLoad | loadConfigUnload | commitOpen |
      commitCommit | commitDiscard | stepAdvance | snapshotPlan | snapshotWaitCaptured | snapshotWaitComplete |
      setWheel | wipeDram | wipeOnDie | queryRegister | queryJobEntry =>
    exact onPacket_memories (fun _ => by simp) _ _ _ _
  case portRetrain | clkReqGo | cgClkctlWrite | tallyClear | selfTestRequest | wheelApply | memcDecodeWrite | sleepRequest |
      thermTripClear | supplyStatClear | refRecover | crCtlWrite | crTailWrite | jtIndexWrite |
      hwinWrite | digestStart | svnAdvance | ideOnlySet | auxCtlWrite | wabClearingLoad | chCmdOpen |
      chCmdClose | chCmdPop =>
    exact barWrite_memories (fun _ => by simp) _ _
  case getVersion | getCapabilities | negotiateAlgorithms | getMeasurements | keyExchange | spdmFinish | spdmHeartbeat | endSession
      | ideKmRequest =>
    exact spdmServe_memories (fun _ => by simp) _
  case getpid | getbcr | getdcr | getmxds | watonRead | getstatus => exact wtnServe_memories (fun _ => by simp) _
  case combineNarrow | combineWideRow => exact combCommand_memories _ _ _ (fun _ => by simp)
  case layerStart => split <;> simp
  case setClock =>
    split
    · rw [clkSettle_memories, onPacket_memories (fun _ => by simp)]
    · rw [onPacket_memories (fun _ => by simp)]
  all_goals simp

/-- A slot instruction that is not refused runs its issue, which writes no memory. -/
theorem slot_memories {i : Instr} {x : Issue} {s t : State} (hx : issueOf i = some x) (ht : exec i s = .next t) :
    t.memories = s.memories := by
  cases hw : i.wf with
  | true =>
    have hrun := (exec_slot s hx hw).symm.trans ht
    cases hrun
    exact runIssue_memories hx s
  | false =>
    obtain ⟨m, hm⟩ := exec_of_not_wf s hw
    cases hm.symm.trans ht

theorem exec_wf {i : Instr} {s t : State} (hs : s.memories.Wf) (ht : exec i s = .next t) : t.memories.Wf := by
  cases hx : issueOf i with
  | none => exact command_wf hs hx ht
  | some x => exact wf_of_memories hs (slot_memories hx ht)

theorem idle_memories (s : State) : (idle s).memories = s.memories := by
  unfold idle
  dsimp only
  (repeat' split) <;> simp

/-- Settles O59: every write of a memory goes through an operation of the sparse maps that keeps their canonical form, a reset or a wipe
empties or thins them, and every other function of the model leaves the four kinds of memory as they are. -/
theorem memoriesStayCanonical : Obligations.MemoriesStayCanonical := by
  unfold Obligations.MemoriesStayCanonical
  intro s t hs h
  rw [memoriesWf_iff] at hs ⊢
  unfold step at h
  split at h
  · exact wf_of_next h (wf_of_memories hs (idle_memories s))
  · rename_i c rest hp
    exact exec_wf (s := { s with pending := rest }) hs h

/-- Settles O58: at reset every memory is empty. -/
theorem memoriesCanonicalAtReset : Obligations.MemoriesCanonicalAtReset :=
  (memoriesWf_iff _).2 ⟨rfl, fun c => congrArg (fun k : Core => memWf k.store) (coreAt_reset c), rfl, rfl⟩

end Sys2Proof.Machine

/-! SUPPORT. Wipes, SET_CLOCK, SET_WHEEL and QUERY (R244, R255, R346, R231). -/

namespace Sys2Proof.Machine

/-! ### Wipes -/

/-- An entry that a predicate of its index removes reads as an unlisted one, and every other entry as before. -/
theorem memGet_filter (q : Nat → Bool) (m : ByteMem) (a : Nat) :
    memGet (m.filter (fun e => q e.1)) a = if q a then memGet m a else 0 := by
  unfold memGet
  induction m with
  | nil => simp [cellGet]
  | cons e r ih =>
    obtain ⟨k, v⟩ := e
    by_cases hk : a = k
    · subst hk
      cases hq : q a <;> simp [cellGet, hq, ih]
    · cases hq : q k <;> simp [cellGet, hq, ih, hk]

theorem memGet_dramWipe (p : Nat → Bool) (s : State) (a : Nat) :
    memGet (dramWipe p s).dram a = if p (dramAddr s a) then 0 else memGet s.dram a := by
  refine (memGet_filter (fun k => !p (dramAddr s k)) s.dram a).trans ?_
  cases p (dramAddr s a) <;> rfl

/-- What of a state the wake of a region for a wipe leaves as it is. -/
def wipeView (s : State) : Bool × List Wipe × ByteMem × Rings := (s.wiping, s.power.wipes, s.dram, s.rings)

@[simp] theorem wipeView_wakeRegion (n : Fin 28) (s : State) : wipeView (wakeRegion n s) = wipeView s := by
  have hqueue : wipeView (wakeQueue n s) = wipeView s := by
    unfold wakeQueue
    split <;> rfl
  unfold wakeRegion
  dsimp only
  split
  · exact hqueue
  · exact hqueue

/-- WIPE of DRAM granules that no live job reaches begins, and its packet waits (R255). -/
theorem wipeDram_begun {first count : Nat} {u : State} (hn : first + count ≤ 576)
    (hj : jobsWhere u (fun b => jobLive b && windowIn u (first * gib) (count * gib) b) = []) :
    ∃ v, wipeDram first count u = .waits .wipe v ∧ wipeView v = wipeView (wipeBegin (.dram first count) u) := by
  refine ⟨(List.finRange 8).foldl (fun v k => wakeRegion (powMem k) v) (wipeBegin (.dram first count) u), ?_,
    foldl_keeps wipeView _ (fun v k => wipeView_wakeRegion (powMem k) v) _ _⟩
  unfold wipeDram
  rw [if_neg (Nat.not_lt.2 hn), hj]
  rfl

/-- WIPE of active cores that no job has begins, and its packet waits (R255). -/
theorem wipeCores_begun {mask : Word} {u : State}
    (h : ∀ l ∈ bitList 64 mask.toNat, ∃ c, physicalOf u l = some c ∧ jobOf u c = none) :
    wipeCores mask u = .waits .wipe (wipeBegin (.onDie mask) u) := by
  have hactive : (bitList 64 mask.toNat).any (fun l => decide (physicalOf u l = none)) = false := by
    refine List.any_eq_false.2 fun l hl => ?_
    obtain ⟨c, hc, -⟩ := h l hl
    simp [hc]
  have hidle : ((bitList 64 mask.toNat).filterMap (physicalOf u)).any (fun c => (jobOf u c).isSome) = false := by
    refine List.any_eq_false.2 fun c hc => ?_
    obtain ⟨l, hl, hlc⟩ := List.mem_filterMap.1 hc
    obtain ⟨d, hd, hfree⟩ := h l hl
    obtain rfl : d = c := Option.some.inj (hd.symm.trans hlc)
    simp [hfree]
  unfold wipeCores
  dsimp only
  rw [hactive, hidle]
  rfl

/-- Where the oldest waiting packet waits for `a`, it is the one that is answered. -/
theorem answerFirst_head {a : Awaits} {st : Status} {s : State} {w : OpenCmd} {rest : List OpenCmd} (hw : s.rings.waiting = w :: rest)
    (ha : w.awaits = a) :
    answerFirst a st s = putReply w.opcode.toNat w.tag w.irq st 0 (modRings s (fun r => { r with waiting := rest })) := by
  have hfind : s.rings.waiting.find? (fun c => decide (c.awaits = a)) = some w := by
    rw [hw]
    exact List.find?_cons_of_pos (decide_eq_true ha)
  unfold answerFirst
  rw [hfind]
  dsimp only [modRings]
  rw [hw, List.erase_cons_head]

/-- The end of a wipe of DRAM granules (R244). -/
theorem wipeDone_dram {m n : Nat} {r : List Wipe} {s : State} (hw : s.power.wipes = .dram m n :: r) :
    wipeDone s = answerFirst .wipe .ok
      { modPower (wipeEffect (.dram m n) s) (fun p => { p with wipes := r }) with wiping := r.any wipesDram } := by
  unfold wipeDone
  rw [hw]
  rfl

/-! ### SET_CLOCK -/

theorem clkEnd_packet {q : ClockReq} {st : Status} {s : State} (hq : s.power.clk = some q) (hb : q.by_ = .packet)
    (hv : neededMv s (entryOf s) = s.power.avsReq.toNat) :
    clkEnd st s = answer .clock st 0 (modPower (unrequested s) (fun w => { w with clkStatus := BitVec.ofNat 16 (statusCode st) })) := by
  unfold clkEnd
  rw [hq]
  simp only [hb]
  exact congrArg (fun u => answer .clock st 0 (modPower u _)) (avsUpdate_unrequested hv)

/-- A packet's request with nothing to switch, as its packet is answered. -/
def clkAnswered (s : State) : State := answer .clock .ok 0 (modPower (unrequested s) (fun w => { w with clkStatus := 0 }))

theorem answer_head (a : Awaits) (st : Status) (res : BitVec 192) (s : State) : (answer a st res s).rings.head = s.rings.head := by
  unfold answer
  exact (foldl_keeps (fun u : State => u.rings.head) (fun u (c : OpenCmd) => putReply c.opcode.toNat c.tag c.irq st res u)
    (fun _ _ => rfl) _ _).trans rfl

theorem clkAnswered_frame (s : State) : (clkAnswered s).power = { (unrequested s).power with clkStatus := 0 } ∧
    (clkAnswered s).regions = s.regions ∧ (clkAnswered s).rings.head = s.rings.head :=
  ⟨answer_keeps State.power (fun _ _ => rfl) .clock .ok 0 _, answer_keeps State.regions (fun _ _ => rfl) .clock .ok 0 _,
    answer_head .clock .ok 0 _⟩

/-- A request of a packet with nothing to switch ends at once. -/
theorem clkSettle_packet_idle {idx : BitVec 4} {s : State} (hq : s.power.clk = some (idleReq .packet idx))
    (hrec : s.power.recover = false) (hv : neededMv s (entryOf s) = s.power.avsReq.toNat) : clkSettle s = clkAnswered s := by
  rw [clkSettle_idle hq, clkIfDone_idle hq, clkEnd_packet hq rfl hv]
  refine if_neg ?_
  have hpower : (clkAnswered s).power.recover = false := (congrArg Power.recover (clkAnswered_frame s).1).trans hrec
  show ¬((clkAnswered s).power.recover && (clkAnswered s).power.clk.isNone) = true
  rw [hpower]
  exact Bool.false_ne_true

/-- SET_CLOCK with every region of its mask at the entry: the request ends with its packet (R346). -/
theorem exec_setClock_idle {h : PktHdr} {mask : BitVec 17} {idx : Byte} {s : State} (ht : takes h s) (hi : idx.toNat ≤ 7)
    (hc : s.power.clk = none) (hrec : s.power.recover = false) (hl : s.power.lost = false) (htrip : s.power.trip = false)
    (he : ∀ r, mask.getLsbD r.val = true → (regionAt s r).freqIdx.toNat = idx.toNat)
    (hv : neededMv s (entryOf s) = s.power.avsReq.toNat) :
    exec (.setClock h mask idx) s = .next (clkAnswered (modRings (modPower (takeHead s)
      (fun w => { w with clk := some (idleReq .packet (BitVec.ofNat 4 idx.toNat)) }))
      (fun r => { r with waiting := r.waiting ++ [openCmd 0x22 h .clock] }))) := by
  obtain ⟨hcan, hrsv⟩ := ht
  have href : clkRefusal s idx.toNat = none := (clkRefusal_of_calm hi hl htrip).trans (if_neg (by rw [hc]; decide))
  have hentry : ∀ r, inMask mask r = true → BitVec.ofNat 4 idx.toNat = (regionAt (takeHead s) r).freqIdx := fun r hm =>
    BitVec.eq_of_toNat_eq ((BitVec.toNat_ofNat ..).trans ((Nat.mod_eq_of_lt (by omega)).trans (he r hm).symm))
  have hneed : neededMv (takeHead s) (entryOf (takeHead s)) = (takeHead s).power.avsReq.toNat :=
    (neededMv_congr (s := s) rfl rfl rfl (entryOf s)).trans hv
  have hbegun : setClock mask idx (takeHead s) = .waits .clock
      (modPower (takeHead s) (fun w => { w with clk := some (idleReq .packet (BitVec.ofNat 4 idx.toNat)) })) := by
    unfold setClock
    rw [show clkRefusal (takeHead s) idx.toNat = none from href]
    exact congrArg (PktResult.waits .clock) (clkBegin_of_idle hentry hneed)
  have hsettles : exec (.setClock h mask idx) s = .next (clkSettle (onPacket 0x22 h 0 (setClock mask idx) s)) :=
    congrArg Host.Outcome.next (if_pos (by rw [hcan, hrsv, href]; rfl))
  rw [hsettles, onPacket_awaits ⟨hcan, hrsv⟩ hbegun]
  exact congrArg Host.Outcome.next (clkSettle_packet_idle rfl hrec ((neededMv_congr (s := s) rfl rfl rfl (entryOf s)).trans hv))

/-! ### SET_WHEEL -/

/-- Every stack of a list awaits a wheel, and nothing else changes. -/
theorem foldl_wheelAccept (w : Vector Byte 128) (ks : List StackId) (s : State) :
    { ks.foldl (fun u k => wheelAccept k w u) s with mems := s.mems } = s ∧
      ∀ k, memAt (ks.foldl (fun u k => wheelAccept k w u) s) k =
        if k ∈ ks then { memAt s k with wheelN := w, wheelNext := some w, wheelErr := false } else memAt s k := by
  induction ks generalizing s with
  | nil => exact ⟨rfl, fun k => rfl⟩
  | cons n ks ih =>
    obtain ⟨hframe, hmem⟩ := ih (wheelAccept n w s)
    refine ⟨congrArg (fun u : State => { u with mems := s.mems }) hframe, fun k => ?_⟩
    refine (hmem k).trans ?_
    unfold wheelAccept
    by_cases hk : k = n
    · subst hk
      simp
    · simp [memAt_modMem_ne _ _ _ _ hk, hk]

/-- SET_WHEEL with a wheel that passes every check (R231). -/
theorem setWheel_accepted {mask : Byte} {addr : Nat} {s : State} (hd : isDram s addr 128 = true)
    (hs : wheelShape s (Vector.ofFn (fun e => dramByte s (addr + e.val))) = true)
    (hc : ∀ k, mask.getLsbD k.val = true → wheelChanges s k (Vector.ofFn (fun e => dramByte s (addr + e.val))) = false)
    (hb : wheelSnapBad s (Vector.ofFn (fun e => dramByte s (addr + e.val))) = false) :
    setWheel mask addr s = .done .ok 0 (((List.finRange 8).filter (fun k => mask.getLsbD k.val)).foldl
      (fun u k => wheelAccept k (Vector.ofFn (fun e => dramByte s (addr + e.val))) u) s) := by
  have hquiet : ((List.finRange 8).filter (fun k => mask.getLsbD k.val)).any
      (fun k => wheelChanges s k (Vector.ofFn (fun e => dramByte s (addr + e.val)))) = false :=
    List.any_eq_false.2 fun k hk => by rw [hc k (List.mem_filter.1 hk).2]; exact Bool.false_ne_true
  unfold setWheel
  dsimp only
  rw [if_neg (by rw [hd]; decide), if_neg (by rw [hs, hquiet]; decide), if_neg (by rw [hb]; decide)]

/-! ### QUERY -/

/-- What a read's clearing leaves as it is: the replies that wait, the ring's head, the jobs and DRAM. -/
def queryView (s : State) : List Reply × BitVec 16 × List (Nat × Job) × ByteMem := (s.rings.store, s.rings.head, s.jobs, s.dram)

theorem queryView_regClear (s : State) (off : Nat) : queryView (regClear s off) = queryView s := by
  unfold regClear
  split
  case h_6 =>
    split
    · rfl
    · split <;> rfl
  case h_7 => split <;> rfl
  all_goals rfl

theorem queryRegister_read {off : Nat} (s : State) (h8 : off % 8 = 0) (hlt : off < 0x4000000) :
    queryRegister off s = .done .ok (resultOf [(8, regRead s off)]) (regClear s off) :=
  if_neg fun h => h.elim (fun h => h h8) fun h => Nat.not_lt.2 h hlt

theorem queryJob_read (j : JobId) (s : State) : queryJob j s = .done .ok (resultOf [(8, (jobWord (jobAt s j) 0).toNat),
    (16, (jobWord (jobAt s j) 4).toNat), (24, (jobWord (jobAt s j) 5).toNat)]) s := rfl

/-- Settles O42: each packet through what its taking leaves; the wipe's end through the bytes that it removes. -/
theorem wipeClockWheelAndQueryPackets : Obligations.WipeClockWheelAndQueryPackets := by
  unfold Obligations.WipeClockWheelAndQueryPackets
  intro h first count cores mask idx ks addr off j s u
  have next {t y : State} (e : t = y) : (.next t : Host.Outcome State Fault Refusal) = .next y := congrArg _ e
  refine ⟨fun ht hn hj => ?_, fun ht hc => ?_, fun m n r w rest hw hwait ha => ?_, fun ht hi hc hrec hl htrip he _ hv => ?_,
    fun ht hd hs hq hb => ?_, fun ht h8 hlt => ?_, fun ht => next (onPacket_replies ht (queryJob_read j (takeHead s)))⟩
  · obtain ⟨v, hv, hview⟩ := wipeDram_begun hn hj
    simp only [wipeView, Prod.mk.injEq] at hview
    obtain ⟨hwiping, hwipes, hdram, hrings⟩ := hview
    exact ⟨_, next (onPacket_awaits ht hv), hwiping.trans (Bool.or_true _), hwipes, hdram, rings_awaits hrings 0x21 h .wipe⟩
  · refine next ((onPacket_awaits ht (wipeCores_begun (u := takeHead s) hc)).trans ?_)
    unfold wipeBegin
    simp only [wipesDram, Bool.or_false]
    rfl
  · refine ⟨_, next ((wipeDone_dram hw).trans (answerFirst_head hwait ha)), rfl, rfl, rfl, ⟨_, rfl, rfl, rfl⟩,
      fun k hlo hhi => ?_, fun k hout => ?_, rfl⟩
    · exact (memGet_dramWipe (fun a => decide (m * gib ≤ a ∧ a < (m + n) * gib)) s k).trans (if_pos (decide_eq_true (And.intro hlo hhi)))
    · refine (memGet_dramWipe (fun a => decide (m * gib ≤ a ∧ a < (m + n) * gib)) s k).trans (if_neg fun hin => ?_)
      have := of_decide_eq_true hin
      omega
  · refine ⟨_, exec_setClock_idle ht hi hc hrec hl htrip he hv, ?_⟩
    obtain ⟨hpower, hregions, hhead⟩ := clkAnswered_frame (modRings (modPower (takeHead s)
      (fun w => { w with clk := some (idleReq .packet (BitVec.ofNat 4 idx.toNat)) }))
      (fun r => { r with waiting := r.waiting ++ [openCmd 0x22 h .clock] }))
    refine ⟨congrArg Power.clk hpower, congrArg Power.clkStatus hpower, hregions, hhead, replyTo .ok 0 (openCmd 0x22 h .clock), ?_,
      rfl, rfl, rfl⟩
    rw [clkAnswered, answer_store]
    refine List.mem_append_right _ (List.mem_map_of_mem (List.mem_filter.2 ⟨?_, rfl⟩))
    exact List.mem_append_right _ (List.mem_singleton_self _)
  · obtain ⟨hframe, hmem⟩ := foldl_wheelAccept (Vector.ofFn (fun e => dramByte u (addr.toNat + e.val)))
      ((List.finRange 8).filter (fun k => ks.getLsbD k.val)) u
    have hacc := setWheel_accepted hd hs hq hb
    refine ⟨_, next (onPacket_replies ht hacc), rings_replied ((congrArg State.rings hframe)) 0x23 h .ok 0, fun k hk => ?_,
      fun k hk => ?_, congrArg (fun v : State => { v with rings := s.rings }) hframe⟩
    · exact (hmem k).trans (if_pos (List.mem_filter.2 ⟨List.mem_finRange k, hk⟩))
    · refine (hmem k).trans (if_neg fun hin => ?_)
      exact Bool.false_ne_true (hk.symm.trans (List.mem_filter.1 hin).2)
  · have hview := queryView_regClear (takeHead s) off.toNat
    simp only [queryView, Prod.mk.injEq] at hview
    obtain ⟨hstore, hhead, hjobs, hdram⟩ := hview
    exact ⟨_, next (onPacket_replies ht (queryRegister_read _ h8 hlt)), congrArg (· ++ [_]) hstore, hhead, hjobs, hdram⟩

end Sys2Proof.Machine

/-! SUPPORT. Fences of the jobs that a predicate picks, and what repairs leave (R240 to R242, R323 to R331). -/

namespace Sys2Proof.Machine

/-! ### The jobs that a fence picks -/

theorem fenceWhere_unfenced (z : State) (p : Job → Bool) (i : FaultInfo) (s : State) : unfenced z (fenceWhere p i s) = unfenced z s :=
  foldl_keeps (unfenced z) _ (fun u j => fenceJob_unfenced z j i u) _ s

/-- A fence leaves a job with its record that could be fenced or has that record. -/
theorem fencedWith_fenceJob {i : FaultInfo} {u : State} {j : JobId} (h : canFence (jobAt u j) = true ∨ fencedWith i.status (jobAt u j)) :
    fencedWith i.status (jobAt (fenceJob j i u) j) := by
  rcases fenceJob_cases j i u with ⟨hno, he⟩ | ⟨-, hentry, -⟩
  · rw [he]
    exact h.resolve_left (by rw [hno]; decide)
  · rw [hentry]
    exact ⟨rfl, rfl⟩

theorem jobAt_fenceJob_ne {j n : JobId} (h : n ≠ j) (i : FaultInfo) (u : State) : jobAt (fenceJob j i u) n = jobAt u n := by
  rcases fenceJob_cases j i u with ⟨-, he⟩ | ⟨-, -, hne, -⟩
  · rw [he]
  · exact hne n h

/-- A running or stopped job that the predicate picks is fenced. -/
theorem fenceWhere_fences {p : Job → Bool} {i : FaultInfo} {s : State} {j : JobId} (hp : p (jobAt s j) = true)
    (hc : canFence (jobAt s j) = true) : fencedWith i.status (jobAt (fenceWhere p i s) j) := by
  refine foldl_reaches (inv := fun u => canFence (jobAt u j) = true ∨ fencedWith i.status (jobAt u j))
    (done := fun u => fencedWith i.status (jobAt u j)) (mem_jobsWhere hp (ne_freeJob_of_canFence hc)) (.inl hc) (fun u n _ hu => ?_)
    (fun u hu => fencedWith_fenceJob hu) (fun u n _ hu => ?_)
  · by_cases hn : j = n
    · subst hn
      exact .inr (fencedWith_fenceJob hu)
    · rw [jobAt_fenceJob_ne hn]
      exact hu
  · by_cases hn : j = n
    · subst hn
      exact fencedWith_fenceJob (.inr hu)
    · rw [jobAt_fenceJob_ne hn]
      exact hu

/-- In a canonical job table a job that the predicate does not pick keeps its entry. -/
theorem jobAt_fenceWhere_of_not {p : Job → Bool} {s : State} {j : JobId} (h : cellWf freeJob s.jobs = true) (hp : p (jobAt s j) = false)
    (i : FaultInfo) : jobAt (fenceWhere p i s) j = jobAt s j := by
  refine List.foldlRecOn (motive := fun u => jobAt u j = jobAt s j) _ _ rfl fun u hu n hn => ?_
  have hne : j ≠ n := fun e => Bool.false_ne_true (hp.symm.trans (of_mem_jobsWhere h (e ▸ hn)))
  exact (jobAt_fenceJob_ne hne i u).trans hu

/-! ### Alerts and declarations of repairs -/

/-- A state with all that the declaration, the commit and the alert of a repair change taken from `z`. -/
def offRepair (z s : State) : State := { s with spare := z.spare, rings := z.rings, wtn := z.wtn, power := z.power }

@[simp] theorem offRepair_repairAlert (z : State) (st : Status) (kind unit spare : Nat) (s : State) :
    offRepair z (repairAlert st kind unit spare s) = offRepair z s :=
  raiseAlert_keeps (offRepair z) (fun _ _ => rfl) (fun _ _ => rfl) ..

@[simp] theorem offRepair_wakeRegion (z : State) (n : Fin 28) (s : State) : offRepair z (wakeRegion n s) = offRepair z s :=
  wakeRegion_keeps (offRepair z) (fun _ _ => rfl) n s

@[simp] theorem offRepair_declareRepair (z : State) (g : Repair) (s : State) : offRepair z (declareRepair g s) = offRepair z s := rfl

@[simp] theorem offRepair_dropRepair (z : State) (g : Repair) (s : State) : offRepair z (dropRepair g s) = offRepair z s := rfl

/-- What a repair's declaration, commit and alert leave alone, read off by its fields. -/
structure RepairFrame (s t : State) : Prop where
  cores : t.cores = s.cores
  jobs : t.jobs = s.jobs
  dram : t.dram = s.dram
  mems : t.mems = s.mems
  memcFailed : t.memcFailed = s.memcFailed
  capCores : t.capCores = s.capCores
  activeCores : t.activeCores = s.activeCores
  spareCores : t.spareCores = s.spareCores

theorem repairFrame_of_offRepair {z s t : State} (h : offRepair z t = offRepair z s) : RepairFrame s t where
  cores := (congrArg State.cores h :)
  jobs := (congrArg State.jobs h :)
  dram := (congrArg State.dram h :)
  mems := (congrArg State.mems h :)
  memcFailed := (congrArg State.memcFailed h :)
  capCores := (congrArg State.capCores h :)
  activeCores := (congrArg State.activeCores h :)
  spareCores := (congrArg State.spareCores h :)

theorem RepairFrame.coreAt {s t : State} (h : RepairFrame s t) (c : CoreId) : coreAt t c = coreAt s c :=
  congrArg (fun v : Vector Core 68 => v.get c) h.cores

theorem RepairFrame.jobAt {s t : State} (h : RepairFrame s t) (j : JobId) : jobAt t j = jobAt s j :=
  congrArg (fun m => cellGet freeJob m j.val) h.jobs

theorem RepairFrame.memAt {s t : State} (h : RepairFrame s t) (k : Fin 8) : memAt t k = memAt s k :=
  congrArg (fun v : Vector MemRegion 8 => v.get k) h.mems

theorem repairAlert_spare (st : Status) (kind unit spare : Nat) (s : State) : (repairAlert st kind unit spare s).spare =
    { s.spare with lastKind := BitVec.ofNat 8 kind, lastUnit := BitVec.ofNat 8 unit } := raiseAlert_spare ..

theorem wakeRegion_spare (n : Fin 28) (s : State) : (wakeRegion n s).spare = s.spare := wakeRegion_keeps State.spare (fun _ _ => rfl) n s

theorem declareRepair_repairs (g : Repair) (s : State) : (declareRepair g s).spare.repairs = s.spare.repairs ++ [g] := rfl

/-- The only repair group commits or is dropped. -/
theorem dropRepair_spare_of_only {g : Repair} {s : State} (h : s.spare.repairs = [g]) :
    (dropRepair g s).spare = { s.spare with repairs := [], draining := false } := by
  unfold dropRepair setDraining
  dsimp only [modSpare]
  rw [h, List.erase_cons_head]
  rfl

theorem settleRepairs_of_none {s : State} (h : s.spare.repairs = []) : settleRepairs s = s := by
  unfold settleRepairs
  rw [h]
  rfl

/-- The commit of the only repair group, with `u` as the state that its effect leaves: the group is gone, its alert names it, and
nothing waits for it. -/
theorem commit_of_only {g : Repair} {u : State} (h : u.spare.repairs = [g]) (st : Status) (kind unit spare : Nat) :
    (settleRepairs (repairAlert st kind unit spare (dropRepair g u))).spare =
      { u.spare with repairs := [], draining := false, lastKind := BitVec.ofNat 8 kind, lastUnit := BitVec.ofNat 8 unit } ∧
    RepairFrame u (settleRepairs (repairAlert st kind unit spare (dropRepair g u))) := by
  have hspare : (repairAlert st kind unit spare (dropRepair g u)).spare =
      { u.spare with repairs := [], draining := false, lastKind := BitVec.ofNat 8 kind, lastUnit := BitVec.ofNat 8 unit } := by
    rw [repairAlert_spare, dropRepair_spare_of_only h]
  rw [settleRepairs_of_none (congrArg Spare.repairs hspare)]
  exact ⟨hspare, repairFrame_of_offRepair (z := u) (by simp)⟩

/-! ### Self-tests -/

/-- A write of SPR_REQ with GO puts an idle core under test that neither is under test nor fills for another (R324). -/
theorem sprReqWrite_starts {b : BarAcc} {v : Word} {c : CoreId} {s : State} (hc : fieldOf (strobes b v) 0 8 = c.val)
    (hgo : bitOf (strobes b v) 8 = true) (hj : jobOf s c = none) (ht : s.spare.testing.contains c = false)
    (hf : ∀ f ∈ s.spare.fills, f.2 ≠ c) : sprReqWrite b v s = startTest c s := by
  have hfills : s.spare.fills.any (fun f => decide (f.2 = c)) = false :=
    List.any_eq_false.2 fun f hfm => by simpa using hf f hfm
  have hcore : (⟨fieldOf (strobes b v) 0 8, hc ▸ c.isLt⟩ : CoreId) = c := Fin.ext hc
  unfold sprReqWrite
  dsimp only
  rw [dif_pos (hc ▸ c.isLt), hcore, hgo, hj, ht, hfills]
  rfl

theorem startTest_frame {c : CoreId} {s : State} (ht : s.spare.testing.contains c = false) :
    (startTest c s).spare = { s.spare with testing := s.spare.testing ++ [c] } ∧ RepairFrame s (startTest c s) := by
  unfold startTest
  refine ⟨?_, repairFrame_of_offRepair (z := s) (offRepair_wakeRegion ..)⟩
  rw [wakeRegion_spare]
  dsimp only [modSpare]
  rw [ht]
  rfl

/-- A wake request is queued for a region that sleeps (R342). -/
theorem powAt_wakeRegion_of_asleep {n : Fin 28} {s : State} (h : powAt s n = .asleep) : powAt (wakeRegion n s) n = .queued := by
  have hqueued := powAt_wakeQueue_of_asleep h
  unfold wakeRegion
  dsimp only
  rw [if_pos hqueued]
  exact hqueued

/-- A test that finds nothing. -/
def cleanTest : SelfTest := { rows := Vector.replicate 4 [], cols := Vector.replicate 4 [], other := false }

theorem allLines_resetLines : allLines resetLines [] = [] := by decide

section
variable {c : CoreId} {s : State} (hr : s.spare.repairs = [])
  (hm : ∀ n : Fin 4, (arrOf (coreAt s c) n).rowMap = resetLines ∧ (arrOf (coreAt s c) n).colMap = resetLines)
include hr hm

theorem pendingMaps_of_clean (n : Fin 4) : pendingMaps s c n = (resetLines, resetLines) := by
  unfold pendingMaps
  rw [hr]
  exact Prod.ext (hm n).1 (hm n).2

/-- A clean result is no failure of a core without failed lines. -/
theorem testFailed_of_clean : testFailed s c cleanTest = false := by
  unfold testFailed
  simp only [pendingMaps_of_clean hr hm]
  decide

/-- A clean result asks for no repair of an array without failed lines. -/
theorem repairArray_of_clean (n : Fin 4) : repairArray c cleanTest s n = s := by
  have hfound : cleanTest.rows.get n = [] ∧ cleanTest.cols.get n = [] := ⟨get_replicate .., get_replicate ..⟩
  unfold repairArray
  rw [pendingMaps_of_clean hr hm, hfound.1, hfound.2]
  exact if_pos (by decide)

theorem repairArrays_of_clean : (List.finRange 4).foldl (repairArray c cleanTest) s = s :=
  List.foldlRecOn (motive := fun u => u = s) _ _ rfl fun u hu n _ => by subst hu; exact repairArray_of_clean hr hm n

end

/-- A clean result of a core under test ends the test (R324). -/
theorem selfTestDone_clean {c : CoreId} {s : State} (hrun : regionRuns s (regionOf c) = true) (href : s.power.refStop = false)
    (hj : jobOf s c = none) (hf : ∀ f ∈ s.spare.fills, f.2 ≠ c) (ht : s.spare.testing.contains c = true) (hr : s.spare.repairs = [])
    (hm : ∀ n : Fin 4, (arrOf (coreAt s c) n).rowMap = resetLines ∧ (arrOf (coreAt s c) n).colMap = resetLines) :
    selfTestDone c cleanTest s = modSpare s (fun z => { z with testing := z.testing.filter (fun y => decide (y ≠ c)) }) := by
  have hfill : s.spare.fills.find? (fun f => decide (f.2 = c)) = none :=
    List.find?_eq_none.2 fun f hfm => by simpa using hf f hfm
  let u := modSpare s (fun z => { z with testing := z.testing.filter (fun y => decide (y ≠ c)) })
  have hfail : testFailed u c cleanTest = false := testFailed_of_clean (s := u) hr hm
  have hnone : (List.finRange 4).foldl (repairArray c cleanTest) u = u := repairArrays_of_clean (s := u) hr hm
  unfold selfTestDone
  rw [hfill, hrun, hj, href, ht]
  dsimp only [u] at hfail hnone
  dsimp only
  rw [hfail, hnone]
  exact settleRepairs_of_none (s := u) hr

/-! ### Cores out of the map -/

theorem deviceQuiet_of_none {s : State} (h : jobsWhere s jobActive = []) : deviceQuiet s = true := by
  unfold deviceQuiet
  rw [h]
  rfl

theorem not_mem_sparesLeft (s : State) (c : CoreId) : c ∉ sparesLeft s c := fun h => by
  have hkept := (List.mem_filter.1 h).2
  simp at hkept

theorem mapReplace_get (m : Vector Byte 68) (old new : Nat) (i : Fin 68) :
    (mapReplace m old new).get i = if (m.get i).toNat = old then BitVec.ofNat 8 new else m.get i := get_vmap ..

/-! ### Commits -/

/-- Array `n` of core `c` with its lines remapped. -/
def remapped (c : CoreId) (n : Fin 4) (r q : LineMap) (s : State) : State :=
  modCore s c (fun x => modArr x n (fun a => { a with rowMap := r, colMap := q }))

theorem repairCommit_array {c : CoreId} {n : Fin 4} {r q : LineMap} {s : State} (hr : s.spare.repairs = [.array c n r q])
    (hj : jobOf s c = none) :
    repairCommit s = settleRepairs (repairAlert .ok 1 c.val 0 (dropRepair (.array c n r q) (remapped c n r q s))) := by
  unfold repairCommit
  rw [hr]
  exact if_pos (by rw [hj]; rfl)

theorem arrOf_remapped (c : CoreId) (n : Fin 4) (r q : LineMap) (s : State) :
    arrOf (coreAt (remapped c n r q s) c) n = { arrOf (coreAt s c) n with rowMap := r, colMap := q } := by
  rw [remapped, coreAt_modCore]
  exact get_set_self ..

/-- The map with a spare in the place of a core. -/
def replacedIn (f sp : CoreId) (s : State) : State :=
  { s with capCores := mapReplace s.capCores f.val sp.val, spareCores := sparesLeft s sp }

theorem replacedIn_frame (f sp : CoreId) (s : State) : (replacedIn f sp s).activeCores = s.activeCores ∧
    (replacedIn f sp s).cores = s.cores ∧ (replacedIn f sp s).jobs = s.jobs := by
  unfold replacedIn
  exact ⟨rfl, rfl, rfl⟩

theorem repairCommit_replace {f sp : CoreId} {s : State} (hr : s.spare.repairs = [.replace f sp]) (hf : filling s f = false)
    (hq : jobsWhere s jobActive = []) :
    repairCommit s = settleRepairs (repairAlert .ok 2 f.val sp.val (dropRepair (.replace f sp) (replacedIn f sp s))) := by
  unfold repairCommit
  rw [hr]
  exact if_pos (by rw [hf, deviceQuiet_of_none hq]; rfl)

/-- The map without an active core. -/
def shedFrom (f : CoreId) (s : State) : State := { mapShed s f with spareCores := sparesLeft s f }

theorem shedFrom_frame (f : CoreId) (s : State) : (shedFrom f s).activeCores = s.activeCores - 1 ∧
    (shedFrom f s).cores = s.cores ∧ (shedFrom f s).jobs = s.jobs := by
  unfold shedFrom mapShed
  exact ⟨rfl, rfl, rfl⟩

theorem repairCommit_shed {f : CoreId} {s : State} (hr : s.spare.repairs = [.shed f]) (hb : isBypass s f = false)
    (hq : jobsWhere s jobActive = []) :
    repairCommit s = settleRepairs (repairAlert .capacityReduced 3 f.val 0 (dropRepair (.shed f) (shedFrom f s))) := by
  unfold repairCommit
  rw [hr]
  refine (if_pos (deviceQuiet_of_none hq)).trans ?_
  rw [if_neg (by rw [hb]; decide)]
  rfl

/-- A stack whose spare die is spent. -/
def spent (k : Fin 8) (s : State) : State := modMem s k (fun m => { m with dieState := 3 })

theorem rebuildCommit_of_only {k : Fin 8} {s : State} (hd : (memAt s k).dieState = 2)
    (hn : (memAt s k).rebuilt.toNat = piecesPerChannel) (hr : s.spare.repairs = [.rebuild k]) :
    rebuildCommit k s = settleRepairs (repairAlert .ok 4 k.val (memAt s k).badDie.toNat (dropRepair (.rebuild k) (spent k s))) := by
  refine if_pos ?_
  rw [hr, decide_eq_true hd, decide_eq_true hn]
  exact decide_eq_true rfl

/-! ### Dies and rows -/

/-- A stack with a die declared failed. -/
def dieDeclared (k : Fin 8) (die : Fin 17) (s : State) : State :=
  modMem s k (fun m => { m with dieState := 1, badDie := BitVec.ofNat 5 die.val, rebuilt := 0 })

theorem dieDeclared_frame (k : Fin 8) (die : Fin 17) (s : State) :
    RepairFrame (dieDeclared k die s) (wakeRegion (powMem k) (declareRepair (.rebuild k) (dieDeclared k die s))) :=
  repairFrame_of_offRepair (z := s) (offRepair_wakeRegion ..)

/-- The first die of a stack to be lost is rebuilt into the spare die (R240). -/
theorem dieFails_first {k : Fin 8} {die : Fin 17} {s : State} (hd : (memAt s k).dieState = 0) (hf : s.memcFailed.getLsbD k.val = false)
    (h16 : die.val ≠ 16) : dieFails k die s = wakeRegion (powMem k) (declareRepair (.rebuild k) (dieDeclared k die s)) := by
  unfold dieFails
  dsimp only
  rw [if_neg (by rw [hf]; decide), if_pos hd, if_neg h16]
  rfl

/-- A second die lost fails the stack; the spare die of a stack that reconstructs none may be spent without it (R240, R330). -/
theorem dieFails_second {k : Fin 8} {die : Fin 17} {s : State} (hd : (memAt s k).dieState ≠ 0) (hf : s.memcFailed.getLsbD k.val = false)
    (hb : (memAt s k).badDie.toNat ≠ die.val) (hs : ¬((memAt s k).dieState = 3 ∧ (memAt s k).badDie = 0x1F ∧ die.val = 16)) :
    dieFails k die s = stackFails k s := by
  unfold dieFails
  dsimp only
  rw [if_neg (by rw [hf]; decide), if_neg hd, if_neg hb, if_neg hs]

/-- The fence of the jobs with a byte in a stack that has failed. -/
def stackFence (k : Fin 8) (s : State) : State :=
  fenceWhere (fun b => canFence b && jobTouches s b k) (unitFault .capacityReduced (0x20 + k.val) 0 0) s

/-- A stack's region once the stack has failed. -/
def failedStack (m : MemRegion) : MemRegion := { m with queue := [], dieState := if m.dieState = 2 then 1 else m.dieState }

/-- The failure of a stack: its jobs are fenced, its region fails, and its repairs go (R242, R330). -/
theorem stackFails_offRepair (z : State) (k : Fin 8) (s : State) : offRepair z (stackFails k s) = offRepair z
    { modMem (stackFence k s) k failedStack with memcFailed := (stackFence k s).memcFailed ||| BitVec.ofNat 8 (2 ^ k.val) } := by
  unfold stackFails
  exact offRepair_repairAlert ..

theorem stackFails_frame (k : Fin 8) (s : State) : RepairFrame
    { modMem (stackFence k s) k failedStack with memcFailed := (stackFence k s).memcFailed ||| BitVec.ofNat 8 (2 ^ k.val) }
    (stackFails k s) := repairFrame_of_offRepair (stackFails_offRepair s k s)

theorem stackFence_memcFailed (k : Fin 8) (s : State) : (stackFence k s).memcFailed = s.memcFailed := by
  have h := congrArg State.memcFailed (fenceWhere_unfenced s (fun b => canFence b && jobTouches s b k)
    (unitFault .capacityReduced (0x20 + k.val) 0 0) s)
  exact h

theorem stackFence_fences {k : Fin 8} {s : State} {j : JobId} (hc : canFence (jobAt s j) = true) (ht : jobTouches s (jobAt s j) k = true) :
    fencedWith .capacityReduced (jobAt (stackFence k s) j) := fenceWhere_fences (Bool.and_eq_true_iff.2 ⟨hc, ht⟩) hc

/-- A row remapped to a spare row of its bank, its repair the only one. -/
def rowSpared (k : Fin 8) (x : RowId) (s : State) : State :=
  modMem (modSpare s (fun z => { z with repairs := [.row k x true] })) k (fun m => { m with
    sparesUsed := cellSet 0 m.sparesUsed (rowKey x.ch x.die x.bank) (cellGet 0 m.sparesUsed (rowKey x.ch x.die x.bank) + 1) })

theorem rowSpared_frame (k : Fin 8) (x : RowId) (s : State) :
    RepairFrame (rowSpared k x s) (repairAlert .ok 6 k.val x.die.val (dropRepair (.row k x true) (rowSpared k x s))) :=
  repairFrame_of_offRepair (z := s) (offRepair_repairAlert ..)

theorem sparesUsed_rowSpared (k : Fin 8) (x : RowId) (s : State) :
    cellGet 0 (memAt (rowSpared k x s) k).sparesUsed (rowKey x.ch x.die x.bank) =
      cellGet 0 (memAt s k).sparesUsed (rowKey x.ch x.die x.bank) + 1 := by
  rw [rowSpared, memAt_modMem]
  exact cellGet_cellSet_same _ _ _ _ (Nat.succ_ne_zero _)

/-- The only repair group is a row's, whose copy has been made: the row is remapped (R241, R328). -/
theorem rowRepair_of_only {k : Fin 8} {x : RowId} {s : State} (ho : ownsSlots s idleOwner k = true)
    (hd : (memAt s k).dieState = 0 ∨ (memAt s k).dieState = 3) (hr : s.spare.repairs = [.row k x false]) :
    rowRepair k x s = repairAlert .ok 6 k.val x.die.val (dropRepair (.row k x true) (rowSpared k x s)) := by
  have hlisted : s.spare.repairs.contains (.row k x false) = true := by rw [hr]; simp
  have hmap : s.spare.repairs.map (fun g => if g = .row k x false then .row k x true else g) = [.row k x true] := by rw [hr]; simp
  unfold rowRepair rowSpared
  rw [if_pos (by rw [ho, decide_eq_true hd, hlisted]; rfl)]
  dsimp only [modSpare]
  rw [hmap]
  rfl

/-- Settles O47: each event through the one group that it declares or commits, and what that leaves. -/
theorem repairEvents : Obligations.RepairEvents := by
  unfold Obligations.RepairEvents
  intro b v c x k die ch bank row s m
  have next {t y : State} (e : t = y) : (.next t : Host.Outcome State Fault Refusal) = .next y := congrArg _ e
  refine ⟨fun hs hc hgo hj ht hf => ?test, fun hrun hst hj hf ht hr hx hm => ?clean, fun n r q hr hj => ?array,
    fun f sp hr hfill hq => ?replace, fun f hr hb hq => ?shed, fun hd hf h16 => ?firstDie, fun hd hf hb hsp => ?secondDie,
    fun ho hf hd hlt => ?piece, fun hd hn hr => ?rebuilt, fun hd => ?waits, fun ho hd hr => ?row⟩
  case test =>
    obtain ⟨hspare, hframe⟩ := startTest_frame (s := written s) ht
    have hstart := sprReqWrite_starts (s := written s) hc hgo hj ht hf
    exact ⟨_, next ((barWrite_of_served hs _).trans hstart), hspare, fun hp => powAt_wakeRegion_of_asleep hp, hframe.cores, hframe.jobs,
      hframe.dram⟩
  case clean =>
    subst hx
    exact next (selfTestDone_clean hrun hst hj hf ht hr hm)
  case array =>
    obtain ⟨hspare, hframe⟩ := commit_of_only (u := remapped c n r q s) hr .ok 1 c.val 0
    refine ⟨_, next (repairCommit_array hr hj), ?_, congrArg Spare.repairs hspare, congrArg Spare.lastKind hspare,
      congrArg Spare.lastUnit hspare, fun d hd => ?_, hframe.jobs⟩
    · rw [hframe.coreAt]
      exact arrOf_remapped c n r q s
    · rw [hframe.coreAt]
      exact coreAt_modCore_ne _ _ _ _ hd
  case replace =>
    obtain ⟨hspare, hframe⟩ := commit_of_only (u := replacedIn f sp s) hr .ok 2 f.val sp.val
    obtain ⟨hactive, hcores, hjobs⟩ := replacedIn_frame f sp s
    refine ⟨_, next (repairCommit_replace hr hfill hq), congrArg Spare.repairs hspare, congrArg Spare.draining hspare, fun i => ?_,
      hframe.activeCores.trans hactive, ?_, hframe.cores.trans hcores, hframe.jobs.trans hjobs⟩
    · rw [hframe.capCores]
      exact mapReplace_get s.capCores f.val sp.val i
    · rw [hframe.spareCores]
      exact not_mem_sparesLeft s sp
  case shed =>
    obtain ⟨hspare, hframe⟩ := commit_of_only (u := shedFrom f s) hr .capacityReduced 3 f.val 0
    obtain ⟨hactive, hcores, hjobs⟩ := shedFrom_frame f s
    exact ⟨_, next (repairCommit_shed hr hb hq), congrArg Spare.repairs hspare, hframe.activeCores.trans hactive,
      hframe.cores.trans hcores, hframe.jobs.trans hjobs⟩
  case firstDie =>
    have hframe := dieDeclared_frame k die s
    refine ⟨_, next (dieFails_first hd hf h16), congrArg Spare.repairs (wakeRegion_spare ..), ?_, hframe.memcFailed, hframe.dram⟩
    rw [hframe.memAt]
    exact memAt_modMem s k _
  case secondDie =>
    have hframe := stackFails_frame k s
    refine ⟨_, next (dieFails_second hd hf hb hsp), hframe.memcFailed.trans (congrArg (· ||| _) (stackFence_memcFailed k s)),
      fun j hc ht => ?_⟩
    rw [hframe.jobAt]
    exact stackFence_fences hc ht
  case piece =>
    have hstate : (decide (m.dieState = 1) || decide (m.dieState = 2)) = true := by simpa using hd
    refine next (if_pos ?_)
    rw [ho, hf, hstate, decide_eq_true (show (memAt s k).rebuilt.toNat < piecesPerChannel from hlt)]
    rfl
  case rebuilt =>
    obtain ⟨hspare, hframe⟩ := commit_of_only (u := spent k s) hr .ok 4 k.val m.badDie.toNat
    refine ⟨_, next (rebuildCommit_of_only hd hn hr), ?_, congrArg Spare.repairs hspare, congrArg Spare.lastKind hspare,
      fun n hne => ?_, hframe.dram⟩
    · rw [hframe.memAt]
      exact memAt_modMem ..
    · rw [hframe.memAt]
      exact memAt_modMem_ne _ _ _ _ hne
  case waits =>
    have hnot : ¬((memAt s k).dieState = 0 ∨ (memAt s k).dieState = 3) := by
      rcases hd with hd | hd <;> rw [show (memAt s k).dieState = _ from hd] <;> decide
    refine next (if_neg ?_)
    rw [decide_eq_false hnot, Bool.and_false]
    exact Bool.false_ne_true
  case row =>
    let x : RowId := { ch := ch, die := die, bank := bank, row := row }
    have hspare := repairAlert_spare .ok 6 k.val die.val (dropRepair (.row k x true) (rowSpared k x s))
    have hframe := rowSpared_frame k x s
    refine ⟨_, next (rowRepair_of_only ho hd hr), ?_, congrArg Spare.lastKind hspare, ?_, hframe.dram⟩
    · exact (congrArg Spare.repairs hspare).trans (congrArg Spare.repairs (dropRepair_spare_of_only (s := rowSpared k x s) rfl))
    · rw [hframe.memAt]
      exact sparesUsed_rowSpared k x s

end Sys2Proof.Machine

/-! SUPPORT. What a check of a piece can do: its counts, the failures that they lead to, and its marks (R237 to R241). -/

namespace Sys2Proof.Machine

/-! ### What counts towards a row or a die can do -/

/-- A state with all that a check of a piece may change taken from `z`. -/
def offCheck (z s : State) : State := { offRepair z (unfenced z s) with mems := z.mems, memcFailed := z.memcFailed }

/-- What of a stack's region counts towards a row or a die leave as it is. -/
def loggedView (m : MemRegion) : BitVec 32 × BitVec 16 × BitVec 16 × BitVec 3 × BitVec 48 × List Nat :=
  (m.corrected, m.parityCorr, m.bondRetry, m.errKind, m.errOffset, m.badPieces)

/-- Jobs, cores and the stack's queue stay, or stack `k` has failed. -/
def staysOrFails (k : Fin 8) (s t : State) : Prop :=
  (t.memcFailed = s.memcFailed ∧ t.jobs = s.jobs ∧ t.cores = s.cores ∧ (memAt t k).queue = (memAt s k).queue) ∨
    (s.memcFailed.getLsbD k.val = false ∧ t.memcFailed.getLsbD k.val = true)

/-- What counts towards a row or a die of stack `k` can do. -/
structure Counted (k : Fin 8) (s t : State) : Prop where
  frame : offCheck s t = s
  others : ∀ n, n ≠ k → memAt t n = memAt s n
  logged : loggedView (memAt t k) = loggedView (memAt s k)
  outcome : staysOrFails k s t

theorem staysOrFails.trans {k : Fin 8} {s u t : State} (h : staysOrFails k s u) (h' : staysOrFails k u t) : staysOrFails k s t := by
  rcases h with ⟨hf, hj, hc, hq⟩ | ⟨hno, hyes⟩
  · rcases h' with ⟨hf', hj', hc', hq'⟩ | ⟨hno, hyes⟩
    · exact .inl ⟨hf'.trans hf, hj'.trans hj, hc'.trans hc, hq'.trans hq⟩
    · exact .inr ⟨hf ▸ hno, hyes⟩
  · rcases h' with ⟨hf', -⟩ | ⟨-, hyes'⟩
    · exact .inr ⟨hno, hf' ▸ hyes⟩
    · exact .inr ⟨hno, hyes'⟩

/-- Where no stack fails, jobs, cores and the queue stay. -/
theorem staysOrFails.stays {k : Fin 8} {s t : State} (h : staysOrFails k s t) (hf : t.memcFailed = s.memcFailed) :
    t.jobs = s.jobs ∧ t.cores = s.cores ∧ (memAt t k).queue = (memAt s k).queue := by
  rcases h with ⟨-, h⟩ | ⟨hno, hyes⟩
  · exact h
  · rw [hf, hno] at hyes
    exact absurd hyes Bool.false_ne_true

theorem Counted.refl (k : Fin 8) (s : State) : Counted k s s := ⟨rfl, fun _ _ => rfl, rfl, .inl ⟨rfl, rfl, rfl, rfl⟩⟩

theorem Counted.trans {k : Fin 8} {s u t : State} (h : Counted k s u) (h' : Counted k u t) : Counted k s t where
  frame := (congrArg (offCheck s) h'.frame).trans h.frame
  others n hn := (h'.others n hn).trans (h.others n hn)
  logged := h'.logged.trans h.logged
  outcome := h.outcome.trans h'.outcome

/-- A count kept in the stack's region. -/
theorem counted_modMem {k : Fin 8} {s : State} {f : MemRegion → MemRegion} (hl : loggedView (f (memAt s k)) = loggedView (memAt s k))
    (hq : (f (memAt s k)).queue = (memAt s k).queue) : Counted k s (modMem s k f) where
  frame := rfl
  others n hn := memAt_modMem_ne _ _ _ _ hn
  logged := by rw [memAt_modMem, hl]
  outcome := .inl ⟨rfl, rfl, rfl, by rw [memAt_modMem, hq]⟩

/-- A repair is declared, and wakes its stack. -/
theorem counted_declared (k : Fin 8) (n : Fin 28) (g : Repair) (s : State) : Counted k s (wakeRegion n (declareRepair g s)) := by
  have h : offRepair s (wakeRegion n (declareRepair g s)) = offRepair s s := offRepair_wakeRegion ..
  have hframe := repairFrame_of_offRepair h
  exact ⟨congrArg (fun u : State => { unfenced s u with mems := s.mems, memcFailed := s.memcFailed }) h, fun m _ => hframe.memAt m,
    congrArg loggedView (hframe.memAt k),
    .inl ⟨hframe.memcFailed, hframe.jobs, hframe.cores, congrArg MemRegion.queue (hframe.memAt k)⟩⟩

theorem getLsbD_failedMask (x : Byte) (k : Fin 8) : (x ||| BitVec.ofNat 8 (2 ^ k.val)).getLsbD k.val = true := by
  have hbit : (BitVec.ofNat 8 (2 ^ k.val)).getLsbD k.val = true := by revert k; decide
  rw [BitVec.getLsbD_or, hbit, Bool.or_true]

theorem counted_stackFails {k : Fin 8} {s : State} (hf : s.memcFailed.getLsbD k.val = false) : Counted k s (stackFails k s) := by
  have hfence := fenceWhere_unfenced s (fun b => canFence b && jobTouches s b k) (unitFault .capacityReduced (0x20 + k.val) 0 0) s
  have hmem (n : Fin 8) : memAt (stackFence k s) n = memAt s n := (congrArg (fun u : State => memAt u n) hfence :)
  have hframe := stackFails_frame k s
  refine ⟨?_, fun n hn => ?_, ?_, .inr ⟨hf, ?_⟩⟩
  · exact (congrArg (fun u : State => { unfenced s u with mems := s.mems, memcFailed := s.memcFailed }) (stackFails_offRepair s k s)).trans
      (congrArg (fun u : State => { offRepair s u with mems := s.mems, memcFailed := s.memcFailed }) hfence)
  · rw [hframe.memAt]
    exact (memAt_modMem_ne _ _ _ _ hn).trans (hmem n)
  · rw [hframe.memAt]
    exact (congrArg loggedView (memAt_modMem _ k failedStack)).trans (congrArg (fun m => loggedView (failedStack m)) (hmem k))
  · rw [hframe.memcFailed]
    exact getLsbD_failedMask ..

theorem counted_dieFails (k : Fin 8) (die : Fin 17) (s : State) : Counted k s (dieFails k die s) := by
  unfold dieFails
  dsimp only
  split
  · exact .refl k s
  next hf =>
    split
    · split
      · exact counted_modMem rfl rfl
      · exact (counted_modMem rfl rfl).trans (counted_declared ..)
    · split
      · exact .refl k s
      · split
        · exact .refl k s
        · exact counted_stackFails (Bool.eq_false_of_not_eq_true hf)

theorem counted_countDie (k : Fin 8) (die : Fin 17) (s : State) : Counted k s (countDie k die s) := by
  unfold countDie
  dsimp only
  split
  · exact (counted_modMem rfl rfl).trans ((counted_modMem rfl rfl).trans (counted_dieFails ..))
  · exact counted_modMem rfl rfl

theorem counted_rowFails (k : Fin 8) (x : RowId) (s : State) : Counted k s (rowFails k x s) := by
  unfold rowFails
  split
  · exact .refl k s
  · split
    · exact counted_countDie ..
    · exact counted_declared ..

theorem counted_countRow (k : Fin 8) (x : RowId) (s : State) : Counted k s (countRow k x s) := by
  unfold countRow
  dsimp only
  split
  · exact counted_modMem rfl rfl
  · exact (counted_modMem rfl rfl).trans (counted_rowFails ..)

theorem counted_countCause (k : Fin 8) (off : Nat) (found chk : PieceCheck) (s : State) : Counted k s (countCause k off found chk s) := by
  unfold countCause
  split
  · exact counted_countRow ..
  · exact counted_countDie ..
  · split
    · exact counted_countDie ..
    · exact .refl k s
  · exact .refl k s

/-! ### The check of a piece -/

/-- The marks that a check leaves in the stack's region: a piece that stands uncorrected, the record of an error not corrected, or,
where a write covers the piece, its correction. -/
def pieceMarks (covers scrub : Bool) (off : Nat) (error : Option Nat) (m : MemRegion) : MemRegion :=
  match error with
  | some kind =>
    { m with
      badPieces := if kind = 1 ∧ m.badPieces.contains off = false then m.badPieces ++ [off] else m.badPieces
      errOffset := BitVec.ofNat 48 off
      errKind := BitVec.ofNat 3 (if scrub then 3 else kind) }
  | none => if covers then { m with badPieces := m.badPieces.erase off } else m

/-- The state once what a check finds, `chk`, has been counted. -/
def countedPiece (k : Fin 8) (off : Nat) (found chk : PieceCheck) (s : State) : State :=
  countCause k off found chk (modMem s k (countCheck chk))

theorem modMem_modMem (s : State) (k : Fin 8) (f g : MemRegion → MemRegion) :
    modMem (modMem s k f) k g = modMem s k (fun m => g (f m)) := by
  have hset (v : Vector MemRegion 8) (x y : MemRegion) : (v.set k.val x k.isLt).set k.val y k.isLt = v.set k.val y k.isLt :=
    Vector.set_set ..
  unfold modMem
  dsimp only [memAt]
  rw [get_set_self, hset]

theorem modMem_self (s : State) (k : Fin 8) : modMem s k (fun m => m) = s := congrArg (fun v => { s with mems := v }) (set_get_self s.mems k)

/-- A check counts what it finds, and then marks. -/
theorem checkPiece_eq {k : Fin 8} {off : Nat} {covers scrub : Bool} {found f : PieceCheck} {s : State}
    (hf : effectiveCheck (memAt s k) off covers found = f) : checkPiece k off covers scrub found s =
      (errorKind f, modMem (countedPiece k off found f s) k (pieceMarks covers scrub off (errorKind f))) := by
  subst hf
  unfold checkPiece countedPiece
  dsimp only
  cases errorKind (effectiveCheck (memAt s k) off covers found) with
  | some kind => exact congrArg (Prod.mk _) (modMem_modMem ..)
  | none =>
    cases covers
    · exact congrArg (Prod.mk _) (modMem_self ..).symm
    · rfl

/-- What a check of a piece of stack `k` that finds `f` can do. -/
structure Checked (k : Fin 8) (f : PieceCheck) (s t : State) : Prop where
  frame : offCheck s t = s
  others : ∀ n, n ≠ k → memAt t n = memAt s n
  corrected : (memAt t k).corrected = (countCheck f (memAt s k)).corrected
  parityCorr : (memAt t k).parityCorr = (countCheck f (memAt s k)).parityCorr
  bondRetry : (memAt t k).bondRetry = (countCheck f (memAt s k)).bondRetry
  outcome : staysOrFails k s t

@[simp] theorem countCheck_queue (f : PieceCheck) (m : MemRegion) : (countCheck f m).queue = m.queue := by cases f <;> rfl
@[simp] theorem countCheck_errKind (f : PieceCheck) (m : MemRegion) : (countCheck f m).errKind = m.errKind := by cases f <;> rfl
@[simp] theorem countCheck_errOffset (f : PieceCheck) (m : MemRegion) : (countCheck f m).errOffset = m.errOffset := by cases f <;> rfl
@[simp] theorem countCheck_badPieces (f : PieceCheck) (m : MemRegion) : (countCheck f m).badPieces = m.badPieces := by cases f <;> rfl

/-- Marks leave what a check counts and the queue. -/
theorem pieceMarks_keeps (covers scrub : Bool) (off : Nat) (error : Option Nat) (m : MemRegion) :
    (pieceMarks covers scrub off error m).corrected = m.corrected ∧ (pieceMarks covers scrub off error m).parityCorr = m.parityCorr ∧
      (pieceMarks covers scrub off error m).bondRetry = m.bondRetry ∧ (pieceMarks covers scrub off error m).queue = m.queue := by
  unfold pieceMarks
  split
  · exact ⟨rfl, rfl, rfl, rfl⟩
  · split <;> exact ⟨rfl, rfl, rfl, rfl⟩

theorem counted_piece (k : Fin 8) (off : Nat) (found f : PieceCheck) (s : State) :
    Counted k (modMem s k (countCheck f)) (countedPiece k off found f s) := counted_countCause ..

theorem logged_countedPiece (k : Fin 8) (off : Nat) (found f : PieceCheck) (s : State) :
    loggedView (memAt (countedPiece k off found f s) k) = loggedView (countCheck f (memAt s k)) := by
  rw [(counted_piece k off found f s).logged, memAt_modMem]

/-- A check of a piece, by what it finds. -/
theorem checkPiece_checked {k : Fin 8} {off : Nat} {covers scrub : Bool} {found f : PieceCheck} {s : State}
    (hf : effectiveCheck (memAt s k) off covers found = f) : Checked k f s (checkPiece k off covers scrub found s).2 := by
  have hcount := counted_piece k off found f s
  have hlog := logged_countedPiece k off found f s
  simp only [loggedView, Prod.mk.injEq] at hlog
  obtain ⟨hcorr, hpar, hbond, -⟩ := hlog
  obtain ⟨hkcorr, hkpar, hkbond, hkqueue⟩ := pieceMarks_keeps covers scrub off (errorKind f) (memAt (countedPiece k off found f s) k)
  rw [checkPiece_eq hf]
  refine ⟨(congrArg (offCheck s) hcount.frame :), fun n hn => ?_, ?_, ?_, ?_, ?_⟩
  · rw [memAt_modMem_ne _ _ _ _ hn, hcount.others n hn, memAt_modMem_ne _ _ _ _ hn]
  · rw [memAt_modMem, hkcorr, hcorr]
  · rw [memAt_modMem, hkpar, hpar]
  · rw [memAt_modMem, hkbond, hbond]
  · have hcheck : staysOrFails k s (modMem s k (countCheck f)) := .inl ⟨rfl, rfl, rfl, by rw [memAt_modMem, countCheck_queue]⟩
    refine (hcheck.trans hcount.outcome).trans (.inl ⟨rfl, rfl, rfl, ?_⟩)
    rw [memAt_modMem, hkqueue]

theorem Checked.dram {k : Fin 8} {f : PieceCheck} {s t : State} (h : Checked k f s t) : t.dram = s.dram := (congrArg State.dram h.frame :)

/-- A check that finds an error not corrected. -/
theorem memAt_checkPiece_of_error {k : Fin 8} {off kind : Nat} {covers scrub : Bool} {found f : PieceCheck} {s : State}
    (hf : effectiveCheck (memAt s k) off covers found = f) (he : errorKind f = some kind) :
    (memAt (checkPiece k off covers scrub found s).2 k).errKind = BitVec.ofNat 3 (if scrub then 3 else kind) ∧
      (memAt (checkPiece k off covers scrub found s).2 k).errOffset = BitVec.ofNat 48 off ∧
      (kind = 1 → off ∈ (memAt (checkPiece k off covers scrub found s).2 k).badPieces) := by
  rw [checkPiece_eq hf, he]
  dsimp only
  rw [memAt_modMem]
  refine ⟨rfl, rfl, fun hk => ?_⟩
  show off ∈ if kind = 1 ∧ (memAt (countedPiece k off found f s) k).badPieces.contains off = false then _ else _
  split
  · exact List.mem_append_right _ (List.mem_singleton_self _)
  next hin => simpa [hk] using hin

/-- A check that finds no error: the record of errors stays, and a piece that a write covers stands uncorrected no longer. -/
theorem memAt_checkPiece_of_none {k : Fin 8} {off : Nat} {covers scrub : Bool} {found f : PieceCheck} {s : State}
    (hf : effectiveCheck (memAt s k) off covers found = f) (he : errorKind f = none) :
    (memAt (checkPiece k off covers scrub found s).2 k).errKind = (memAt s k).errKind ∧
      (memAt (checkPiece k off covers scrub found s).2 k).errOffset = (memAt s k).errOffset ∧
      (covers = true → (memAt (checkPiece k off covers scrub found s).2 k).badPieces = (memAt s k).badPieces.erase off) := by
  have hlog := logged_countedPiece k off found f s
  simp only [loggedView, Prod.mk.injEq, countCheck_errKind, countCheck_errOffset, countCheck_badPieces] at hlog
  obtain ⟨-, -, -, hkind, hoff, hbad⟩ := hlog
  rw [checkPiece_eq hf, he]
  dsimp only
  rw [memAt_modMem]
  cases covers
  · exact ⟨hkind, hoff, fun h => absurd h Bool.false_ne_true⟩
  · exact ⟨hkind, hoff, fun _ => congrArg (List.erase · off) hbad⟩

end Sys2Proof.Machine

/-! SUPPORT. Accesses to pieces, scrubs and the temperature of a stack (R229, R235 to R241). -/

namespace Sys2Proof.Machine

/-! ### A piece's access -/

/-- What piece `p`'s checks find. -/
def pieceCheck (k : Fin 8) (p : Piece) (chk : PieceCheck) (s : State) : Option Nat × State :=
  checkPiece k (p.off / 128 * 128) (p.write && decide (p.len = 128)) false chk s

/-- In the slot of its client and channel the oldest queued piece is accessed (R229, R233). -/
theorem pieceAccess_taken {k : Fin 8} {e : Fin 128} {ch : Fin 32} {chk : PieceCheck} {cl : Byte} {p : Piece} {rest : List Piece} {s : State}
    (hr : memRuns s k = true) (hf : s.memcFailed.getLsbD k.val = false) (hc : slotClient (memAt s k) e = some cl)
    (ht : takePiece cl ch (memAt s k).queue = some (p, rest)) :
    pieceAccess k e ch chk s = accessPiece k p chk (setMem s k { memAt s k with queue := rest }) := by
  unfold pieceAccess
  rw [hr, hf]
  dsimp only
  rw [if_pos (show (true && !false) = true from rfl), hc]
  dsimp only
  rw [ht]
  rfl

theorem accessPiece_read {k : Fin 8} {p : Piece} {chk : PieceCheck} {s : State} (hn : (pieceCheck k p chk s).1 = none)
    (hw : p.write = false) : accessPiece k p chk s =
      servePiece p (memRead (pieceCheck k p chk s).2.dram (k.val * stackBytes + p.off) p.len) (pieceCheck k p chk s).2 := by
  unfold pieceCheck at *
  unfold accessPiece
  dsimp only
  split
  next heq => rw [heq] at hn; cases hn
  next heq => rw [heq, if_neg (by rw [hw]; decide)]

/-- DRAM once a piece's data are written. -/
def pieceWritten (k : Fin 8) (p : Piece) (m : ByteMem) : ByteMem :=
  (List.range p.data.length).foldl (fun m j => memSet m (k.val * stackBytes + p.off + j) (p.data.getD j 0)) m

theorem accessPiece_write {k : Fin 8} {p : Piece} {chk : PieceCheck} {s : State} (hn : (pieceCheck k p chk s).1 = none)
    (hw : p.write = true) : accessPiece k p chk s =
      servePiece p [] { (pieceCheck k p chk s).2 with dram := pieceWritten k p (pieceCheck k p chk s).2.dram } := by
  unfold pieceCheck at *
  unfold accessPiece
  dsimp only
  split
  next heq => rw [heq] at hn; cases hn
  next heq =>
    rw [heq, if_pos hw]
    rfl

/-- The fault of a piece that stands uncorrected or whose bond failed. -/
def pieceFault (k : Fin 8) (p : Piece) (kind : Nat) : FaultInfo :=
  { status := .eccUncorrected, pcore := some p.core, region := BitVec.ofNat 8 (0x20 + k.val)
    detail0 := BitVec.ofNat 32 kind, detail1 := BitVec.ofNat 32 (p.off / 128 * 128) }

theorem accessPiece_error {k : Fin 8} {p : Piece} {chk : PieceCheck} {kind : Nat} {s : State}
    (he : (pieceCheck k p chk s).1 = some kind) : accessPiece k p chk s =
      skdFault p.core p.queue (pieceFault k p kind) (servePiece p [] (pieceCheck k p chk s).2) := by
  unfold pieceCheck at *
  unfold accessPiece
  dsimp only
  split
  next heq =>
    rw [heq] at he ⊢
    cases he
    rfl
  next heq => rw [heq] at he; cases he

/-- What a read hands to its transfer, byte by byte. -/
theorem servePiece_memRead (p : Piece) (m : ByteMem) (a : Nat) (s : State) : servePiece p (memRead m a p.len) s =
    setCore s p.core (modQ (coreAt s p.core) p.queue (fun q => { q with xfers := q.xfers.map (fun x =>
      if x.id = p.xfer then { x with
        served := x.served + 1
        data := if x.write = true then x.data
          else (List.range p.len).foldl (fun d i => cellSet 0#8 d (p.pos + i) (memGet m (a + i))) x.data }
      else x) })) := by
  have hlen : (memRead m a p.len).length = p.len := (List.length_map ..).trans List.length_range
  have hfold (d : List (Nat × Byte)) : (List.range p.len).foldl (fun d i => cellSet 0#8 d (p.pos + i) ((memRead m a p.len).getD i 0)) d =
      (List.range p.len).foldl (fun d i => cellSet 0#8 d (p.pos + i) (memGet m (a + i))) d := by
    refine List.foldl_ext _ _ _ fun d i hi => ?_
    have hbyte : (memRead m a p.len).getD i 0 = memGet m (a + i) := by
      simp [memRead, cellGetList, memGet, List.getD_eq_getElem?_getD, List.mem_range.1 hi]
    rw [hbyte]
  unfold servePiece
  simp only [hlen, hfold]
  rfl

theorem memWf_pieceWritten (k : Fin 8) (p : Piece) {m : ByteMem} (h : memWf m = true) : memWf (pieceWritten k p m) = true :=
  foldl_inv (fun m => memWf m = true) _ (fun m _ hm => memWf_memSet m _ _ hm) _ _ h

/-- A range of bytes written one after another. -/
theorem memGet_foldl_range {m : ByteMem} (h : memWf m = true) (b n a : Nat) (f : Nat → Byte) :
    memGet ((List.range n).foldl (fun m j => memSet m (b + j) (f j)) m) a = if b ≤ a ∧ a < b + n then f (a - b) else memGet m a := by
  induction n with
  | zero => rw [if_neg (by omega)]; rfl
  | succ n ih =>
    have hwf : memWf ((List.range n).foldl (fun m j => memSet m (b + j) (f j)) m) = true :=
      foldl_inv (fun m => memWf m = true) _ (fun m _ hm => memWf_memSet m _ _ hm) _ _ h
    rw [List.range_succ, List.foldl_append, List.foldl_cons, List.foldl_nil, memGet_memSet _ _ _ _ hwf, ih]
    by_cases ha : a = b + n
    · subst ha
      rw [if_pos rfl, if_pos (by omega), Nat.add_sub_cancel_left]
    · by_cases hin : b ≤ a ∧ a < b + n
      · rw [if_neg ha, if_pos hin, if_pos (by omega)]
      · rw [if_neg ha, if_neg hin, if_neg (by omega)]

theorem memGet_pieceWritten (k : Fin 8) (p : Piece) {m : ByteMem} (h : memWf m = true) (a : Nat) :
    memGet (pieceWritten k p m) a = if k.val * stackBytes + p.off ≤ a ∧ a < k.val * stackBytes + p.off + p.data.length then
      p.data.getD (a - (k.val * stackBytes + p.off)) 0 else memGet m a :=
  memGet_foldl_range h (k.val * stackBytes + p.off) p.data.length a (fun j => p.data.getD j 0)

theorem coreAt_servePiece_ne {p : Piece} {c : CoreId} (h : c ≠ p.core) (bs : List Byte) (s : State) :
    coreAt (servePiece p bs s) c = coreAt s c := coreAt_modCore_ne _ _ _ _ h

/-- The core of a piece has the same job while its piece is served. -/
theorem job_servePiece (p : Piece) (bs : List Byte) (s : State) (c : CoreId) :
    (coreAt (servePiece p bs s) c).seq.job = (coreAt s c).seq.job := by
  by_cases hc : c = p.core
  · subst hc
    unfold servePiece
    rw [coreAt_modCore]
    rfl
  · rw [coreAt_servePiece_ne hc]

/-- A core's job is a matter of the job that it runs, of the job table, and of the cores of the map. -/
theorem jobOf_congr {s t : State} {c : CoreId} (hc : (coreAt t c).seq.job = (coreAt s c).seq.job) (hj : t.jobs = s.jobs)
    (hm : t.capCores = s.capCores) (ha : t.activeCores = s.activeCores) : jobOf t c = jobOf s c := by
  unfold jobOf jobsWhere jobCores physicalOf jobAt
  rw [hc, hj, hm, ha]

/-- A fault of the Skidder's leaves everything but jobs and cores. -/
theorem skdFault_unfenced (z : State) (c : CoreId) (q : QId) (i : FaultInfo) (s : State) : unfenced z (skdFault c q i s) = unfenced z s := by
  unfold skdFault
  split
  · exact fenceJob_unfenced ..
  · rfl

/-- A running or stopped job of the core is fenced with the fault's record. -/
theorem jobAt_skdFault {c : CoreId} {q : QId} {i : FaultInfo} {s : State} {j : JobId} (hj : jobOf s c = some j)
    (hc : canFence (jobAt s j) = true) :
    jobAt (skdFault c q i s) j = { jobAt s j with state := .fencing, status := i.status, fence := fenceRecOf s i } := by
  have hfence : skdFault c q i s = fenceJob j i s := by
    unfold skdFault
    rw [hj]
  rw [hfence]
  rcases fenceJob_cases j i s with ⟨hno, -⟩ | ⟨-, hentry, -⟩
  · rw [hc] at hno
    cases hno
  · exact hentry

theorem detail0_fenceRecOf (s : State) (i : FaultInfo) : (fenceRecOf s i).detail0 = i.detail0 := by
  unfold fenceRecOf
  split <;> rfl

section
variable {k : Fin 8} {p : Piece} {chk : PieceCheck} {s : State}

theorem pieceCheck_fst : (pieceCheck k p chk s).1 =
    errorKind (effectiveCheck (memAt s k) (p.off / 128 * 128) (p.write && decide (p.len = 128)) chk) :=
  congrArg Prod.fst (checkPiece_eq rfl)

theorem pieceCheck_checked :
    Checked k (effectiveCheck (memAt s k) (p.off / 128 * 128) (p.write && decide (p.len = 128)) chk) s (pieceCheck k p chk s).2 :=
  checkPiece_checked rfl

/-- A piece written: its bytes, the other stacks, its stand, and what stays where no stack fails. -/
theorem accessPiece_written (hn : (pieceCheck k p chk s).1 = none) (hw : p.write = true) (hd : memWf s.dram = true) :
    (∀ a, memGet (accessPiece k p chk s).dram a =
      if k.val * stackBytes + p.off ≤ a ∧ a < k.val * stackBytes + p.off + p.data.length then
        p.data.getD (a - (k.val * stackBytes + p.off)) 0 else memGet s.dram a) ∧
    memWf (accessPiece k p chk s).dram = true ∧ (∀ n, n ≠ k → memAt (accessPiece k p chk s) n = memAt s n) ∧
    ((memAt s k).badPieces.Nodup → p.len = 128 → p.off / 128 * 128 ∉ (memAt (accessPiece k p chk s) k).badPieces) ∧
    ((accessPiece k p chk s).memcFailed = s.memcFailed →
      (memAt (accessPiece k p chk s) k).queue = (memAt s k).queue ∧
      (∀ c, c ≠ p.core → coreAt (accessPiece k p chk s) c = coreAt s c) ∧ (accessPiece k p chk s).jobs = s.jobs) := by
  have hcheck := pieceCheck_checked (k := k) (p := p) (chk := chk) (s := s)
  have hdram := hcheck.dram
  rw [accessPiece_write hn hw]
  refine ⟨fun a => ?_, ?_, hcheck.others, fun hnd hlen => ?_, fun hf => ?_⟩
  · exact (congrArg (fun m => memGet (pieceWritten k p m) a) hdram).trans (memGet_pieceWritten k p hd a)
  · exact (congrArg (fun m => memWf (pieceWritten k p m)) hdram).trans (memWf_pieceWritten k p hd)
  · have hcovers : (p.write && decide (p.len = 128)) = true := by rw [hw, decide_eq_true hlen]; rfl
    have hbad : (memAt (pieceCheck k p chk s).2 k).badPieces = (memAt s k).badPieces.erase (p.off / 128 * 128) :=
      (memAt_checkPiece_of_none rfl (pieceCheck_fst.symm.trans hn)).2.2 hcovers
    intro hin
    exact (hnd.mem_erase_iff.1 (hbad ▸ hin : _ ∈ (memAt s k).badPieces.erase _)).1 rfl
  · obtain ⟨hjobs, hcores, hqueue⟩ := hcheck.outcome.stays hf
    refine ⟨hqueue, fun c hc => ?_, hjobs⟩
    exact (coreAt_servePiece_ne hc ..).trans (congrArg (fun v : Vector Core 68 => v.get c) hcores)

/-- A piece with an error not corrected: its record, its stand, and the fence of its core's job where no stack fails. -/
theorem accessPiece_faulted {kind : Nat} (he : (pieceCheck k p chk s).1 = some kind) :
    (memAt (accessPiece k p chk s) k).errKind = BitVec.ofNat 3 kind ∧
    (memAt (accessPiece k p chk s) k).errOffset = BitVec.ofNat 48 (p.off / 128 * 128) ∧ (accessPiece k p chk s).dram = s.dram ∧
    (kind = 1 → p.off / 128 * 128 ∈ (memAt (accessPiece k p chk s) k).badPieces) ∧
    ((accessPiece k p chk s).memcFailed = s.memcFailed → ∀ j, jobOf s p.core = some j → canFence (jobAt s j) = true →
      (jobAt (accessPiece k p chk s) j).state = .fencing ∧ (jobAt (accessPiece k p chk s) j).status = .eccUncorrected ∧
        (jobAt (accessPiece k p chk s) j).fence.detail0 = BitVec.ofNat 32 kind) := by
  have hcheck := pieceCheck_checked (k := k) (p := p) (chk := chk) (s := s)
  have hframe := skdFault_unfenced s p.core p.queue (pieceFault k p kind) (servePiece p [] (pieceCheck k p chk s).2)
  have hmem : memAt (accessPiece k p chk s) k = memAt (pieceCheck k p chk s).2 k := by
    rw [accessPiece_error he]
    exact (congrArg (fun u : State => memAt u k) hframe :)
  have hfail : (accessPiece k p chk s).memcFailed = (pieceCheck k p chk s).2.memcFailed := by
    rw [accessPiece_error he]
    exact (congrArg State.memcFailed hframe :)
  obtain ⟨hkind, hoff, hbad⟩ := memAt_checkPiece_of_error (scrub := false) rfl (pieceCheck_fst.symm.trans he)
  rw [hmem, hfail]
  refine ⟨hkind, hoff, ?_, hbad, fun hf j hj hc => ?_⟩
  · rw [accessPiece_error he]
    exact (congrArg State.dram hframe :).trans hcheck.dram
  · obtain ⟨hjobs, hcores, -⟩ := hcheck.outcome.stays hf
    have hcap : (pieceCheck k p chk s).2.capCores = s.capCores := (congrArg State.capCores hcheck.frame :)
    have hact : (pieceCheck k p chk s).2.activeCores = s.activeCores := (congrArg State.activeCores hcheck.frame :)
    have hseq : (coreAt (pieceCheck k p chk s).2 p.core).seq.job = (coreAt s p.core).seq.job :=
      congrArg (fun v : Vector Core 68 => (v.get p.core).seq.job) hcores
    have hentry : jobAt (servePiece p [] (pieceCheck k p chk s).2) j = jobAt s j := congrArg (fun m => cellGet freeJob m j.val) hjobs
    have hjob : jobOf (servePiece p [] (pieceCheck k p chk s).2) p.core = some j :=
      (jobOf_congr ((job_servePiece ..).trans hseq) hjobs hcap hact).trans hj
    rw [accessPiece_error he, jobAt_skdFault hjob (hentry ▸ hc)]
    exact ⟨rfl, rfl, detail0_fenceRecOf ..⟩

end

/-! ### Scrubs -/

theorem patrolScrub_of_idle {k : Fin 8} {off : Nat} {chk : PieceCheck} {s : State} (ho : ownsSlots s idleOwner k = true)
    (hs : s.scrub = true) (hf : s.memcFailed.getLsbD k.val = false) (hoff : off < stackBytes) :
    patrolScrub k off chk s = (checkPiece k (off / 128 * 128) false true chk s).2 :=
  if_pos (by rw [ho, hs, hf, decide_eq_true hoff]; rfl)

/-- A check that finds what is found, in the normal state of a stack and a piece that does not stand uncorrected. -/
theorem effectiveCheck_of_normal {m : MemRegion} {off : Nat} (hd : m.dieState = 0) (hb : off ∉ m.badPieces) (chk : PieceCheck) :
    effectiveCheck m off false chk = chk := by
  have hbad : m.badPieces.contains off = false := by simpa using hb
  have hdie : dieCheck m off chk = chk := by
    unfold dieCheck
    rw [hd]
    rfl
  cases chk <;> simp only [effectiveCheck, hbad, hdie] <;> rfl

/-- A scrub that finds an error corrected counts it, and marks nothing. -/
theorem scrub_of_corrected {k : Fin 8} {off : Nat} {chk : PieceCheck} {s : State} (hd : (memAt s k).dieState = 0)
    (hb : off ∉ (memAt s k).badPieces) (he : errorKind chk = none) :
    (checkPiece k off false true chk s).2 = countCause k off chk chk (modMem s k (countCheck chk)) := by
  rw [checkPiece_eq (effectiveCheck_of_normal hd hb chk), he]
  exact modMem_self ..

theorem sparesTaken_modMem {k : Fin 8} {x : RowId} {s : State} {f : MemRegion → MemRegion}
    (hf : (f (memAt s k)).sparesUsed = (memAt s k).sparesUsed) : sparesTaken (modMem s k f) k x = sparesTaken s k x := by
  unfold sparesTaken
  rw [memAt_modMem, hf]
  rfl

/-- A row without counted errors. -/
def rowForgotten (x : RowId) (m : MemRegion) : MemRegion := { m with rowErrs := m.rowErrs.filter (fun e => decide (e.1 ≠ x)) }

theorem rowCount_rowForgotten (x : RowId) (m : MemRegion) : rowCount (rowForgotten x m) x = 0 := by
  have hnone : (rowForgotten x m).rowErrs.find? (fun e => decide (e.1 = x)) = none :=
    List.find?_eq_none.2 fun e he => by simpa using of_decide_eq_true (List.mem_filter.1 he).2
  unfold rowCount
  rw [hnone]
  rfl

/-- The 16th corrected error of a row declares its repair, where a spare row of its bank is left (R241). -/
theorem countRow_declares {k : Fin 8} {x : RowId} {s : State} (hn : rowCount (memAt s k) x = 15) (hd : rowDeclared s k x = false)
    (hs : sparesTaken s k x < 4) :
    countRow k x s = wakeRegion (powMem k) (declareRepair (.row k x false) (modMem s k (rowForgotten x))) := by
  have hspares : ¬4 ≤ sparesTaken (modMem s k (rowForgotten x)) k x := by
    rw [sparesTaken_modMem rfl]
    exact Nat.not_le.2 hs
  have hrow : rowFails k x (modMem s k (rowForgotten x)) =
      wakeRegion (powMem k) (declareRepair (.row k x false) (modMem s k (rowForgotten x))) := by
    unfold rowFails
    rw [show rowDeclared (modMem s k (rowForgotten x)) k x = false from hd, if_neg Bool.false_ne_true, if_neg hspares]
  unfold countRow
  dsimp only
  rw [hn, if_neg (by decide)]
  exact hrow

/-- What a scrub that finds the 16th corrected error of a row leaves (R238, R241). -/
theorem countRow_declares_frame {k : Fin 8} {x : RowId} {s : State} (hn : rowCount (memAt s k) x = 15) (hd : rowDeclared s k x = false)
    (hs : sparesTaken s k x < 4) :
    (countRow k x s).spare.repairs = s.spare.repairs ++ [.row k x false] ∧ rowCount (memAt (countRow k x s) k) x = 0 := by
  have hframe : RepairFrame (modMem s k (rowForgotten x))
      (wakeRegion (powMem k) (declareRepair (.row k x false) (modMem s k (rowForgotten x)))) :=
    repairFrame_of_offRepair (z := s) (offRepair_wakeRegion ..)
  rw [countRow_declares hn hd hs]
  refine ⟨congrArg Spare.repairs (wakeRegion_spare ..), ?_⟩
  rw [hframe.memAt, memAt_modMem]
  exact rowCount_rowForgotten ..

/-- The counts of a die that still stand, with one more of `die`, `now` (R240). -/
def dieLogWith (die : Fin 17) (now : Nat) (log : List (Fin 17 × Nat)) : List (Fin 17 × Nat) :=
  log.filter (fun x => decide (now < x.2 + periodsPerSecond)) ++ [(die, now)]

theorem length_dieLogWith (die : Fin 17) (now : Nat) (log : List (Fin 17 × Nat)) :
    ((dieLogWith die now log).filter (fun x => decide (x.1 = die))).length =
      (log.filter (fun y => decide (now < y.2 + periodsPerSecond) && decide (y.1 = die))).length + 1 := by
  have hlast : [(die, now)].filter (fun x => decide (x.1 = die)) = [(die, now)] := List.filter_cons_of_pos (decide_eq_true rfl)
  have hstill (y : Fin 17 × Nat) : (decide (y.1 = die) && decide (now < y.2 + periodsPerSecond)) =
      (decide (now < y.2 + periodsPerSecond) && decide (y.1 = die)) := Bool.and_comm ..
  rw [dieLogWith, List.filter_append, List.filter_filter, List.length_append, hlast]
  simp only [hstill]
  rfl

/-- A region once the counts of a die have gone. -/
def dieForgotten (die : Fin 17) (log : List (Fin 17 × Nat)) (m : MemRegion) : MemRegion :=
  { m with dieLog := log.filter (fun x => decide (x.1 ≠ die)) }

/-- The 64th count of a die within 1 s declares its failure (R240). -/
theorem countDie_fails {k : Fin 8} {die : Fin 17} {s : State} (h : 63 ≤ ((memAt s k).dieLog.filter
    (fun y => decide (s.mgtPeriods.toNat < y.2 + periodsPerSecond) && decide (y.1 = die))).length) :
    countDie k die s = dieFails k die
      (modMem s k (dieForgotten die (dieLogWith die s.mgtPeriods.toNat (memAt s k).dieLog))) := by
  have hlong : 64 ≤ ((dieLogWith die s.mgtPeriods.toNat (memAt s k).dieLog).filter (fun x => decide (x.1 = die))).length := by
    rw [length_dieLogWith]
    omega
  unfold countDie
  exact (if_pos hlong).trans (congrArg (dieFails k die) (modMem_modMem ..))

theorem countDie_fails_frame {k : Fin 8} {die : Fin 17} {s : State} (hd : (memAt s k).dieState = 0)
    (hf : s.memcFailed.getLsbD k.val = false) (h16 : die.val ≠ 16) (h : 63 ≤ ((memAt s k).dieLog.filter
    (fun y => decide (s.mgtPeriods.toNat < y.2 + periodsPerSecond) && decide (y.1 = die))).length) :
    (memAt (countDie k die s) k).dieState = 1 ∧ (memAt (countDie k die s) k).badDie = BitVec.ofNat 5 die.val ∧
      (countDie k die s).spare.repairs = s.spare.repairs ++ [.rebuild k] := by
  let u := modMem s k (dieForgotten die (dieLogWith die s.mgtPeriods.toNat (memAt s k).dieLog))
  have hu : (memAt u k).dieState = 0 := (congrArg MemRegion.dieState (memAt_modMem s k _)).trans hd
  have hmem := (dieDeclared_frame k die u).memAt k
  rw [countDie_fails h, dieFails_first (s := u) hu hf h16, hmem, dieDeclared, memAt_modMem]
  exact ⟨rfl, rfl, congrArg Spare.repairs (wakeRegion_spare ..)⟩

/-! ### Temperature and refresh -/

/-- A stack's region with its temperature read (R235). -/
def heatedStack (tmp : Byte) (m : MemRegion) : MemRegion :=
  { m with
    temp := tmp
    coolUpdates := if tmp.toNat ≤ 92 then m.coolUpdates + 1 else 0
    rateNext :=
      if 95 ≤ tmp.toNat then true else if 1001 ≤ (if tmp.toNat ≤ 92 then m.coolUpdates + 1 else 0) then false else m.rateNext }

theorem stackTemp_untripped {k : Fin 8} {tmp : Byte} {s : State} (h : tmp.toNat < 105 ∨ (memAt s k).trip = true) :
    stackTemp k tmp s = setMem s k (heatedStack tmp (memAt s k)) := by
  refine if_neg fun hno => ?_
  obtain ⟨h105, htrip⟩ := hno
  rcases h with h | h
  · omega
  · rw [htrip] at h
    cases h

/-- A stack's region as it trips (R236). -/
def trippedStack (tmp : Byte) (m : MemRegion) : MemRegion := { heatedStack tmp m with trip := true, rateNext := true }

theorem stackTemp_trips {k : Fin 8} {tmp : Byte} {s : State} (h105 : 105 ≤ tmp.toNat) (ht : (memAt s k).trip = false) :
    stackTemp k tmp s = fenceWhere (fun b => canFence b && jobTouches s b k) (unitFault .thermalTrip (0x20 + k.val) 0 0)
      (modMem s k (trippedStack tmp)) :=
  (if_pos ⟨h105, ht⟩).trans (congrArg (fenceWhere _ _) (modMem_modMem ..))

/-- Settles O46: each access by what its check can do; counts, scrubs and temperatures by their equations. -/
theorem memoryEvents : Obligations.MemoryEvents := by
  unfold Obligations.MemoryEvents
  intro k e ch chk off tmp p rest die bank row s m base whole taken found u at_ scrubs x
  have next {t y : State} (e : t = y) : (.next t : Host.Outcome State Fault Refusal) = .next y := congrArg _ e
  let v := setMem s k { m with queue := rest }
  have hv : memAt v k = { m with queue := rest } := get_set_self ..
  have hfound : (pieceCheck k p chk v).1 = errorKind found := by
    rw [pieceCheck_fst, hv]
    rfl
  have access (ht : taken) : exec (.pieceAccess k e ch chk) s = .next (accessPiece k p chk v) := by
    obtain ⟨hr, hf, cl, hc, hq⟩ := ht
    exact next (pieceAccess_taken hr hf hc hq)
  have scrub (hs : scrubs) (c : PieceCheck) : exec (.patrolScrub k off c) s = .next (checkPiece k at_ false true c s).2 := by
    obtain ⟨ho, hscrub, hf, hoff⟩ := hs
    exact next (patrolScrub_of_idle ho hscrub hf hoff)
  refine ⟨fun ht hn hw => ?read, fun ht hn hw hd => ?write, fun kind ht hk => ?error, fun hs => ?scrub, fun ho => ?noSlot,
    fun hs hd hb hn hdecl hsp => ?row, fun hs hd hb h16 hlog => ?die, fun h => next (stackTemp_untripped h), fun h105 ht => ?trip, ?refresh⟩
  case read =>
    have hdram : u.dram = s.dram := pieceCheck_checked.dram
    have hread := accessPiece_read (hfound.trans hn) hw
    refine ⟨hdram, (access ht).trans (next (hread.trans ?_))⟩
    rw [servePiece_memRead, show (pieceCheck k p chk v).2.dram = s.dram from hdram]
    rfl
  case write =>
    obtain ⟨hbytes, hwf, hothers, hstand, hstays⟩ := accessPiece_written (hfound.trans hn) hw hd
    rw [hv] at hstand hstays
    exact ⟨_, access ht, hbytes, hwf, fun n hne => (hothers n hne).trans (get_set_other _ _ _ _ hne), hstand, hstays⟩
  case error => exact ⟨_, access ht, accessPiece_faulted (hfound.trans hk)⟩
  case scrub =>
    have hcheck : Checked k _ s (checkPiece k at_ false true chk s).2 := checkPiece_checked rfl
    refine ⟨_, scrub hs chk, hcheck.dram, hcheck.others, hcheck.corrected, hcheck.parityCorr, hcheck.bondRetry, hcheck.outcome.stays,
      fun he => ?_, fun he => ?_⟩
    · obtain ⟨kind, hkind⟩ := Option.isSome_iff_exists.1 he
      obtain ⟨hk, ho, -⟩ := memAt_checkPiece_of_error (scrub := true) rfl hkind
      exact ⟨hk, ho⟩
    · obtain ⟨hk, ho, -⟩ := memAt_checkPiece_of_none (scrub := true) rfl he
      exact ⟨hk, ho⟩
  case noSlot => exact next (if_neg (by rw [ho]; exact Bool.false_ne_true))
  case row =>
    let w := modMem s k (countCheck (.corrected die bank row))
    have hw : memAt w k = countCheck (.corrected die bank row) (memAt s k) := memAt_modMem ..
    have hspares : sparesTaken w k x < 4 := by rw [sparesTaken_modMem rfl]; exact hsp
    obtain ⟨hrepairs, hcount⟩ := countRow_declares_frame (s := w) (x := x) (by rw [hw]; exact hn) hdecl hspares
    exact ⟨_, (scrub hs _).trans (next (scrub_of_corrected hd hb rfl)), hrepairs, hcount⟩
  case die =>
    let w := modMem s k (countCheck (.parity die))
    have hw : memAt w k = countCheck (.parity die) (memAt s k) := memAt_modMem ..
    obtain ⟨ho, hscrub, hf, hoff⟩ := hs
    exact ⟨_, (scrub ⟨ho, hscrub, hf, hoff⟩ _).trans (next (scrub_of_corrected hd hb rfl)),
      countDie_fails_frame (s := w) (by rw [hw]; exact hd) hf h16 (by rw [hw]; exact hlog)⟩
  case trip =>
    let w := modMem s k (trippedStack tmp)
    have hframe := fenceWhere_unfenced s (fun b => canFence b && jobTouches s b k) (unitFault .thermalTrip (0x20 + k.val) 0 0) w
    have hmem (n : Fin 8) : memAt (fenceWhere (fun b => canFence b && jobTouches s b k) (unitFault .thermalTrip (0x20 + k.val) 0 0) w) n =
        memAt w n := (congrArg (fun u : State => memAt u n) hframe :)
    have hself : memAt w k = trippedStack tmp (memAt s k) := memAt_modMem ..
    refine ⟨_, next (stackTemp_trips h105 ht), ?_, ?_, ?_, fun n hne => ?_, (congrArg State.dram hframe :), fun j hc htouch => ?_,
      fun hwf j htouch => ?_⟩
    · rw [hmem, hself]
      rfl
    · rw [hmem, hself]
      rfl
    · rw [hmem, hself]
      rfl
    · exact (hmem n).trans (memAt_modMem_ne _ _ _ _ hne)
    · exact fenceWhere_fences (s := w) (Bool.and_eq_true_iff.2 ⟨hc, htouch⟩) hc
    · refine jobAt_fenceWhere_of_not (s := w) hwf ?_ _
      exact (congrArg (canFence (jobAt s j) && ·) htouch).trans (Bool.and_false _)
  case refresh => rfl

end Sys2Proof.Machine
